-- ==== Sys2Proof/Word.lean ====
section
/-!
DEFINITION. The plain words of the machine (R8), bit slices of numbers (R7), and the canonical sparse map in which
memories and register arrays are held: a list of keys and values, keys strictly rising, no value equal to what an
unlisted key reads as.
-/

namespace Sys2Proof

/-- A byte. -/
abbrev Byte := BitVec 8
/-- A sluice or bank lane of 16 bits (R8, R17). -/
abbrev Lane := BitVec 16
/-- A VXU lane word of 32 bits. -/
abbrev Word32 := BitVec 32
/-- A scalar register of 64 bits. -/
abbrev Word := BitVec 64
/-- A tensor handle of 256 bits (R146). -/
abbrev Handle := BitVec 256
/-- A mask of bays: bit `b` names bay `b` (R55). -/
abbrev Bays := BitVec 8
/-- The number of a die in its package (R1). -/
abbrev DieIx := Fin 8
/-- The number of a bay in its die (R17). -/
abbrev BayIx := Fin 8

/-- `x[lo + w - 1 : lo]` of a number (R7, R14). -/
def bitsAt (x lo w : Nat) : Nat := x / 2 ^ lo % 2 ^ w

/-- One bit of a number. -/
def bitAt (x n : Nat) : Bool := x / 2 ^ n % 2 == 1

/-- `x` with `x[lo + w - 1 : lo]` replaced by the low bits of `v` (R14). -/
def setBits (x lo w v : Nat) : Nat :=
  x / 2 ^ (lo + w) * 2 ^ (lo + w) + v % 2 ^ w * 2 ^ lo + x % 2 ^ lo

/-- The two's complement value of the low `n` bits of `x` (`sext` of R14). -/
def sextNat (x n : Nat) : Int :=
  let y := x % 2 ^ n
  if 2 * y ≥ 2 ^ n then (y : Int) - 2 ^ n else y

/-- `sat(x, lo, hi)` of R14. -/
def satInt (x lo hi : Int) : Int := if x < lo then lo else if hi < x then hi else x

/-- 1 for true and 0 for false. -/
def b2n (b : Bool) : Nat := if b then 1 else 0

/-- The bays that a mask names, in increasing order. -/
def baysOf (m : Bays) : List BayIx := (List.finRange 8).filter fun b => m.getLsbD b.val

/-- Ceiling division. -/
def ceilDiv (a b : Nat) : Nat := (a + b - 1) / b

/-- A canonical sparse map from numbers to values. -/
abbrev SMap (α : Type) := List (Nat × α)

namespace SMap

variable {α : Type}

/-- The value at a key; an unlisted key reads as `d`. -/
def get (d : α) : SMap α → Nat → α
  | [], _ => d
  | (k, v) :: m, a => if a = k then v else if a < k then d else get d m a

/-- The map with `v` at key `a`; a value equal to `d` is not listed. -/
def put [DecidableEq α] (d : α) : SMap α → Nat → α → SMap α
  | [], a, v => if v = d then [] else [(a, v)]
  | (k, w) :: m, a, v =>
    if a < k then (if v = d then (k, w) :: m else (a, v) :: (k, w) :: m)
    else if a = k then (if v = d then m else (a, v) :: m)
    else (k, w) :: put d m a v

/-- Every key lies above `lo`, keys rise strictly, and no value is `d`. -/
def wfFrom [DecidableEq α] (d : α) : Option Nat → SMap α → Bool
  | _, [] => true
  | lo, (k, v) :: m =>
    (match lo with
     | none => true
     | some l => decide (l < k)) && decide (v ≠ d) && wfFrom d (some k) m

/-- The canonical form of a map. -/
def wf [DecidableEq α] (d : α) (m : SMap α) : Bool := wfFrom d none m

/-- The map without the keys of `[lo, hi)`. -/
def clearRange (m : SMap α) (lo hi : Nat) : SMap α := m.filter fun p => p.1 < lo || hi ≤ p.1

end SMap

/-- Replace the `i`-th element of a list; past the end nothing changes. -/
def listSet {α : Type} : List α → Nat → α → List α
  | [], _, _ => []
  | _ :: l, 0, v => v :: l
  | x :: l, n + 1, v => x :: listSet l n v

/-- A number as `n` little-endian bytes (R8). -/
def natBytes : Nat → Nat → List Byte
  | _, 0 => []
  | x, n + 1 => BitVec.ofNat 8 x :: natBytes (x / 256) n

/-- The number that little-endian bytes form (R8). -/
def bytesNat : List Byte → Nat
  | [] => 0
  | b :: bs => b.toNat + 256 * bytesNat bs

end Sys2Proof
end

