-- ==== Sys2Proof/Syntax.lean ====
section
/-!
DEFINITION. The steps of the machine as syntax: one constructor of `Instr` per row of the opcode table. A slot
instruction carries the fields of its slot word (R55, R61, R125); a pump command the fields of its command word (R222);
a host command the operands of its ring entry (R414); a step of an agent carries what it moves.
-/

namespace Sys2Proof

/-! ### Fields of slot words -/

/-- The operand field of a vector slot on the ALU, FMA and transcendental ports (R61): RND holds [7:5]. -/
structure VOp where
  d : BitVec 8
  a : BitVec 8
  b : BitVec 8
  c : BitVec 8
  rnd : BitVec 3
  vt : BitVec 2
  msel : BitVec 3
  deriving DecidableEq, Repr

/-- The operand field of a convert slot (R160). -/
structure CvOp where
  d : BitVec 8
  a : BitVec 8
  b : BitVec 8
  tf : BitVec 4
  sf : BitVec 4
  rnd : BitVec 3
  sat : Bool
  msel : BitVec 3
  deriving DecidableEq, Repr

/-- The operand field of a scan slot (R163). -/
structure ScOp where
  d : BitVec 8
  a : BitVec 8
  b : BitVec 8
  fmt : BitVec 4
  lw : BitVec 3
  carry : Bool
  rnd : BitVec 3
  sat : Bool
  k : BitVec 4
  deriving DecidableEq, Repr

/-- Layout F of R125 without the opcode's D, A, B, C. -/
structure FOp where
  d : BitVec 6
  a : BitVec 6
  b : BitVec 6
  c : BitVec 6
  prec : Bool
  rnd : BitVec 3
  sat : Bool
  cond : BitVec 3
  tf : BitVec 4
  sf : BitVec 4
  deriving DecidableEq, Repr

/-- Layout M of R125: the register D or V, A, SIZE, U and OFF. -/
structure MOp where
  d : BitVec 6
  a : BitVec 6
  size : BitVec 2
  u : Bool
  off : BitVec 24
  deriving DecidableEq, Repr

/-- Layout PR of R125 without DIR. -/
structure POp where
  pd : BitVec 4
  pa : BitVec 4
  na : Bool
  pb : BitVec 4
  nb : Bool
  deriving DecidableEq, Repr

/-! ### What the steps of the agents carry -/

/-- The flags of FPSTAT (R50). -/
structure Flags where
  iv : Bool := false
  of : Bool := false
  uf : Bool := false
  nx : Bool := false
  sa : Bool := false
  deriving DecidableEq, Repr

/-- Function units of the VXU, in the order of their latches k0 to k3 (R152). -/
inductive VUnit where
  | alu | fma | trans | conv
  deriving DecidableEq, Repr

/-- A reserved entry of a pour-side stream (R201): the stream, the bank set and the word of the entry. -/
structure Resv where
  bay : BayIx
  q : Nat
  bank0 : Nat
  nbk : Nat
  word : Nat
  deriving DecidableEq, Repr

/-- Where a VXU result goes (R59): the main file, the operand file, or no register. -/
inductive VDst where
  | v (r : Nat)
  | o (r : Nat)
  | none
  deriving DecidableEq, Repr

/-- One queued entry of a draw-side stream: lanes, residency flags (R203) and marks (R202). -/
structure Entry where
  lanes : List Lane
  nr : List Bool := []
  /-- The marked lanes in rising order: lane, cause, and cistern address of its word. -/
  marks : List (Nat × Nat × Nat) := []
  deriving DecidableEq, Repr

/-- A scan slot with what it consumed (R164). -/
structure ScanJob where
  opc : Nat
  fmt : Nat
  w : Nat
  carry : Bool
  mode : Nat
  sat : Bool
  k : Nat
  a : List Lane
  b : List Lane
  dst : Option Resv
  deriving DecidableEq, Repr

/-- A step of the MXU with its operands, the mode and the bank it recorded at issue (R174, R175). -/
structure MxStep where
  bay : BayIx
  bank : Bool
  fa : Nat
  fb : Nat
  tsel : Nat
  a : List Lane
  b : List Lane
  /-- The assembled FP64 operands when the step is the last of its group (R185). -/
  f64 : Option (List Word × List Word) := none
  /-- A step of `MX.HOLD` has zero products (R184). -/
  hold : Bool := false
  deriving DecidableEq, Repr

/-- What lands at the end of a timeline cycle (R67) and has no row of its own in the table. -/
inductive Result where
  | sreg (r : BitVec 6) (v : Word) (f : Flags)
  | preg (r : BitVec 4) (v : Bool) (f : Flags)
  | preds (v : BitVec 16)
  | hreg (r : BitVec 4) (v : Handle)
  | vec (bay : BayIx) (u : VUnit) (dst : VDst) (lanes : List Word32) (en : BitVec 128) (f : Flags)
  | present (bay : BayIx) (lane0 : Nat) (lanes : List Lane) (valid : List Bool) (dst : Option Resv) (f : Flags)
  | mask (bay : BayIx) (m : Nat) (v : BitVec 128) (f : Flags)
  | scan (bay : BayIx) (j : ScanJob)
  | freeO (bay : BayIx) (os : BitVec 8)
  | bind (bay : BayIx) (q port : Nat) (h : Handle) (pat : BitVec 128) (depth : Nat) (wrap feed : Bool)
  | unbind (bay : BayIx) (q : Nat)
  | skip (bay : BayIx) (q n : Nat)
  | drainQ (bay : BayIx) (q : Nat)
  | mxEdges (bay : BayIx) (ea eb : Option (List Lane))
  | mxMode (bay : BayIx) (fa fb : Nat)
  | mxSwap (bay : BayIx)
  | mxZero (bay : BayIx) (za zb zp : Bool)
  | mxRow (bay : BayIx) (bank clr : Bool) (row : Nat)
  | mxFold (bay : BayIx) (p : SMap (BitVec 48)) (pf : SMap (BitVec 3)) (sa sb : List Byte)
  | mxHoldStep (bay : BayIx)
  | leafLost (addr : Nat)
  deriving DecidableEq, Repr

/-- One valid lane of a pour (R100): its unit-side number, its value, the bank set and word it is addressed to, and the
poison and residency that travel with a pump fill (R203, R283). -/
structure PourLane where
  lane : Nat
  v : Lane
  /-- First bank and bank count minus 1 of the reserved entry; none for a pump fill, whose banks the stencil alone
  selects. -/
  banks : Option (Nat × Nat)
  word : Nat
  pz : Bool := false
  nr : Bool := false
  deriving DecidableEq, Repr

/-- The bank writes of the pour of one cycle in one bay (R25, R101), with the stencil that travels with it (R108). -/
structure Pour where
  bay : BayIx
  stn : BitVec 9728
  lanes : List PourLane
  deriving DecidableEq, Repr

/-- Kinds of entries of the load and store queues (R137 to R148). -/
inductive MemKind where
  | ld | lds | chk | hld | st | signal | hst | mark
  deriving DecidableEq, Repr

/-- One entry of a scalar queue (R138). -/
structure MemOp where
  kind : MemKind
  dst : Nat
  ea : Nat
  size : Nat
  uns : Bool
  data : Nat
  seq : Nat
  /-- Issued by a trap handler (R422). -/
  handler : Bool
  /-- The privilege level under which it was issued (R66). -/
  lvl : Nat := 0
  /-- Die-clock cycle before which it is not performed, when a rebuild or a stripe correction delays it (R384, R392). -/
  ready : Nat := 0
  deriving DecidableEq, Repr

/-- Kinds of verbs on the message link (R136, R219). -/
inductive VerbKind where
  | get | store | signal | atomic
  deriving DecidableEq, Repr

/-- A buffered access on its way to a die of the package (R263, R266). -/
structure Verb where
  kind : VerbKind
  /-- Package-local die that issued it. -/
  src : DieIx
  seq : Nat
  stamp : Nat
  domid : Nat
  op : MemOp
  /-- Atomic: the sump opcode, format and values (R218, R219). -/
  sop : Nat := 0
  sfmt : Nat := 0
  vals : List Word32 := []
  deriving DecidableEq, Repr

/-- One reflected unit of 64 bytes, or one reflected SIGNAL, as it commits at a target (R321, R325). -/
structure RUnit where
  /-- Global die index of the issuer (R265). -/
  src : Nat
  wid : Nat
  /-- Window offset in bytes. -/
  off : Nat
  mask : BitVec 64
  data : BitVec 512
  stamp : Nat
  seq : Nat
  signal : Bool
  /-- Commit-buffer entry and peer number of the issuer when the issuer is a die of this package; for another package,
  the SEQ of its flit. -/
  cb : Nat := 0
  peer : Nat := 0
  deriving DecidableEq, Repr

/-- A BULK flit as it arrives on a port: byte 0, and the 240-byte body that its Reed–Solomon code yields, none when it
does not decode (R325, log 9). -/
structure BulkFlit where
  port : Nat
  head : Byte
  body : Option (List Byte)
  deriving DecidableEq, Repr

/-- An ATOM flit as it arrives on a port: its 256 bytes (R325). -/
structure AtomFlit where
  port : Nat
  bytes : List Byte
  deriving DecidableEq, Repr

/-- A fabric-manager command (R331). -/
inductive FmCmd where
  | tune (port ring w : Nat)
  | off (port ring : Nat)
  | gate (port : Nat) (g : Bool)
  deriving DecidableEq, Repr

/-- Routing-counter update of one sump slot (R219): opcode, and the counters with their values in order. -/
structure CtrUpdate where
  sop : Nat
  fmt : Nat
  vals : List (Nat × Word32)
  deriving DecidableEq, Repr

/-- A closed sump group (R218): the updates in order of slot and element. -/
structure SumpGroup where
  bay : BayIx
  sop : Nat
  fmt : Nat
  vals : List (Nat × Word32)
  slots : Nat
  /-- Domain of the context that issued it. -/
  dom : Nat := 0
  /-- Die-clock cycle in which it closed. -/
  closed : Nat := 0
  /-- As for `CopyReq`. -/
  drop : List Nat := []
  ready : Nat := 0
  deriving DecidableEq, Repr

/-- A copy or probe request of the engine queue (R211, R209). -/
structure CopyReq where
  /-- 0 COPY, 1 COPY.ST, 2 probe fill. -/
  form : Nat
  die : DieIx
  dst : Word
  srcA : Word
  len : Nat
  caddr : Nat
  cval : Word
  domid : Nat
  rbase : Nat
  rlen : Nat
  /-- Probe fill: bay and slot. -/
  bay : BayIx
  slot : Nat
  gen : Nat
  /-- Granules whose shadows were freed after the request: what it writes there is discarded (R251). -/
  drop : List Nat := []
  /-- The number of the request at its die, the words copied so far, the status so far, and a word that has been read
  and is still to be written, with its poison (R26, R211). -/
  id : Nat := 0
  pos : Nat := 0
  st : Nat := 1
  got : Option (List Byte × Bool) := none
  /-- Die-clock cycle before which the next access is not made (R384, R392). -/
  ready : Nat := 0
  deriving DecidableEq, Repr

/-- A cut of the stencil cutter with the words read so far (R114). -/
structure CutJob where
  bay : BayIx
  dir : Bool
  slot : Nat
  addr : Nat
  caddr : Nat
  pass : Nat
  strict : Bool
  /-- Die-clock cycle of issue, the entries read so far, and the first word that could not be read: poisoned, address. -/
  start : Nat
  lanes : List Lane := []
  bad : Option (Bool × Nat) := none
  /-- As for `CopyReq`. -/
  drop : List Nat := []
  deriving DecidableEq, Repr

/-- A stencil load of one bay (R118). -/
structure LdJob where
  bay : BayIx
  dir : Bool
  slot : Nat
  addr : Nat
  start : Nat
  bytes : List Byte := []
  bad : Option (Bool × Nat) := none
  deriving DecidableEq, Repr

/-- The coordinates of a bank of the stack (R276). -/
structure BankId where
  pc : BitVec 6
  bg : BitVec 2
  bk : BitVec 2
  deriving DecidableEq, Repr

/-- A near-memory command as the base die performs it (R226). -/
structure NmcJob where
  op : Nat
  bank : BankId
  row : Nat
  col : Nat
  count : Nat
  caddr : Nat
  a : Word32
  b : Word32
  /-- The issuing context. -/
  ctx : Nat
  /-- Its number among the column commands of the stack. -/
  seq : Nat
  /-- The leaf under which its bank was open, with the id of the handle's tensor (R308). -/
  leaf : Option (Nat × Nat) := none
  deriving DecidableEq, Repr

/-- The fields of an NMC word and its half (R226). -/
structure NmcOp where
  bank : BankId
  count : BitVec 5
  col : BitVec 10
  caddr : BitVec 32
  a : Word32
  b : Word32
  deriving DecidableEq, Repr

/-- The data of an RD on its way to the pour lanes (R283). -/
structure RdData where
  bay : BayIx
  /-- The index of the RD among those of its row that name the bay. -/
  k : Nat
  word : Nat
  /-- Timeline cycle of its presentation in the pump's count. -/
  due : Nat
  bank : BankId
  row : Nat
  col : Nat
  data : BitVec 512
  pz : Bool × Bool
  nr : Bool
  /-- Its number among the column commands of the stack, and the issuing context. -/
  seq : Nat := 0
  ctx : Nat := 0
  deriving DecidableEq, Repr

/-- The data of a WR drained at its row (R284). -/
structure WrData where
  bank : BankId
  /-- The physical row that the WR's row of the table found open. -/
  row : Nat := 0
  col : Nat
  caddr : Nat
  data : BitVec 512
  /-- Poison of the two units. -/
  pz : Bool × Bool
  /-- Its number among the column commands of the stack, and the leaf under which its bank was open. -/
  seq : Nat := 0
  leaf : Option (Nat × Nat) := none
  deriving DecidableEq, Repr

/-- A location of the fault tracker (R390). -/
inductive Loc where
  | word (addr : Nat)
  | unit (pc bg bk row unit : Nat)
  | lane (port lane : Nat)
  deriving DecidableEq, Repr

/-- What an event that is no coded instruction brings with it: the operand of the step that serves it, held in the
state while that step runs. -/
inductive Msg where
  | none
  | verb (v : Verb)
  | response (seq data : Nat) (err : Option (Nat × Nat))
  | ack (cb peer : Nat) (ok : Bool)
  | send (peer : Nat)
  | bulk (f : BulkFlit)
  | atom (f : AtomFlit)
  | path (peer : Nat)
  | committed (target seq : Nat)
  | lostFlit (target seq : Nat)
  | refused (peer : Nat)
  | discarded (peer : Nat)
  | epoch (src : Nat)
  | time (pkg : Nat) (offset : Int)
  | fm (c : FmCmd)
  | copy (r : CopyReq)
  | cut (j : CutJob)
  | load (j : LdJob)
  | group (g : SumpGroup)
  | snap (ctrs : List Word32) (addr caddr : Nat) (cval : Word) (dom cycle : Nat) (drop : List Nat)
  | nmc (j : NmcJob)
  | stage (idle : Bool)
  | rdData (r : RdData)
  | wrData (w : WrData)
  | unit (b : BankId) (row unit : Nat)
  | hostRead (addr len : Nat)
  | hostWrite (addr : Nat) (data : List Byte)
  | hostReg (off : Nat) (v : Word)
  | debug (kind : Nat) (bay lane ix : Nat) (v : BitVec 256)
  | gang (launch queue t0 row col : Nat)
  | ended (pkg launch code : Nat)
  | launch (n : Nat)
  | package (pkg launch : Nat)
  | die (pkg die : Nat)
  | status (n : Nat)
  deriving DecidableEq, Repr

/-- One step of the machine: a row of the table of operations and events. The steps without fields stand last; those
of them that serve a message find it in the state. -/
inductive Instr where
  -- the timeline
  | segmentExpansionDone (va : Nat)
  | timelineResultLanding (r : Result)
  | streamEntryArrival (bay : BayIx) (q : Nat) (e : Entry)
  | pourBankWrite (p : Pour)
  | mxStepLanding (m : MxStep)
  | mxModePartialClear (bay : BayIx) (fa fb : Nat)
  | mxDrainPresent (bay : BayIx) (dst : Option Resv) (lanes : List Lane)
  | mxSnapTargetWrite (bay : BayIx) (toB : Bool) (cells : SMap Word32) (step : BitVec 32)
  | xferDelivery (bay : BayIx) (q : Nat) (e : Entry)
  | routingCounterUpdate (u : CtrUpdate)
  -- the scalar queues and the message link
  | combiningEntryClose (id : Nat)
  -- flits, paths and optics
  | ringLock (port ring : Nat)
  | rotaSlotStart (n : Nat)
  | laserRemoval (iod : Fin 2)
  | laserInsertion (iod : Fin 2)
  | portGateWrite (port : Nat) (g : Bool)
  | portGated (port : Nat)
  | fabctlModeWrite (v : Word)
  -- control registers
  | loopLevelWrite (csr : BitVec 12) (v : Word)
  | registerWrite (csr : BitVec 12) (how : BitVec 2) (v : Word)
  -- the span stage
  | spanSlot (r : Word)
  | spanEntryArrival (bay : BayIx) (e : Entry)
  | spanSlip (bay : BayIx) (q slot : Nat)
  -- the pump
  | act (b : BankId) (rowcol : BitVec 18)
  | rd (b : BankId) (col : BitVec 5) (caddr : BitVec 32)
  | wr (b : BankId) (col : BitVec 5) (caddr : BitVec 32)
  | pre (b : BankId)
  | prea (pc : BitVec 6)
  | refr (b : BankId) (rowcol : BitVec 18)
  | nmcFade (n : NmcOp)
  | nmcAxpy (n : NmcOp)
  | nmcAdd (n : NmcOp)
  | nmcScale (n : NmcOp)
  | nmcFill (n : NmcOp)
  -- errors and repair
  | scrubRead (bay : BayIx)
  | laneReplacementDone (port : Nat)
  | islandFailure (die : DieIx)
  -- the dispatcher
  | hostDoorbellWrite (q : BitVec 16) (tail : BitVec 16)
  | sliceEnd (launch : Nat)
  | contextSaveComplete (launch : Nat)
  | contextRestore (launch : Nat)
  -- the host
  | powerOn (fails : Option Nat)
  | qset (q : BitVec 16) (word : BitVec 3) (value mask : Word)
  | ctxset (ctx : BitVec 16) (addr : Word)
  | region (n : BitVec 16) (die : BitVec 8) (addr : Word) (count : Word)
  | tier (sel value : Word)
  | tierMigration (ctx leaf dframe : Word) (dtier : Bool)
  | recover (q : BitVec 16) (addr : Word)
  | faults (addr max : Word)
  | resync (addr : Word)
  | retireDie (die : BitVec 3)
  | retireBank (die bay : BitVec 3) (bank : BitVec 7)
  | fwload (addr len : Word)
  | attest (n0 n1 n2 n3 addr : Word)
  | domainJoin (pkg : BitVec 5)
  | domainLeave (pkg : BitVec 5)
  | pcap (watts : Word)
  -- control slot
  | br (tgt : BitVec 8)
  | brv (tgt bset : BitVec 8) (m e : BitVec 3) (neg : Bool)
  | jseg (a : BitVec 6) (tgt : BitVec 8)
  | loop (lvl : BitVec 3) (a : BitVec 6) (end_ : BitVec 8) (hops : BitVec 2) (maxt : BitVec 21)
  | lbrk (lvl : BitVec 3)
  | lcont (lvl : BitVec 3)
  | exit (code : BitVec 16)
  | tret (skip nodbrk : Bool)
  -- scalar and handle
  | add (d a b : BitVec 6)
  | sub (d a b : BitVec 6)
  | and (d a b : BitVec 6)
  | or (d a b : BitVec 6)
  | xor (d a b : BitVec 6)
  | andn (d a b : BitVec 6)
  | shl (d a b : BitVec 6)
  | shr (d a b : BitVec 6)
  | sar (d a b : BitVec 6)
  | min (d a b : BitVec 6)
  | max (d a b : BitVec 6)
  | minu (d a b : BitVec 6)
  | maxu (d a b : BitVec 6)
  | clz (d a : BitVec 6)
  | popc (d a : BitVec 6)
  | sel (d a b : BitVec 6) (p : BitVec 4)
  | addi (d a : BitVec 6) (imm : BitVec 28)
  | andi (d a : BitVec 6) (imm : BitVec 28)
  | ori (d a : BitVec 6) (imm : BitVec 28)
  | xori (d a : BitVec 6) (imm : BitVec 28)
  | shli (d a : BitVec 6) (imm : BitVec 6)
  | shri (d a : BitVec 6) (imm : BitVec 6)
  | sari (d a : BitVec 6) (imm : BitVec 6)
  | movi (d : BitVec 6) (imm : BitVec 28)
  | movhi (d a : BitVec 6) (q : BitVec 2) (imm : BitVec 16)
  | mul (d a b : BitVec 6)
  | mulh (d a b : BitVec 6)
  | mulhu (d a b : BitVec 6)
  | cmpEq (pd : BitVec 4) (a b : BitVec 6) (pn : BitVec 4)
  | cmpNe (pd : BitVec 4) (a b : BitVec 6) (pn : BitVec 4)
  | cmpLt (pd : BitVec 4) (a b : BitVec 6) (pn : BitVec 4)
  | cmpLtu (pd : BitVec 4) (a b : BitVec 6) (pn : BitVec 4)
  | cmpLe (pd : BitVec 4) (a b : BitVec 6) (pn : BitVec 4)
  | cmpLeu (pd : BitVec 4) (a b : BitVec 6) (pn : BitVec 4)
  | cmpiEq (pd : BitVec 4) (a : BitVec 6) (pn : BitVec 4) (imm : BitVec 24)
  | cmpiLt (pd : BitVec 4) (a : BitVec 6) (pn : BitVec 4) (imm : BitVec 24)
  | pand (o : POp)
  | por (o : POp)
  | pxor (o : POp)
  | pandn (o : POp)
  | pmovsToScalar (d : BitVec 6)
  | pmovsFromScalar (a : BitVec 6)
  | fadd (o : FOp)
  | fsub (o : FOp)
  | fmul (o : FOp)
  | ffma (o : FOp)
  | fmin (o : FOp)
  | fmax (o : FOp)
  | fcmp (o : FOp)
  | fcvt (o : FOp)
  | ld (o : MOp)
  | st (o : MOp)
  | lds (o : MOp)
  | chk (o : MOp)
  | signal (v a : BitVec 6) (off : BitVec 24)
  | hld (h : BitVec 4) (a : BitVec 6) (off : BitVec 24)
  | hst (h : BitVec 4) (a : BitVec 6) (off : BitVec 24)
  | hset (hd ha : BitVec 4) (b : BitVec 6) (field : BitVec 5)
  | hget (d : BitVec 6) (ha : BitVec 4) (field : BitVec 5)
  | hmov (hd ha : BitVec 4)
  -- vector
  | vadd (bays : Bays) (o : VOp)
  | vsub (bays : Bays) (o : VOp)
  | vmin (bays : Bays) (o : VOp)
  | vmax (bays : Bays) (o : VOp)
  | vabs (bays : Bays) (o : VOp)
  | vneg (bays : Bays) (o : VOp)
  | vand (bays : Bays) (o : VOp)
  | vor (bays : Bays) (o : VOp)
  | vxor (bays : Bays) (o : VOp)
  | vandn (bays : Bays) (o : VOp)
  | vshl (bays : Bays) (o : VOp)
  | vshr (bays : Bays) (o : VOp)
  | vsar (bays : Bays) (o : VOp)
  | vmov (bays : Bays) (o : VOp)
  | vsel (bays : Bays) (o : VOp)
  | vcmpEq (bays : Bays) (o : VOp)
  | vcmpNe (bays : Bays) (o : VOp)
  | vcmpLt (bays : Bays) (o : VOp)
  | vcmpLe (bays : Bays) (o : VOp)
  | vcmpUn (bays : Bays) (o : VOp)
  | vmand (bays : Bays) (d a b : BitVec 3)
  | vmor (bays : Bays) (d a b : BitVec 3)
  | vmxor (bays : Bays) (d a b : BitVec 3)
  | vmandn (bays : Bays) (d a b : BitVec 3)
  | vmset (bays : Bays) (d : BitVec 3) (n : BitVec 8)
  | vmul (bays : Bays) (o : VOp)
  | vfma (bays : Bays) (o : VOp)
  | vfms (bays : Bays) (o : VOp)
  | vfnma (bays : Bays) (o : VOp)
  | vexp2 (bays : Bays) (o : VOp)
  | vlog2 (bays : Bays) (o : VOp)
  | vrcp (bays : Bays) (o : VOp)
  | vrsqrt (bays : Bays) (o : VOp)
  | vsqrt (bays : Bays) (o : VOp)
  | vtanh (bays : Bays) (o : VOp)
  | vsigm (bays : Bays) (o : VOp)
  | vcvt (bays : Bays) (o : CvOp)
  | vrint (bays : Bays) (o : CvOp)
  | vpack (bays : Bays) (o : CvOp)
  | vunpk (bays : Bays) (o : CvOp)
  -- scan
  | scanPsum (bays : Bays) (o : ScOp)
  | scanPmax (bays : Bays) (o : ScOp)
  | scanPmin (bays : Bays) (o : ScOp)
  | scanSpsum (bays : Bays) (o : ScOp)
  | scanRsum (bays : Bays) (o : ScOp)
  | scanRmax (bays : Bays) (o : ScOp)
  | scanRmin (bays : Bays) (o : ScOp)
  | scanAmax (bays : Bays) (o : ScOp)
  | scanCmpct (bays : Bays) (o : ScOp)
  | scanArgmax (bays : Bays) (o : ScOp)
  | scanTopk (bays : Bays) (o : ScOp)
  | scanRank (bays : Bays) (o : ScOp)
  -- matrix
  | mxPush (bays : Bays) (la lb : Bool) (qa qb : BitVec 5)
  | mxAcc (bays : Bays) (sa sb : Bool) (qa qb : BitVec 5) (tsel : BitVec 2)
  | mxShift (bays : Bays) (sh : BitVec 8) (sb : Bool) (qb : BitVec 5) (tsel : BitVec 2)
  | mxHold (bays : Bays) (n : BitVec 6)
  | mxDrain (bays : Bays) (qd : BitVec 5) (bank clr auto : Bool) (s : BitVec 6) (row : BitVec 8)
  | mxZero (bays : Bays) (za zb zp : Bool)
  | mxMode (bays : Bays) (fa fb : BitVec 4)
  | mxScale (bays : Bays) (qsa qsb : BitVec 5)
  | mxSnap (bays : Bays) (fromB : Bool)
  | mxSwap (bays : Bays)
  -- stream
  | qBind (bays : Bays) (q : BitVec 5) (port : BitVec 4) (h : BitVec 4) (a : BitVec 6) (depth : BitVec 3)
      (wrap feed : Bool)
  | qUnbind (bays : Bays) (q : BitVec 5)
  | qSkip (bays : Bays) (q : BitVec 5) (n : BitVec 8)
  | qRmask (bays : Bays) (q : BitVec 5) (d : BitVec 3)
  | qXfer (bays : Bays) (qd qs : BitVec 5) (rot : BitVec 3)
  | qXferLand (bays : Bays) (qs : BitVec 5)
  | qDrain (bays : Bays) (q : BitVec 5)
  | stnLd (bays : Bays) (dir : Bool) (slot : BitVec 7) (a : BitVec 6)
  | stnCut (bay : BitVec 3) (dir : Bool) (slot : BitVec 7) (a c : BitVec 6) (pass : BitVec 4) (strict : Bool)
  | stnWait (bay : BitVec 3) (d : BitVec 6)
  | stnPasses (bay : BitVec 3) (d : BitVec 6)
  | probe (bay : BitVec 3) (pd : BitVec 4) (d a v : BitVec 6)
  | probeInv (bay : BitVec 3) (a : BitVec 6)
  | probeTag (bay : BitVec 3) (a : BitVec 6)
  | copy (bay : BitVec 3) (b a n c v : BitVec 6)
  | copySt (bay : BitVec 3) (b a n c v : BitVec 6)
  | pageReq (bay : BitVec 3) (h : BitVec 4) (a c v : BitVec 6)
  -- sump, pump and near-memory
  | sumpAdd (bays : Bays) (qi qv : BitVec 5) (fmt : BitVec 4)
  | sumpMax (bays : Bays) (qi qv : BitVec 5) (fmt : BitVec 4)
  | sumpMin (bays : Bays) (qi qv : BitVec 5) (fmt : BitVec 4)
  | sumpCnt (bays : Bays) (qi : BitVec 5)
  | sumpSnap (a c v : BitVec 6)
  | sumpRd (q : BitVec 5) (row : BitVec 4)
  | pumpLd (a b : BitVec 6)
  | pumpGo (a : BitVec 6)
  | pumpIdle (a b : BitVec 6)
  | pumpDead (h : BitVec 4) (a : BitVec 6)
  | pumpStat (d : BitVec 6)
  | pumpActr (d a : BitVec 6) (clr : Bool)
  | nmFence (d : BitVec 6)
  | nmStat (d : BitVec 6) (sel : BitVec 2)
  -- sync and system
  | waitA (d a v : BitVec 6) (cond : BitVec 2)
  | fence (ld st eng tl : Bool)
  | fenceRc (d : BitVec 6)
  | publish (d a : BitVec 6)
  | shadow (d a n : BitVec 6)
  | shadowFree (a : BitVec 6)
  | qwait (d : BitVec 6) (n : BitVec 4)
  | bar (a : BitVec 6)
  | realign (d : BitVec 6)
  | rdgtc (d : BitVec 6)
  | goWait (d : BitVec 6)
  | csrr (d : BitVec 6) (csr : BitVec 12)
  | csrw (d a : BitVec 6) (csr : BitVec 12)
  | csrs (d a : BitVec 6) (csr : BitVec 12)
  | csrc (d a : BitVec 6) (csr : BitVec 12)
  | trap (code : BitVec 16)
  | tlbSync (a : BitVec 6)
  | domsw (a : BitVec 6)
  | dbrk (code : BitVec 16)
  -- further events
  | ucieLaneError (port : Nat) (lane : Option Nat)
  | uciePortFailure (die : DieIx)
  | pageRequestRefusal (n : Nat)
  -- steps without fields
  | bundleIssue
  | holdCycle
  | stallCycle
  | freezeCycle
  | pumpRdPresent
  | pumpWrSend
  | queuedLoadPerform
  | queuedStorePerform
  | getVerbArrival
  | remoteStoreVerbArrival
  | signalVerbArrival
  | atomicVerbArrival
  | getResponse
  | dieCommitAck
  | quantumBoundary
  | quantumChange
  | commitBufferOverflow
  | flitSend
  | bulkFlitReceive
  | atomFlitReceive
  | commitAcknowledgement
  | refusalReport
  | pathEpochFlit
  | timeExchangeFlit
  | flitLossTimeout
  | pathDisconnect
  | pathReconnect
  | fabricManagerCommand
  | unsyncTimeout
  | copyCompletion
  | probeFillCompletion
  | stnCutCompletion
  | stnLdCompletion
  | sumpGroupApply
  | sumpSnapWrite
  | pumpStageComplete
  | pumpSkip
  | nmcCompletion
  | idleSequenceEntry
  | idleRowIssue
  | idleRunEnd
  | tableResume
  | refreshDebtAccrual
  | servicePathSequence
  | migrationComplete
  | bankRebuildWord
  | bankRebuildComplete
  | heartbeatPoll
  | dieLossNotice
  | doorbellPoll
  | preemptionRequest
  | preemptionHalt
  | kernelEnd
  | walkerKernelNode
  | walkerConditionalNode
  | walkerWhileNode
  | walkerJoinNode
  | gangPrepare
  | gangReady
  | gangReadyDeadline
  | goToken
  | gangCancel
  | gangStart
  | gangStarted
  | gangAckDeadline
  | gangConfirm
  | gangAbort
  | hostReservoirRead
  | hostReservoirWrite
  | nop
  | jnext
  | mark
  | sumpClr
  | rdDataReturn
  | debuggerWrite
  | hostRegisterWrite
  | unansweringPackageLost
  deriving DecidableEq, Repr

end Sys2Proof
end

