-- ==== Sys2Proof/WellFormed.lean ====
section
/-!
DEFINITION. The value checks of R62: which field values an instruction's own statement rejects. The reserved bits of
the layouts are checked where the bits are read, in Decode.
-/

namespace Sys2Proof

/-- A rounding selector of R36: 0b101 to 0b111 are illegal. -/
def rndOk (r : BitVec 3) : Bool := r.toNat ≤ 4

/-- A vector operand field as a source (R59). -/
def srcOk (x : BitVec 8) : Bool :=
  match bitsAt x.toNat 6 2 with
  | 0 => true
  | 1 => bitsAt x.toNat 3 2 == 0
  | 2 => bitsAt x.toNat 2 4 == 0
  | _ => true

/-- A vector operand field as a destination (R59). -/
def dstOk (x : BitVec 8) : Bool :=
  match bitsAt x.toNat 6 2 with
  | 0 => true
  | 1 => bitsAt x.toNat 3 3 == 0
  | 2 => false
  | _ => bitsAt x.toNat 5 1 == 0

/-- A field that names a mask (R59). -/
def maskField (x : BitVec 8) : Bool := bitsAt x.toNat 3 5 == 0

/-- A field that names a stream (R163). -/
def streamField (x : BitVec 8) : Bool := bitsAt x.toNat 5 3 == 6

/-- RND of an operation that rounds: the selector, or SAT with VT = 0b11 (R61). -/
def rndUsed (o : VOp) : Bool := if o.vt = 3 then bitsAt o.rnd.toNat 0 2 == 0 else rndOk o.rnd

/-- RND of an operation that takes only SAT, for INT32 (R155). -/
def satOnly (o : VOp) : Bool := if o.vt = 3 then bitsAt o.rnd.toNat 0 2 == 0 else o.rnd == 0

/-- Operands of a vector slot: destination, and how many of A, B, C are sources; the others must be zero. -/
def vFields (o : VOp) (n : Nat) : Bool :=
  dstOk o.d && srcOk o.a && (if 2 ≤ n then srcOk o.b else o.b == 0) && (if 3 ≤ n then srcOk o.c else o.c == 0)

/-- A slot of scope B names at least one bay (R56). -/
def bOk (bays : Bays) : Bool := bays != 0

/-- The fields of a compare (R156). -/
def vcmpOk (bays : Bays) (o : VOp) (un : Bool) : Bool :=
  bOk bays && maskField o.d && srcOk o.a && srcOk o.b && o.c == 0 && o.rnd == 0 &&
    (o.vt == 0 || (o.vt == 3 && !un))

/-- The fields of a transcendental (R159). -/
def transOk (bays : Bays) (o : VOp) : Bool := bOk bays && vFields o 1 && o.vt != 3 && rndOk o.rnd

/-- The element width of a format code on the convert port (R160); 0 for a code it refuses. -/
def cvWidth (c : BitVec 4) : Nat :=
  match c.toNat with
  | 0 => 32
  | 9 => 32
  | 1 => 16
  | 2 => 16
  | 3 => 8
  | 4 => 8
  | 5 => 8
  | 6 => 8
  | 8 => 8
  | 12 => 8
  | 7 => 4
  | 10 => 2
  | _ => 0

/-- What the convert port's opcodes share (R160). -/
def cvOk (bays : Bays) (o : CvOp) : Bool :=
  bOk bays && dstOk o.d && srcOk o.a && cvWidth o.tf != 0 && cvWidth o.sf != 0 && rndOk o.rnd

/-- Elements in an entry of a scan format (R163); 0 for a format it refuses. -/
def scanElems (fmt : BitVec 4) : Nat :=
  match fmt.toNat with
  | 0 => 32
  | 9 => 32
  | 1 => 64
  | 2 => 64
  | _ => 0

/-- The scan width `w` (R163). -/
def scanWidth (o : ScOp) : Nat := 2 ^ (o.lw.toNat + 1)

/-- What every scan slot must satisfy, and whether B is a flag stream (R163, R166). -/
def scanOk (bays : Bays) (o : ScOp) (flags carry rounds : Bool) : Bool :=
  bOk bays && streamField o.d && streamField o.a && (if flags then streamField o.b else o.b == 0) &&
    scanElems o.fmt != 0 && decide (scanWidth o ≤ scanElems o.fmt) && (carry || !o.carry) &&
    (if rounds then rndOk o.rnd else o.rnd == 0)

/-- The pairings of edge formats that R178 accepts. -/
def mxPair (fa fb : Nat) : Bool :=
  (fa == 1 && fb == 1) || (fa == 2 && fb == 2) || ((fa == 3 || fa == 4) && (fb == 3 || fb == 4)) ||
    ((fa == 5 || fa == 6) && (fb == 5 || fb == 6)) || (fa == 7 && fb == 7) || (fa == 8 && fb == 10) ||
    (fa == 11 && fb == 11)

/-- The port codes of R194. -/
def portOk (p : Nat) : Bool := !(p == 5 || p == 7 || p == 12 || p == 14 || p == 15)

/-- Pour-side port codes (R194). -/
def isPour (p : Nat) : Bool := 8 ≤ p

/-- The control registers that the manual defines (R255, R288, R323, R370, R401). -/
def csrDefined (n : Nat) : Bool :=
  (0x010 ≤ n && n ≤ 0x013) || (0x020 ≤ n && n ≤ 0x027) || n == 0x030 || n == 0x031 || (0x040 ≤ n && n ≤ 0x057) ||
    (0x060 ≤ n && n ≤ 0x06C) || (0x080 ≤ n && n ≤ 0x086) || (0x0C0 ≤ n && n ≤ 0x0C2) || (0x0C8 ≤ n && n ≤ 0x0CF) ||
    (0x0E0 ≤ n && n ≤ 0x0F1) || (0x100 ≤ n && n ≤ 0x10C) || (0x140 ≤ n && n ≤ 0x147) || (0x149 ≤ n && n ≤ 0x14C)

/-- A scalar floating-point operation with two sources (R131). -/
def fBin (o : FOp) (rounds : Bool) : Bool :=
  o.c == 0 && !o.sat && o.cond == 0 && o.tf == 0 && o.sf == 0 && (if rounds then rndOk o.rnd else o.rnd == 0)

/-- The format codes of `FCVT` (R133). -/
def fcvtFmt (c : BitVec 4) : Bool := c == 0 || c == 9 || c == 11

/-- The suffixes of a load (R137). -/
def ldOk (o : MOp) : Bool := !(o.size == 3 && o.u)

/-- A near-memory command's column range (R223, R226). -/
def nmcOk (n : NmcOp) : Bool := decide (n.col.toNat < 32) && decide (n.col.toNat + n.count.toNat ≤ 31)

/-- The fields of an instruction hold values that its statement accepts (R62, R223, R414). Steps that are no coded
instruction carry no such field. -/
def wf : Instr → Bool
  | .brv _ bset _ _ _ => bset != 0
  | .loop lvl _ _ _ maxt => decide (lvl.toNat < 6) && maxt != 0
  | .lbrk lvl => decide (lvl.toNat < 6)
  | .lcont lvl => decide (lvl.toNat < 6)
  | .cmpEq pd _ _ pn => pd != pn || pd == 0
  | .cmpNe pd _ _ pn => pd != pn || pd == 0
  | .cmpLt pd _ _ pn => pd != pn || pd == 0
  | .cmpLtu pd _ _ pn => pd != pn || pd == 0
  | .cmpLe pd _ _ pn => pd != pn || pd == 0
  | .cmpLeu pd _ _ pn => pd != pn || pd == 0
  | .cmpiEq pd _ pn _ => pd != pn || pd == 0
  | .cmpiLt pd _ pn _ => pd != pn || pd == 0
  | .fadd o => fBin o true
  | .fsub o => fBin o true
  | .fmul o => fBin o true
  | .ffma o => !o.sat && o.cond == 0 && o.tf == 0 && o.sf == 0 && rndOk o.rnd
  | .fmin o => fBin o false
  | .fmax o => fBin o false
  | .fcmp o => o.c == 0 && !o.sat && o.tf == 0 && o.sf == 0 && o.rnd == 0 && decide (o.cond.toNat ≤ 3) &&
      decide (o.d.toNat < 16)
  | .fcvt o => o.b == 0 && o.c == 0 && !o.prec && o.cond == 0 && fcvtFmt o.tf && fcvtFmt o.sf && rndOk o.rnd
  | .ld o => ldOk o
  | .st o => !o.u
  | .lds o => ldOk o
  | .chk o => ldOk o
  | .hset _ _ _ field => decide (field.toNat < 20)
  | .hget _ _ field => decide (field.toNat < 20)
  | .vadd bays o => bOk bays && vFields o 2 && rndUsed o
  | .vsub bays o => bOk bays && vFields o 2 && rndUsed o
  | .vmin bays o => bOk bays && vFields o 2 && o.rnd == 0
  | .vmax bays o => bOk bays && vFields o 2 && o.rnd == 0
  | .vabs bays o => bOk bays && vFields o 1 && satOnly o
  | .vneg bays o => bOk bays && vFields o 1 && satOnly o
  | .vand bays o => bOk bays && vFields o 2 && o.rnd == 0
  | .vor bays o => bOk bays && vFields o 2 && o.rnd == 0
  | .vxor bays o => bOk bays && vFields o 2 && o.rnd == 0
  | .vandn bays o => bOk bays && vFields o 2 && o.rnd == 0
  | .vshl bays o => bOk bays && vFields o 2 && o.rnd == 0 && o.vt == 3
  | .vshr bays o => bOk bays && vFields o 2 && o.rnd == 0 && o.vt == 3
  | .vsar bays o => bOk bays && vFields o 2 && o.rnd == 0 && o.vt == 3
  | .vmov bays o => bOk bays && vFields o 1 && o.rnd == 0
  | .vsel bays o => bOk bays && dstOk o.d && srcOk o.a && srcOk o.b && maskField o.c && o.rnd == 0
  | .vcmpEq bays o => vcmpOk bays o false
  | .vcmpNe bays o => vcmpOk bays o false
  | .vcmpLt bays o => vcmpOk bays o false
  | .vcmpLe bays o => vcmpOk bays o false
  | .vcmpUn bays o => vcmpOk bays o true
  | .vmand bays _ _ _ => bOk bays
  | .vmor bays _ _ _ => bOk bays
  | .vmxor bays _ _ _ => bOk bays
  | .vmandn bays _ _ _ => bOk bays
  | .vmset bays _ n => bOk bays && decide (n.toNat ≤ 128)
  | .vmul bays o => bOk bays && vFields o 2 && rndUsed o
  | .vfma bays o => bOk bays && vFields o 3 && rndUsed o
  | .vfms bays o => bOk bays && vFields o 3 && rndUsed o
  | .vfnma bays o => bOk bays && vFields o 3 && rndUsed o
  | .vexp2 bays o => transOk bays o
  | .vlog2 bays o => transOk bays o
  | .vrcp bays o => transOk bays o
  | .vrsqrt bays o => transOk bays o
  | .vsqrt bays o => transOk bays o
  | .vtanh bays o => transOk bays o
  | .vsigm bays o => transOk bays o
  | .vcvt bays o => cvOk bays o && o.b == 0
  | .vrint bays o => cvOk bays o && o.b == 0 && o.tf == o.sf && decide (o.tf.toNat ≤ 2) && !o.sat
  | .vpack bays o => cvOk bays o && srcOk o.b && decide (cvWidth o.tf < cvWidth o.sf)
  | .vunpk bays o => cvOk bays o && decide (cvWidth o.sf < cvWidth o.tf) &&
      decide (o.b.toNat < cvWidth o.tf / cvWidth o.sf)
  | .scanPsum bays o => scanOk bays o false true true && o.k == 0
  | .scanPmax bays o => scanOk bays o false true false && !o.sat && o.k == 0
  | .scanPmin bays o => scanOk bays o false true false && !o.sat && o.k == 0
  | .scanSpsum bays o => scanOk bays o true true true && o.k == 0
  | .scanRsum bays o => scanOk bays o false true true && o.k == 0
  | .scanRmax bays o => scanOk bays o false true false && !o.sat && o.k == 0
  | .scanRmin bays o => scanOk bays o false true false && !o.sat && o.k == 0
  | .scanAmax bays o => scanOk bays o false true false && (!o.sat || o.fmt == 9) && o.k == 0
  | .scanCmpct bays o => scanOk bays o true false false && !o.sat && o.k == 0
  | .scanArgmax bays o => scanOk bays o false false false && !o.sat && o.k == 0
  | .scanTopk bays o => scanOk bays o false false false && !o.sat && decide (2 * (o.k.toNat + 1) ≤ scanWidth o)
  | .scanRank bays o => scanOk bays o false true true && o.k == 0
  | .mxPush bays la lb qa qb => bOk bays && (la || lb) && (la || qa == 0) && (lb || qb == 0) && !(la && lb && qa == qb)
  | .mxAcc bays sa sb qa qb _ => bOk bays && (sa || qa == 0) && (sb || qb == 0) && !(sa && sb && qa == qb)
  | .mxShift bays sh sb qb _ => bOk bays && sh != 0 && (sb || qb == 0)
  | .mxHold bays _ => bOk bays
  | .mxDrain bays _ _ _ auto s row => bOk bays && (!auto || (s == 0 && row == 0))
  | .mxZero bays za zb zp => bOk bays && (za || zb || zp)
  | .mxMode bays fa fb => bOk bays && mxPair fa.toNat fb.toNat
  | .mxScale bays _ _ => bOk bays
  | .mxSnap bays _ => bOk bays
  | .mxSwap bays => bOk bays
  | .qBind bays _ port _ a depth _ feed =>
      bOk bays && portOk port.toNat && a.toNat % 2 == 0 && (!isPour port.toNat || (depth == 0 && !feed))
  | .qUnbind bays _ => bOk bays
  | .qSkip bays _ _ => bOk bays
  | .qRmask bays _ _ => bOk bays
  | .qXfer bays _ _ rot => bOk bays && rot != 0
  | .qXferLand bays _ => bOk bays
  | .qDrain bays _ => bOk bays
  | .stnLd bays _ slot _ => bOk bays && slot != 0
  | .stnCut _ _ slot _ _ _ _ => slot != 0
  | .sumpAdd bays qi qv fmt => bOk bays && qi != qv && (fmt == 0 || fmt == 9)
  | .sumpMax bays qi qv fmt => bOk bays && qi != qv && (fmt == 0 || fmt == 9)
  | .sumpMin bays qi qv fmt => bOk bays && qi != qv && (fmt == 0 || fmt == 9)
  | .sumpCnt bays _ => bOk bays
  | .pumpLd a b => a != 0 || b == 0
  | .pumpIdle a _ => a != 0
  | .nmStat _ sel => decide (sel.toNat ≤ 1)
  | .waitA _ _ _ cond => cond != 3
  | .fence ld st eng tl => ld || st || eng || tl
  | .csrr _ csr => csrDefined csr.toNat
  | .csrw _ _ csr => csrDefined csr.toNat
  | .csrs _ _ csr => csrDefined csr.toNat
  | .csrc _ _ csr => csrDefined csr.toNat
  | .rd _ col _ => col.toNat % 2 == 0
  | .wr _ col _ => col.toNat % 2 == 0
  | .nmcFade n => nmcOk n
  | .nmcAxpy n => nmcOk n && n.b == 0
  | .nmcAdd n => nmcOk n && n.b == 0
  | .nmcScale n => nmcOk n && n.b == 0 && n.caddr == 0
  | .nmcFill n => nmcOk n && n.b == 0 && n.caddr == 0
  | .qset _ word _ _ => decide (word.toNat ≤ 2)
  | .region _ _ _ count => decide (count.toNat ≤ 1024)
  | .tier sel _ => decide (sel.toNat ≤ 12)
  | .pcap watts => decide (1000 ≤ watts.toNat) && decide (watts.toNat ≤ 5600)
  | _ => true

end Sys2Proof
end

