-- ==== Sys2Proof/Decode.lean ====
section
/-!
DEFINITION. Decoding of slot words (R55, R56, R77 and the layouts of each class), pump command words (R222, R226) and
entries of the host's command ring (R414, R415); after it the encoder, written from the same tables.
-/

namespace Sys2Proof

/-- The fields of a number that is laid out from its highest bits down, by their widths. -/
def splitF : List Nat → Nat → List Nat
  | [], _ => []
  | w :: ws, x => x / 2 ^ ws.sum % 2 ^ w :: splitF ws x

/-- The number with the given fields, laid out from the highest bits down. -/
def packF : List Nat → List Nat → Nat
  | w :: ws, v :: vs => v % 2 ^ w * 2 ^ ws.sum + packF ws vs
  | _, _ => 0

/-- Why a word is no instruction. -/
inductive DecodeErr where
  /-- The class has no such opcode (R77). -/
  | opcode (cls opc : Nat)
  /-- BAYS breaks the rule of the opcode's scope (R56). -/
  | bays
  /-- A bit that the layout reserves is set (R62). -/
  | reserved
  /-- A field holds a value that the instruction's statement rejects (R62). -/
  | field
  deriving DecidableEq, Repr

/-- The bay that a mask of scope 1 names (R56). -/
def oneBay (bays : Nat) : Option (BitVec 3) :=
  match bays with
  | 1 => some 0
  | 2 => some 1
  | 4 => some 2
  | 8 => some 3
  | 16 => some 4
  | 32 => some 5
  | 64 => some 6
  | 128 => some 7
  | _ => none

/-- The layout that jnext, mark share. -/
def layJnext (f : Nat) (mk : Instr) : Except DecodeErr Instr :=
  match splitF [40] f with
  | [0] => .ok mk
  | _ => .error .reserved

/-- The layout that lbrk, lcont share. -/
def layLbrk (f : Nat) (mk : BitVec 3 → Instr) : Except DecodeErr Instr :=
  match splitF [3, 37] f with
  | [lvl, 0] => .ok (mk (.ofNat _ lvl))
  | _ => .error .reserved

/-- The layout that exit, trap, dbrk share. -/
def layExit (f : Nat) (mk : BitVec 16 → Instr) : Except DecodeErr Instr :=
  match splitF [24, 16] f with
  | [0, code] => .ok (mk (.ofNat _ code))
  | _ => .error .reserved

/-- The layout that add, sub, and and others share. -/
def layAdd (f : Nat) (mk : BitVec 6 → BitVec 6 → BitVec 6 → Instr) : Except DecodeErr Instr :=
  match splitF [6, 6, 6, 22] f with
  | [d, a, b, 0] => .ok (mk (.ofNat _ d) (.ofNat _ a) (.ofNat _ b))
  | _ => .error .reserved

/-- The layout that clz, popc, publish share. -/
def layClz (f : Nat) (mk : BitVec 6 → BitVec 6 → Instr) : Except DecodeErr Instr :=
  match splitF [6, 6, 28] f with
  | [d, a, 0] => .ok (mk (.ofNat _ d) (.ofNat _ a))
  | _ => .error .reserved

/-- The layout that addi, andi, ori and others share. -/
def layAddi (f : Nat) (mk : BitVec 6 → BitVec 6 → BitVec 28 → Instr) : Except DecodeErr Instr :=
  match splitF [6, 6, 28] f with
  | [d, a, imm] => .ok (mk (.ofNat _ d) (.ofNat _ a) (.ofNat _ imm))
  | _ => .error .reserved

/-- The layout that shli, shri, sari share. -/
def layShli (f : Nat) (mk : BitVec 6 → BitVec 6 → BitVec 6 → Instr) : Except DecodeErr Instr :=
  match splitF [6, 6, 22, 6] f with
  | [d, a, 0, imm] => .ok (mk (.ofNat _ d) (.ofNat _ a) (.ofNat _ imm))
  | _ => .error .reserved

/-- The layout that cmpEq, cmpNe, cmpLt and others share. -/
def layCmpEq (f : Nat) (mk : BitVec 4 → BitVec 6 → BitVec 6 → BitVec 4 → Instr) : Except DecodeErr Instr :=
  match splitF [2, 4, 6, 6, 4, 18] f with
  | [0, pd, a, b, pn, 0] => .ok (mk (.ofNat _ pd) (.ofNat _ a) (.ofNat _ b) (.ofNat _ pn))
  | _ => .error .reserved

/-- The layout that cmpiEq, cmpiLt share. -/
def layCmpiEq (f : Nat) (mk : BitVec 4 → BitVec 6 → BitVec 4 → BitVec 24 → Instr) : Except DecodeErr Instr :=
  match splitF [2, 4, 6, 4, 24] f with
  | [0, pd, a, pn, imm] => .ok (mk (.ofNat _ pd) (.ofNat _ a) (.ofNat _ pn) (.ofNat _ imm))
  | _ => .error .reserved

/-- The layout that pand, por, pxor and others share. -/
def layPand (f : Nat) (mk : POp → Instr) : Except DecodeErr Instr :=
  match splitF [4, 4, 1, 4, 1, 26] f with
  | [pd, pa, na, pb, nb, 0] => .ok (mk ⟨(.ofNat _ pd), (.ofNat _ pa), (na == 1), (.ofNat _ pb), (nb == 1)⟩)
  | _ => .error .reserved

/-- The layout that fadd, fsub, fmul and others share. -/
def layFadd (f : Nat) (mk : FOp → Instr) : Except DecodeErr Instr :=
  match splitF [6, 6, 6, 6, 1, 3, 1, 3, 4, 4] f with
  | [d, a, b, c, prec, rnd, sat, cond, tf, sf] => .ok (mk ⟨(.ofNat _ d), (.ofNat _ a), (.ofNat _ b), (.ofNat _ c),
      (prec == 1), (.ofNat _ rnd), (sat == 1), (.ofNat _ cond), (.ofNat _ tf), (.ofNat _ sf)⟩)
  | _ => .error .reserved

/-- The layout that ld, st, lds and others share. -/
def layLd (f : Nat) (mk : MOp → Instr) : Except DecodeErr Instr :=
  match splitF [6, 6, 2, 1, 1, 24] f with
  | [d, a, size, u, 0, off] => .ok (mk ⟨(.ofNat _ d), (.ofNat _ a), (.ofNat _ size), (u == 1), (.ofNat _ off)⟩)
  | _ => .error .reserved

/-- The layout that hld, hst share. -/
def layHld (f : Nat) (mk : BitVec 4 → BitVec 6 → BitVec 24 → Instr) : Except DecodeErr Instr :=
  match splitF [4, 2, 6, 4, 24] f with
  | [h, 0, a, 0, off] => .ok (mk (.ofNat _ h) (.ofNat _ a) (.ofNat _ off))
  | _ => .error .reserved

/-- The layout that vadd, vsub, vmin and others share. -/
def layVadd (bays f : Nat) (mk : BitVec 8 → VOp → Instr) : Except DecodeErr Instr :=
  match splitF [8, 8, 8, 8, 3, 2, 3] f with
  | [d, a, b, c, rnd, vt, msel] => .ok (mk (.ofNat _ bays) ⟨(.ofNat _ d), (.ofNat _ a), (.ofNat _ b), (.ofNat _ c),
      (.ofNat _ rnd), (.ofNat _ vt), (.ofNat _ msel)⟩)
  | _ => .error .reserved

/-- The layout that vmand, vmor, vmxor and others share. -/
def layVmand (bays f : Nat) (mk : BitVec 8 → BitVec 3 → BitVec 3 → BitVec 3 → Instr) : Except DecodeErr Instr :=
  match splitF [5, 3, 5, 3, 5, 3, 16] f with
  | [0, d, 0, a, 0, b, 0] => .ok (mk (.ofNat _ bays) (.ofNat _ d) (.ofNat _ a) (.ofNat _ b))
  | _ => .error .reserved

/-- The layout that vcvt, vrint, vpack and others share. -/
def layVcvt (bays f : Nat) (mk : BitVec 8 → CvOp → Instr) : Except DecodeErr Instr :=
  match splitF [8, 8, 8, 4, 4, 3, 1, 1, 3] f with
  | [d, a, b, tf, sf, rnd, sat, 0, msel] => .ok (mk (.ofNat _ bays) ⟨(.ofNat _ d), (.ofNat _ a), (.ofNat _ b), (.ofNat
      _ tf), (.ofNat _ sf), (.ofNat _ rnd), (sat == 1), (.ofNat _ msel)⟩)
  | _ => .error .reserved

/-- The layout that scanPsum, scanPmax, scanPmin and others share. -/
def layScanPsum (bays f : Nat) (mk : BitVec 8 → ScOp → Instr) : Except DecodeErr Instr :=
  match splitF [8, 8, 8, 4, 3, 1, 3, 1, 4] f with
  | [d, a, b, fmt, lw, carry, rnd, sat, k] => .ok (mk (.ofNat _ bays) ⟨(.ofNat _ d), (.ofNat _ a), (.ofNat _ b),
      (.ofNat _ fmt), (.ofNat _ lw), (carry == 1), (.ofNat _ rnd), (sat == 1), (.ofNat _ k)⟩)
  | _ => .error .reserved

/-- The layout that qUnbind, qDrain, sumpCnt share. -/
def layQUnbind (bays f : Nat) (mk : BitVec 8 → BitVec 5 → Instr) : Except DecodeErr Instr :=
  match splitF [5, 35] f with
  | [q, 0] => .ok (mk (.ofNat _ bays) (.ofNat _ q))
  | _ => .error .reserved

/-- The layout that stnWait, stnPasses, probeInv and others share. -/
def layStnWait (bays f : Nat) (mk : BitVec 3 → BitVec 6 → Instr) : Except DecodeErr Instr :=
  match oneBay bays, splitF [6, 34] f with
  | some bay, [d, 0] => .ok (mk bay (.ofNat _ d))
  | none, _ => .error .bays
  | _, _ => .error .reserved

/-- The layout that probe, pageReq share. -/
def layProbe (bays f : Nat) (mk : BitVec 3 → BitVec 4 → BitVec 6 → BitVec 6 → BitVec 6 → Instr) :
    Except DecodeErr Instr :=
  match oneBay bays, splitF [4, 6, 6, 6, 18] f with
  | some bay, [pd, d, a, v, 0] => .ok (mk bay (.ofNat _ pd) (.ofNat _ d) (.ofNat _ a) (.ofNat _ v))
  | none, _ => .error .bays
  | _, _ => .error .reserved

/-- The layout that copy, copySt share. -/
def layCopy (bays f : Nat) (mk : BitVec 3 → BitVec 6 → BitVec 6 → BitVec 6 → BitVec 6 → BitVec 6 → Instr) : Except
    DecodeErr Instr :=
  match oneBay bays, splitF [6, 6, 6, 6, 6, 10] f with
  | some bay, [b, a, n, c, v, 0] => .ok (mk bay (.ofNat _ b) (.ofNat _ a) (.ofNat _ n) (.ofNat _ c) (.ofNat _ v))
  | none, _ => .error .bays
  | _, _ => .error .reserved

/-- The layout that sumpAdd, sumpMax, sumpMin share. -/
def laySumpAdd (bays f : Nat) (mk : BitVec 8 → BitVec 5 → BitVec 5 → BitVec 4 → Instr) : Except DecodeErr Instr :=
  match splitF [5, 5, 4, 26] f with
  | [qi, qv, fmt, 0] => .ok (mk (.ofNat _ bays) (.ofNat _ qi) (.ofNat _ qv) (.ofNat _ fmt))
  | _ => .error .reserved

/-- The layout that pumpLd, pumpIdle share. -/
def layPumpLd (bays f : Nat) (mk : BitVec 6 → BitVec 6 → Instr) : Except DecodeErr Instr :=
  match decide (bays = 0xFF), splitF [6, 6, 28] f with
  | true, [a, b, 0] => .ok (mk (.ofNat _ a) (.ofNat _ b))
  | false, _ => .error .bays
  | _, _ => .error .reserved

/-- The layout that pumpGo, pumpStat, nmFence share. -/
def layPumpGo (bays f : Nat) (mk : BitVec 6 → Instr) : Except DecodeErr Instr :=
  match decide (bays = 0xFF), splitF [6, 34] f with
  | true, [a, 0] => .ok (mk (.ofNat _ a))
  | false, _ => .error .bays
  | _, _ => .error .reserved

/-- The layout that fenceRc, shadowFree, bar and others share. -/
def layFenceRc (f : Nat) (mk : BitVec 6 → Instr) : Except DecodeErr Instr :=
  match splitF [6, 34] f with
  | [d, 0] => .ok (mk (.ofNat _ d))
  | _ => .error .reserved

/-- The layout that csrw, csrs, csrc share. -/
def layCsrw (f : Nat) (mk : BitVec 6 → BitVec 6 → BitVec 12 → Instr) : Except DecodeErr Instr :=
  match splitF [6, 6, 12, 16] f with
  | [d, a, csr, 0] => .ok (mk (.ofNat _ d) (.ofNat _ a) (.ofNat _ csr))
  | _ => .error .reserved

/-- Class 0 of R56 by opcode (R77), from the slot's operand field. -/
def decodeControl (opc f : Nat) : Except DecodeErr Instr :=
  match opc with
  | 0x1 =>
    match splitF [8, 32] f with
    | [tgt, 0] => .ok (.br (.ofNat _ tgt))
    | _ => .error .reserved
  | 0x2 =>
    match splitF [8, 8, 3, 3, 1, 17] f with
    | [tgt, bset, m, e, neg, 0] => .ok (.brv (.ofNat _ tgt) (.ofNat _ bset) (.ofNat _ m) (.ofNat _ e) (neg == 1))
    | _ => .error .reserved
  | 0x3 => layJnext f .jnext
  | 0x4 =>
    match splitF [6, 8, 26] f with
    | [a, tgt, 0] => .ok (.jseg (.ofNat _ a) (.ofNat _ tgt))
    | _ => .error .reserved
  | 0x5 =>
    match splitF [3, 6, 8, 2, 21] f with
    | [lvl, a, end_, hops, maxt] => .ok (.loop (.ofNat _ lvl) (.ofNat _ a) (.ofNat _ end_) (.ofNat _ hops) (.ofNat _
        maxt))
    | _ => .error .reserved
  | 0x6 => layLbrk f .lbrk
  | 0x7 => layLbrk f .lcont
  | 0x8 => layExit f .exit
  | 0x9 =>
    match splitF [1, 1, 38] f with
    | [skip, nodbrk, 0] => .ok (.tret (skip == 1) (nodbrk == 1))
    | _ => .error .reserved
  | _ => .error (.opcode 0 opc)

/-- Class 1 of R56 by opcode (R77), from the slot's operand field. -/
def decodeScalar (opc f : Nat) : Except DecodeErr Instr :=
  match opc with
  | 0x0 => layAdd f .add
  | 0x1 => layAdd f .sub
  | 0x2 => layAdd f .and
  | 0x3 => layAdd f .or
  | 0x4 => layAdd f .xor
  | 0x5 => layAdd f .andn
  | 0x6 => layAdd f .shl
  | 0x7 => layAdd f .shr
  | 0x8 => layAdd f .sar
  | 0x9 => layAdd f .min
  | 0xa => layAdd f .max
  | 0xb => layAdd f .minu
  | 0xc => layAdd f .maxu
  | 0xd => layClz f .clz
  | 0xe => layClz f .popc
  | 0xf =>
    match splitF [6, 6, 6, 4, 18] f with
    | [d, a, b, p, 0] => .ok (.sel (.ofNat _ d) (.ofNat _ a) (.ofNat _ b) (.ofNat _ p))
    | _ => .error .reserved
  | 0x10 => layAddi f .addi
  | 0x11 => layAddi f .andi
  | 0x12 => layAddi f .ori
  | 0x13 => layAddi f .xori
  | 0x14 => layShli f .shli
  | 0x15 => layShli f .shri
  | 0x16 => layShli f .sari
  | 0x17 =>
    match splitF [6, 6, 28] f with
    | [d, 0, imm] => .ok (.movi (.ofNat _ d) (.ofNat _ imm))
    | _ => .error .reserved
  | 0x18 =>
    match splitF [6, 6, 10, 2, 16] f with
    | [d, a, 0, q, imm] => .ok (.movhi (.ofNat _ d) (.ofNat _ a) (.ofNat _ q) (.ofNat _ imm))
    | _ => .error .reserved
  | 0x20 => layAdd f .mul
  | 0x21 => layAdd f .mulh
  | 0x22 => layAdd f .mulhu
  | 0x30 => layCmpEq f .cmpEq
  | 0x31 => layCmpEq f .cmpNe
  | 0x32 => layCmpEq f .cmpLt
  | 0x33 => layCmpEq f .cmpLtu
  | 0x34 => layCmpEq f .cmpLe
  | 0x35 => layCmpEq f .cmpLeu
  | 0x36 => layCmpiEq f .cmpiEq
  | 0x37 => layCmpiEq f .cmpiLt
  | 0x40 => layPand f .pand
  | 0x41 => layPand f .por
  | 0x42 => layPand f .pxor
  | 0x43 => layPand f .pandn
  | 0x44 =>
    match splitF [6, 8, 1, 25] f with
    | [d, 0, dir, 0] => .ok (if dir = 1 then .pmovsFromScalar (.ofNat _ d) else .pmovsToScalar (.ofNat _ d))
    | _ => .error .reserved
  | 0x50 => layFadd f .fadd
  | 0x51 => layFadd f .fsub
  | 0x52 => layFadd f .fmul
  | 0x53 => layFadd f .ffma
  | 0x54 => layFadd f .fmin
  | 0x55 => layFadd f .fmax
  | 0x56 => layFadd f .fcmp
  | 0x57 => layFadd f .fcvt
  | 0x60 => layLd f .ld
  | 0x61 => layLd f .st
  | 0x62 => layLd f .lds
  | 0x63 => layLd f .chk
  | 0x64 => layJnext f .mark
  | 0x65 =>
    match splitF [6, 6, 2, 2, 24] f with
    | [v, a, 3, 0, off] => .ok (.signal (.ofNat _ v) (.ofNat _ a) (.ofNat _ off))
    | _ => .error .reserved
  | 0x70 => layHld f .hld
  | 0x71 => layHld f .hst
  | 0x72 =>
    match splitF [4, 4, 6, 5, 21] f with
    | [hd, ha, b, field, 0] => .ok (.hset (.ofNat _ hd) (.ofNat _ ha) (.ofNat _ b) (.ofNat _ field))
    | _ => .error .reserved
  | 0x73 =>
    match splitF [6, 4, 5, 25] f with
    | [d, ha, field, 0] => .ok (.hget (.ofNat _ d) (.ofNat _ ha) (.ofNat _ field))
    | _ => .error .reserved
  | 0x74 =>
    match splitF [4, 4, 32] f with
    | [hd, ha, 0] => .ok (.hmov (.ofNat _ hd) (.ofNat _ ha))
    | _ => .error .reserved
  | _ => .error (.opcode 1 opc)

/-- Class 2 of R56 by opcode (R77), from the slot's bay mask and operand field. -/
def decodeVector (bays opc f : Nat) : Except DecodeErr Instr :=
  match opc with
  | 0x0 => layVadd bays f .vadd
  | 0x1 => layVadd bays f .vsub
  | 0x2 => layVadd bays f .vmin
  | 0x3 => layVadd bays f .vmax
  | 0x4 => layVadd bays f .vabs
  | 0x5 => layVadd bays f .vneg
  | 0x6 => layVadd bays f .vand
  | 0x7 => layVadd bays f .vor
  | 0x8 => layVadd bays f .vxor
  | 0x9 => layVadd bays f .vandn
  | 0xa => layVadd bays f .vshl
  | 0xb => layVadd bays f .vshr
  | 0xc => layVadd bays f .vsar
  | 0xd => layVadd bays f .vmov
  | 0xe => layVadd bays f .vsel
  | 0x10 => layVadd bays f .vcmpEq
  | 0x11 => layVadd bays f .vcmpNe
  | 0x12 => layVadd bays f .vcmpLt
  | 0x13 => layVadd bays f .vcmpLe
  | 0x14 => layVadd bays f .vcmpUn
  | 0x18 => layVmand bays f .vmand
  | 0x19 => layVmand bays f .vmor
  | 0x1a => layVmand bays f .vmxor
  | 0x1b => layVmand bays f .vmandn
  | 0x1c =>
    match splitF [5, 3, 8, 8, 16] f with
    | [0, d, 0, n, 0] => .ok (.vmset (.ofNat _ bays) (.ofNat _ d) (.ofNat _ n))
    | _ => .error .reserved
  | 0x40 => layVadd bays f .vmul
  | 0x41 => layVadd bays f .vfma
  | 0x42 => layVadd bays f .vfms
  | 0x43 => layVadd bays f .vfnma
  | 0x60 => layVadd bays f .vexp2
  | 0x61 => layVadd bays f .vlog2
  | 0x62 => layVadd bays f .vrcp
  | 0x63 => layVadd bays f .vrsqrt
  | 0x64 => layVadd bays f .vsqrt
  | 0x65 => layVadd bays f .vtanh
  | 0x66 => layVadd bays f .vsigm
  | 0x80 => layVcvt bays f .vcvt
  | 0x81 => layVcvt bays f .vrint
  | 0x82 => layVcvt bays f .vpack
  | 0x83 => layVcvt bays f .vunpk
  | _ => .error (.opcode 2 opc)

/-- Class 3 of R56 by opcode (R77), from the slot's bay mask and operand field. -/
def decodeScan (bays opc f : Nat) : Except DecodeErr Instr :=
  match opc with
  | 0x0 => layScanPsum bays f .scanPsum
  | 0x1 => layScanPsum bays f .scanPmax
  | 0x2 => layScanPsum bays f .scanPmin
  | 0x3 => layScanPsum bays f .scanSpsum
  | 0x4 => layScanPsum bays f .scanRsum
  | 0x5 => layScanPsum bays f .scanRmax
  | 0x6 => layScanPsum bays f .scanRmin
  | 0x7 => layScanPsum bays f .scanAmax
  | 0x8 => layScanPsum bays f .scanCmpct
  | 0x9 => layScanPsum bays f .scanArgmax
  | 0xa => layScanPsum bays f .scanTopk
  | 0xb => layScanPsum bays f .scanRank
  | _ => .error (.opcode 3 opc)

/-- Class 4 of R56 by opcode (R77), from the slot's bay mask and operand field. -/
def decodeMatrix (bays opc f : Nat) : Except DecodeErr Instr :=
  match opc with
  | 0x0 =>
    match splitF [1, 1, 5, 5, 28] f with
    | [la, lb, qa, qb, 0] => .ok (.mxPush (.ofNat _ bays) (la == 1) (lb == 1) (.ofNat _ qa) (.ofNat _ qb))
    | _ => .error .reserved
  | 0x1 =>
    match splitF [1, 1, 5, 5, 2, 26] f with
    | [sa, sb, qa, qb, tsel, 0] => .ok (.mxAcc (.ofNat _ bays) (sa == 1) (sb == 1) (.ofNat _ qa) (.ofNat _ qb) (.ofNat
        _ tsel))
    | _ => .error .reserved
  | 0x2 =>
    match splitF [8, 1, 5, 2, 24] f with
    | [sh, sb, qb, tsel, 0] => .ok (.mxShift (.ofNat _ bays) (.ofNat _ sh) (sb == 1) (.ofNat _ qb) (.ofNat _ tsel))
    | _ => .error .reserved
  | 0x3 =>
    match splitF [6, 34] f with
    | [n, 0] => .ok (.mxHold (.ofNat _ bays) (.ofNat _ n))
    | _ => .error .reserved
  | 0x8 =>
    match splitF [5, 1, 1, 1, 6, 8, 18] f with
    | [qd, bank, clr, auto, s, row, 0] => .ok (.mxDrain (.ofNat _ bays) (.ofNat _ qd) (bank == 1) (clr == 1) (auto ==
        1) (.ofNat _ s) (.ofNat _ row))
    | _ => .error .reserved
  | 0x9 =>
    match splitF [1, 1, 1, 37] f with
    | [za, zb, zp, 0] => .ok (.mxZero (.ofNat _ bays) (za == 1) (zb == 1) (zp == 1))
    | _ => .error .reserved
  | 0xa =>
    match splitF [4, 4, 32] f with
    | [fa, fb, 0] => .ok (.mxMode (.ofNat _ bays) (.ofNat _ fa) (.ofNat _ fb))
    | _ => .error .reserved
  | 0xb =>
    match splitF [5, 5, 30] f with
    | [qsa, qsb, 0] => .ok (.mxScale (.ofNat _ bays) (.ofNat _ qsa) (.ofNat _ qsb))
    | _ => .error .reserved
  | 0xc =>
    match splitF [1, 39] f with
    | [fromB, 0] => .ok (.mxSnap (.ofNat _ bays) (fromB == 1))
    | _ => .error .reserved
  | 0xd =>
    match splitF [40] f with
    | [0] => .ok (.mxSwap (.ofNat _ bays))
    | _ => .error .reserved
  | _ => .error (.opcode 4 opc)

/-- Class 5 of R56 by opcode (R77), from the slot's bay mask and operand field. -/
def decodeStream (bays opc f : Nat) : Except DecodeErr Instr :=
  match opc with
  | 0x0 =>
    match splitF [5, 4, 4, 6, 3, 1, 1, 16] f with
    | [q, port, h, a, depth, wrap, feed, 0] => .ok (.qBind (.ofNat _ bays) (.ofNat _ q) (.ofNat _ port) (.ofNat _ h)
        (.ofNat _ a) (.ofNat _ depth) (wrap == 1) (feed == 1))
    | _ => .error .reserved
  | 0x1 => layQUnbind bays f .qUnbind
  | 0x2 =>
    match splitF [5, 8, 27] f with
    | [q, n, 0] => .ok (.qSkip (.ofNat _ bays) (.ofNat _ q) (.ofNat _ n))
    | _ => .error .reserved
  | 0x3 =>
    match splitF [5, 3, 32] f with
    | [q, d, 0] => .ok (.qRmask (.ofNat _ bays) (.ofNat _ q) (.ofNat _ d))
    | _ => .error .reserved
  | 0x4 =>
    match splitF [5, 5, 3, 27] f with
    | [qd, qs, rot, 0] => 
        .ok (if rot = 0 ∧ qd = 0 then .qXferLand (.ofNat _ bays) (.ofNat _ qs)
          else .qXfer (.ofNat _ bays) (.ofNat _ qd) (.ofNat _ qs) (.ofNat _ rot))
    | _ => .error .reserved
  | 0x5 => layQUnbind bays f .qDrain
  | 0x10 =>
    match splitF [1, 7, 6, 26] f with
    | [dir, slot, a, 0] => .ok (.stnLd (.ofNat _ bays) (dir == 1) (.ofNat _ slot) (.ofNat _ a))
    | _ => .error .reserved
  | 0x11 =>
    match oneBay bays, splitF [1, 7, 6, 6, 4, 1, 15] f with
    | some bay, [dir, slot, a, c, pass, strict, 0] => .ok (.stnCut bay (dir == 1) (.ofNat _ slot) (.ofNat _ a) (.ofNat
        _ c) (.ofNat _ pass) (strict == 1))
    | none, _ => .error .bays
    | _, _ => .error .reserved
  | 0x12 => layStnWait bays f .stnWait
  | 0x13 => layStnWait bays f .stnPasses
  | 0x20 => layProbe bays f .probe
  | 0x21 => layStnWait bays f .probeInv
  | 0x22 => layStnWait bays f .probeTag
  | 0x30 => layCopy bays f .copy
  | 0x31 => layCopy bays f .copySt
  | 0x32 => layProbe bays f .pageReq
  | _ => .error (.opcode 5 opc)

/-- Class 6 of R56 by opcode (R77), from the slot's bay mask and operand field. -/
def decodeSump (bays opc f : Nat) : Except DecodeErr Instr :=
  match opc with
  | 0x0 => laySumpAdd bays f .sumpAdd
  | 0x1 => laySumpAdd bays f .sumpMax
  | 0x2 => laySumpAdd bays f .sumpMin
  | 0x3 => layQUnbind bays f .sumpCnt
  | 0x4 =>
    match decide (bays = 0xFF), splitF [6, 6, 6, 22] f with
    | true, [a, c, v, 0] => .ok (.sumpSnap (.ofNat _ a) (.ofNat _ c) (.ofNat _ v))
    | false, _ => .error .bays
    | _, _ => .error .reserved
  | 0x5 =>
    match decide (bays = 0xFF), splitF [5, 4, 31] f with
    | true, [q, row, 0] => .ok (.sumpRd (.ofNat _ q) (.ofNat _ row))
    | false, _ => .error .bays
    | _, _ => .error .reserved
  | 0x6 =>
    match decide (bays = 0xFF), splitF [40] f with
    | true, [0] => .ok (.sumpClr)
    | false, _ => .error .bays
    | _, _ => .error .reserved
  | 0x20 => layPumpLd bays f .pumpLd
  | 0x21 => layPumpGo bays f .pumpGo
  | 0x22 => layPumpLd bays f .pumpIdle
  | 0x23 =>
    match decide (bays = 0xFF), splitF [4, 6, 30] f with
    | true, [h, a, 0] => .ok (.pumpDead (.ofNat _ h) (.ofNat _ a))
    | false, _ => .error .bays
    | _, _ => .error .reserved
  | 0x24 => layPumpGo bays f .pumpStat
  | 0x25 =>
    match decide (bays = 0xFF), splitF [6, 6, 1, 27] f with
    | true, [d, a, clr, 0] => .ok (.pumpActr (.ofNat _ d) (.ofNat _ a) (clr == 1))
    | false, _ => .error .bays
    | _, _ => .error .reserved
  | 0x40 => layPumpGo bays f .nmFence
  | 0x41 =>
    match decide (bays = 0xFF), splitF [6, 2, 32] f with
    | true, [d, sel, 0] => .ok (.nmStat (.ofNat _ d) (.ofNat _ sel))
    | false, _ => .error .bays
    | _, _ => .error .reserved
  | _ => .error (.opcode 6 opc)

/-- Class 7 of R56 by opcode (R77), from the slot's operand field. -/
def decodeSync (opc f : Nat) : Except DecodeErr Instr :=
  match opc with
  | 0x0 =>
    match splitF [6, 6, 6, 2, 20] f with
    | [d, a, v, cond, 0] => .ok (.waitA (.ofNat _ d) (.ofNat _ a) (.ofNat _ v) (.ofNat _ cond))
    | _ => .error .reserved
  | 0x1 =>
    match splitF [1, 1, 1, 1, 36] f with
    | [ld, st, eng, tl, 0] => .ok (.fence (ld == 1) (st == 1) (eng == 1) (tl == 1))
    | _ => .error .reserved
  | 0x2 => layFenceRc f .fenceRc
  | 0x3 => layClz f .publish
  | 0x4 => layAdd f .shadow
  | 0x5 => layFenceRc f .shadowFree
  | 0x6 =>
    match splitF [6, 4, 30] f with
    | [d, n, 0] => .ok (.qwait (.ofNat _ d) (.ofNat _ n))
    | _ => .error .reserved
  | 0x7 => layFenceRc f .bar
  | 0x8 => layFenceRc f .realign
  | 0x9 => layFenceRc f .rdgtc
  | 0xa => layFenceRc f .goWait
  | 0x10 =>
    match splitF [6, 6, 12, 16] f with
    | [d, 0, csr, 0] => .ok (.csrr (.ofNat _ d) (.ofNat _ csr))
    | _ => .error .reserved
  | 0x11 => layCsrw f .csrw
  | 0x12 => layCsrw f .csrs
  | 0x13 => layCsrw f .csrc
  | 0x14 => layExit f .trap
  | 0x15 => layFenceRc f .tlbSync
  | 0x16 => layFenceRc f .domsw
  | 0x17 => layExit f .dbrk
  | _ => .error (.opcode 7 opc)
/-- A slot word with its value checks still to make: CLASS, GUARD, GNEG, BAYS, OPC and operands of R55. -/
def decodeRaw (w : Nat) : Except DecodeErr Instr :=
  match splitF [3, 4, 1, 8, 8, 40] w with
  | [0, 0, 0, 0, 0, 0] => .ok .nop
  | [0, _, _, bays, opc, f] => if bays = 0 then decodeControl opc f else .error .bays
  | [1, _, _, bays, opc, f] => if bays = 0 then decodeScalar opc f else .error .bays
  | [2, _, _, bays, opc, f] => decodeVector bays opc f
  | [3, _, _, bays, opc, f] => decodeScan bays opc f
  | [4, _, _, bays, opc, f] => decodeMatrix bays opc f
  | [5, _, _, bays, opc, f] => decodeStream bays opc f
  | [6, _, _, bays, opc, f] => decodeSump bays opc f
  | [_, _, _, bays, opc, f] => if bays = 0 then decodeSync opc f else .error .bays
  | _ => .error .reserved

/-- The instruction that a slot word holds (R55 to R62), or why it holds none. -/
def decodeSlot (w : Nat) : Except DecodeErr Instr :=
  match decodeRaw w with
  | .ok i => if wf i then .ok i else .error .field
  | .error e => .error e

/-- The guard predicate of a slot word, and whether it acts on false (R55). -/
def guardOf (w : Nat) : Nat × Bool := (bitsAt w 57 4, bitAt w 56)

/-- A near-memory command from its two halves (R226). -/
def decodeNmc (pc bg bk rowcol caddr half : Nat) : Except DecodeErr Instr :=
  match splitF [5, 3, 10] rowcol, splitF [32, 32] half with
  | [count, op, col], [a, b] =>
    let n : NmcOp := ⟨⟨.ofNat _ pc, .ofNat _ bg, .ofNat _ bk⟩, .ofNat _ count, .ofNat _ col, .ofNat _ caddr,
      .ofNat _ a, .ofNat _ b⟩
    match op with
    | 0 => .ok (.nmcFade n)
    | 1 => .ok (.nmcAxpy n)
    | 2 => .ok (.nmcAdd n)
    | 3 => .ok (.nmcScale n)
    | 4 => .ok (.nmcFill n)
    | _ => .error .field
  | _, _ => .error .reserved

/-- A pump command word before its value checks (R222, R223). `half` is the near-memory half that pairs with it. -/
def decodePumpRaw (w : Nat) (half : Option Nat) : Except DecodeErr Instr :=
  match splitF [4, 6, 2, 2, 18, 32] w with
  | [0, 0, 0, 0, 0, 0] => .ok .pumpSkip
  | [1, pc, bg, bk, row, 0] => .ok (.act ⟨.ofNat _ pc, .ofNat _ bg, .ofNat _ bk⟩ (.ofNat _ row))
  | [2, pc, bg, bk, rc, ca] =>
    if rc < 32 then .ok (.rd ⟨.ofNat _ pc, .ofNat _ bg, .ofNat _ bk⟩ (.ofNat _ rc) (.ofNat _ ca)) else .error .reserved
  | [3, pc, bg, bk, rc, ca] =>
    if rc < 32 then .ok (.wr ⟨.ofNat _ pc, .ofNat _ bg, .ofNat _ bk⟩ (.ofNat _ rc) (.ofNat _ ca)) else .error .reserved
  | [4, pc, bg, bk, 0, 0] => .ok (.pre ⟨.ofNat _ pc, .ofNat _ bg, .ofNat _ bk⟩)
  | [5, pc, 0, 0, 0, 0] => .ok (.prea (.ofNat _ pc))
  | [6, pc, bg, bk, row, 0] => .ok (.refr ⟨.ofNat _ pc, .ofNat _ bg, .ofNat _ bk⟩ (.ofNat _ row))
  | [7, pc, bg, bk, rc, ca] =>
    match half with
    | some h => decodeNmc pc bg bk rc ca h
    | none => .error .field
  | [cmd, _, _, _, _, _] => if cmd < 8 then .error .reserved else .error (.opcode 8 cmd)
  | _ => .error .reserved

/-- The command of a pump word (R223, R225). -/
def decodePump (w : Nat) (half : Option Nat) : Except DecodeErr Instr :=
  match decodePumpRaw w half with
  | .ok i => if wf i then .ok i else .error .field
  | .error e => .error e

/-- A command of the host from the operand words 1 to 5 of its entry (R415), before its value checks. -/
def decodeCommandRaw (opc : Nat) (ws : List Nat) : Except DecodeErr Instr :=
  match opc, ws with
  | 0x01, [a, v, m, 0, 0] =>
    match splitF [45, 3, 16] a with
    | [0, w, q] => .ok (.qset (.ofNat _ q) (.ofNat _ w) (.ofNat _ v) (.ofNat _ m))
    | _ => .error .reserved
  | 0x02, [a, v, 0, 0, 0] =>
    match splitF [48, 16] a with
    | [0, c] => .ok (.ctxset (.ofNat _ c) (.ofNat _ v))
    | _ => .error .reserved
  | 0x03, [a, v, n, 0, 0] =>
    match splitF [40, 8, 16] a with
    | [0, d, r] => .ok (.region (.ofNat _ r) (.ofNat _ d) (.ofNat _ v) (.ofNat _ n))
    | _ => .error .reserved
  | 0x04, [16, c, l, d, t] =>
    match splitF [63, 1] t with
    | [0, b] => .ok (.tierMigration (.ofNat _ c) (.ofNat _ l) (.ofNat _ d) (b == 1))
    | _ => .error .reserved
  | 0x04, [s, v, 0, 0, 0] => .ok (.tier (.ofNat _ s) (.ofNat _ v))
  | 0x05, [a, v, 0, 0, 0] =>
    match splitF [48, 16] a with
    | [0, q] => .ok (.recover (.ofNat _ q) (.ofNat _ v))
    | _ => .error .reserved
  | 0x06, [a, n, 0, 0, 0] => .ok (.faults (.ofNat _ a) (.ofNat _ n))
  | 0x07, [a, 0, 0, 0, 0] => .ok (.resync (.ofNat _ a))
  | 0x08, [a, 0, 0, 0, 0] =>
    match splitF [45, 7, 3, 1, 5, 3] a with
    | [0, bk, by_, 1, 0, d] => .ok (.retireBank (.ofNat _ d) (.ofNat _ by_) (.ofNat _ bk))
    | [0, 0, 0, 0, 0, d] => .ok (.retireDie (.ofNat _ d))
    | _ => .error .reserved
  | 0x09, [a, n, 0, 0, 0] => .ok (.fwload (.ofNat _ a) (.ofNat _ n))
  | 0x0A, [n0, n1, n2, n3, a] => .ok (.attest (.ofNat _ n0) (.ofNat _ n1) (.ofNat _ n2) (.ofNat _ n3) (.ofNat _ a))
  | 0x0B, [a, 0, 0, 0, 0] =>
    match splitF [55, 1, 3, 5] a with
    | [0, 1, 0, p] => .ok (.domainJoin (.ofNat _ p))
    | [0, 0, 0, p] => .ok (.domainLeave (.ofNat _ p))
    | _ => .error .reserved
  | 0x0C, [a, 0, 0, 0, 0] => .ok (.pcap (.ofNat _ a))
  | _, _ => if 1 ≤ opc ∧ opc ≤ 12 then .error .reserved else .error (.opcode 9 opc)

/-- A command of the host from the words of its 64-byte entry (R414): OPC and TAG in word 0, operands in words 1 to 5. -/
def decodeCommand (ws : List Nat) : Except DecodeErr Instr :=
  match splitF [32, 16, 8, 8] (ws.headD 0) with
  | [0, _, 0, opc] =>
    match decodeCommandRaw opc (ws.tail.take 5) with
    | .ok i => if wf i then .ok i else .error .field
    | .error e => .error e
  | _ => .error .reserved

/-! ### The encoder -/

/-- A slot word's CLASS, OPC and BAYS, and its operand fields from bit 39 down. -/
structure Enc where
  cls : Nat
  opc : Nat
  bays : Nat
  ws : List Nat
  vs : List Nat
  deriving DecidableEq, Repr

/-- The parts of the slot word of an instruction; none for a step that is no slot instruction. `NOP` is the all-zero
word (R57). -/
def encFields : Instr → Option Enc
  | .br tgt => some ⟨0, 0x1, 0, [8, 32], [tgt.toNat, 0]⟩
  | .brv tgt bset m e neg => some ⟨0, 0x2, 0, [8, 8, 3, 3, 1, 17], [tgt.toNat, bset.toNat, m.toNat, e.toNat, b2n neg,
      0]⟩
  | .jnext => some ⟨0, 0x3, 0, [40], [0]⟩
  | .jseg a tgt => some ⟨0, 0x4, 0, [6, 8, 26], [a.toNat, tgt.toNat, 0]⟩
  | .loop lvl a end_ hops maxt => some ⟨0, 0x5, 0, [3, 6, 8, 2, 21], [lvl.toNat, a.toNat, end_.toNat, hops.toNat,
      maxt.toNat]⟩
  | .lbrk lvl => some ⟨0, 0x6, 0, [3, 37], [lvl.toNat, 0]⟩
  | .lcont lvl => some ⟨0, 0x7, 0, [3, 37], [lvl.toNat, 0]⟩
  | .exit code => some ⟨0, 0x8, 0, [24, 16], [0, code.toNat]⟩
  | .tret skip nodbrk => some ⟨0, 0x9, 0, [1, 1, 38], [b2n skip, b2n nodbrk, 0]⟩
  | .add d a b => some ⟨1, 0x0, 0, [6, 6, 6, 22], [d.toNat, a.toNat, b.toNat, 0]⟩
  | .sub d a b => some ⟨1, 0x1, 0, [6, 6, 6, 22], [d.toNat, a.toNat, b.toNat, 0]⟩
  | .and d a b => some ⟨1, 0x2, 0, [6, 6, 6, 22], [d.toNat, a.toNat, b.toNat, 0]⟩
  | .or d a b => some ⟨1, 0x3, 0, [6, 6, 6, 22], [d.toNat, a.toNat, b.toNat, 0]⟩
  | .xor d a b => some ⟨1, 0x4, 0, [6, 6, 6, 22], [d.toNat, a.toNat, b.toNat, 0]⟩
  | .andn d a b => some ⟨1, 0x5, 0, [6, 6, 6, 22], [d.toNat, a.toNat, b.toNat, 0]⟩
  | .shl d a b => some ⟨1, 0x6, 0, [6, 6, 6, 22], [d.toNat, a.toNat, b.toNat, 0]⟩
  | .shr d a b => some ⟨1, 0x7, 0, [6, 6, 6, 22], [d.toNat, a.toNat, b.toNat, 0]⟩
  | .sar d a b => some ⟨1, 0x8, 0, [6, 6, 6, 22], [d.toNat, a.toNat, b.toNat, 0]⟩
  | .min d a b => some ⟨1, 0x9, 0, [6, 6, 6, 22], [d.toNat, a.toNat, b.toNat, 0]⟩
  | .max d a b => some ⟨1, 0xa, 0, [6, 6, 6, 22], [d.toNat, a.toNat, b.toNat, 0]⟩
  | .minu d a b => some ⟨1, 0xb, 0, [6, 6, 6, 22], [d.toNat, a.toNat, b.toNat, 0]⟩
  | .maxu d a b => some ⟨1, 0xc, 0, [6, 6, 6, 22], [d.toNat, a.toNat, b.toNat, 0]⟩
  | .clz d a => some ⟨1, 0xd, 0, [6, 6, 28], [d.toNat, a.toNat, 0]⟩
  | .popc d a => some ⟨1, 0xe, 0, [6, 6, 28], [d.toNat, a.toNat, 0]⟩
  | .sel d a b p => some ⟨1, 0xf, 0, [6, 6, 6, 4, 18], [d.toNat, a.toNat, b.toNat, p.toNat, 0]⟩
  | .addi d a imm => some ⟨1, 0x10, 0, [6, 6, 28], [d.toNat, a.toNat, imm.toNat]⟩
  | .andi d a imm => some ⟨1, 0x11, 0, [6, 6, 28], [d.toNat, a.toNat, imm.toNat]⟩
  | .ori d a imm => some ⟨1, 0x12, 0, [6, 6, 28], [d.toNat, a.toNat, imm.toNat]⟩
  | .xori d a imm => some ⟨1, 0x13, 0, [6, 6, 28], [d.toNat, a.toNat, imm.toNat]⟩
  | .shli d a imm => some ⟨1, 0x14, 0, [6, 6, 22, 6], [d.toNat, a.toNat, 0, imm.toNat]⟩
  | .shri d a imm => some ⟨1, 0x15, 0, [6, 6, 22, 6], [d.toNat, a.toNat, 0, imm.toNat]⟩
  | .sari d a imm => some ⟨1, 0x16, 0, [6, 6, 22, 6], [d.toNat, a.toNat, 0, imm.toNat]⟩
  | .movi d imm => some ⟨1, 0x17, 0, [6, 6, 28], [d.toNat, 0, imm.toNat]⟩
  | .movhi d a q imm => some ⟨1, 0x18, 0, [6, 6, 10, 2, 16], [d.toNat, a.toNat, 0, q.toNat, imm.toNat]⟩
  | .mul d a b => some ⟨1, 0x20, 0, [6, 6, 6, 22], [d.toNat, a.toNat, b.toNat, 0]⟩
  | .mulh d a b => some ⟨1, 0x21, 0, [6, 6, 6, 22], [d.toNat, a.toNat, b.toNat, 0]⟩
  | .mulhu d a b => some ⟨1, 0x22, 0, [6, 6, 6, 22], [d.toNat, a.toNat, b.toNat, 0]⟩
  | .cmpEq pd a b pn => some ⟨1, 0x30, 0, [2, 4, 6, 6, 4, 18], [0, pd.toNat, a.toNat, b.toNat, pn.toNat, 0]⟩
  | .cmpNe pd a b pn => some ⟨1, 0x31, 0, [2, 4, 6, 6, 4, 18], [0, pd.toNat, a.toNat, b.toNat, pn.toNat, 0]⟩
  | .cmpLt pd a b pn => some ⟨1, 0x32, 0, [2, 4, 6, 6, 4, 18], [0, pd.toNat, a.toNat, b.toNat, pn.toNat, 0]⟩
  | .cmpLtu pd a b pn => some ⟨1, 0x33, 0, [2, 4, 6, 6, 4, 18], [0, pd.toNat, a.toNat, b.toNat, pn.toNat, 0]⟩
  | .cmpLe pd a b pn => some ⟨1, 0x34, 0, [2, 4, 6, 6, 4, 18], [0, pd.toNat, a.toNat, b.toNat, pn.toNat, 0]⟩
  | .cmpLeu pd a b pn => some ⟨1, 0x35, 0, [2, 4, 6, 6, 4, 18], [0, pd.toNat, a.toNat, b.toNat, pn.toNat, 0]⟩
  | .cmpiEq pd a pn imm => some ⟨1, 0x36, 0, [2, 4, 6, 4, 24], [0, pd.toNat, a.toNat, pn.toNat, imm.toNat]⟩
  | .cmpiLt pd a pn imm => some ⟨1, 0x37, 0, [2, 4, 6, 4, 24], [0, pd.toNat, a.toNat, pn.toNat, imm.toNat]⟩
  | .pand o => some ⟨1, 0x40, 0, [4, 4, 1, 4, 1, 26], [o.pd.toNat, o.pa.toNat, b2n o.na, o.pb.toNat, b2n o.nb, 0]⟩
  | .por o => some ⟨1, 0x41, 0, [4, 4, 1, 4, 1, 26], [o.pd.toNat, o.pa.toNat, b2n o.na, o.pb.toNat, b2n o.nb, 0]⟩
  | .pxor o => some ⟨1, 0x42, 0, [4, 4, 1, 4, 1, 26], [o.pd.toNat, o.pa.toNat, b2n o.na, o.pb.toNat, b2n o.nb, 0]⟩
  | .pandn o => some ⟨1, 0x43, 0, [4, 4, 1, 4, 1, 26], [o.pd.toNat, o.pa.toNat, b2n o.na, o.pb.toNat, b2n o.nb, 0]⟩
  | .pmovsToScalar d => some ⟨1, 0x44, 0, [6, 8, 1, 25], [d.toNat, 0, 0, 0]⟩
  | .pmovsFromScalar a => some ⟨1, 0x44, 0, [6, 8, 1, 25], [a.toNat, 0, 1, 0]⟩
  | .fadd o => some ⟨1, 0x50, 0, [6, 6, 6, 6, 1, 3, 1, 3, 4, 4], [o.d.toNat, o.a.toNat, o.b.toNat, o.c.toNat, b2n
      o.prec, o.rnd.toNat, b2n o.sat, o.cond.toNat, o.tf.toNat, o.sf.toNat]⟩
  | .fsub o => some ⟨1, 0x51, 0, [6, 6, 6, 6, 1, 3, 1, 3, 4, 4], [o.d.toNat, o.a.toNat, o.b.toNat, o.c.toNat, b2n
      o.prec, o.rnd.toNat, b2n o.sat, o.cond.toNat, o.tf.toNat, o.sf.toNat]⟩
  | .fmul o => some ⟨1, 0x52, 0, [6, 6, 6, 6, 1, 3, 1, 3, 4, 4], [o.d.toNat, o.a.toNat, o.b.toNat, o.c.toNat, b2n
      o.prec, o.rnd.toNat, b2n o.sat, o.cond.toNat, o.tf.toNat, o.sf.toNat]⟩
  | .ffma o => some ⟨1, 0x53, 0, [6, 6, 6, 6, 1, 3, 1, 3, 4, 4], [o.d.toNat, o.a.toNat, o.b.toNat, o.c.toNat, b2n
      o.prec, o.rnd.toNat, b2n o.sat, o.cond.toNat, o.tf.toNat, o.sf.toNat]⟩
  | .fmin o => some ⟨1, 0x54, 0, [6, 6, 6, 6, 1, 3, 1, 3, 4, 4], [o.d.toNat, o.a.toNat, o.b.toNat, o.c.toNat, b2n
      o.prec, o.rnd.toNat, b2n o.sat, o.cond.toNat, o.tf.toNat, o.sf.toNat]⟩
  | .fmax o => some ⟨1, 0x55, 0, [6, 6, 6, 6, 1, 3, 1, 3, 4, 4], [o.d.toNat, o.a.toNat, o.b.toNat, o.c.toNat, b2n
      o.prec, o.rnd.toNat, b2n o.sat, o.cond.toNat, o.tf.toNat, o.sf.toNat]⟩
  | .fcmp o => some ⟨1, 0x56, 0, [6, 6, 6, 6, 1, 3, 1, 3, 4, 4], [o.d.toNat, o.a.toNat, o.b.toNat, o.c.toNat, b2n
      o.prec, o.rnd.toNat, b2n o.sat, o.cond.toNat, o.tf.toNat, o.sf.toNat]⟩
  | .fcvt o => some ⟨1, 0x57, 0, [6, 6, 6, 6, 1, 3, 1, 3, 4, 4], [o.d.toNat, o.a.toNat, o.b.toNat, o.c.toNat, b2n
      o.prec, o.rnd.toNat, b2n o.sat, o.cond.toNat, o.tf.toNat, o.sf.toNat]⟩
  | .ld o => some ⟨1, 0x60, 0, [6, 6, 2, 1, 1, 24], [o.d.toNat, o.a.toNat, o.size.toNat, b2n o.u, 0, o.off.toNat]⟩
  | .st o => some ⟨1, 0x61, 0, [6, 6, 2, 1, 1, 24], [o.d.toNat, o.a.toNat, o.size.toNat, b2n o.u, 0, o.off.toNat]⟩
  | .lds o => some ⟨1, 0x62, 0, [6, 6, 2, 1, 1, 24], [o.d.toNat, o.a.toNat, o.size.toNat, b2n o.u, 0, o.off.toNat]⟩
  | .chk o => some ⟨1, 0x63, 0, [6, 6, 2, 1, 1, 24], [o.d.toNat, o.a.toNat, o.size.toNat, b2n o.u, 0, o.off.toNat]⟩
  | .mark => some ⟨1, 0x64, 0, [40], [0]⟩
  | .signal v a off => some ⟨1, 0x65, 0, [6, 6, 2, 2, 24], [v.toNat, a.toNat, 3, 0, off.toNat]⟩
  | .hld h a off => some ⟨1, 0x70, 0, [4, 2, 6, 4, 24], [h.toNat, 0, a.toNat, 0, off.toNat]⟩
  | .hst h a off => some ⟨1, 0x71, 0, [4, 2, 6, 4, 24], [h.toNat, 0, a.toNat, 0, off.toNat]⟩
  | .hset hd ha b field => some ⟨1, 0x72, 0, [4, 4, 6, 5, 21], [hd.toNat, ha.toNat, b.toNat, field.toNat, 0]⟩
  | .hget d ha field => some ⟨1, 0x73, 0, [6, 4, 5, 25], [d.toNat, ha.toNat, field.toNat, 0]⟩
  | .hmov hd ha => some ⟨1, 0x74, 0, [4, 4, 32], [hd.toNat, ha.toNat, 0]⟩
  | .vadd bays o => some ⟨2, 0x0, bays.toNat, [8, 8, 8, 8, 3, 2, 3], [o.d.toNat, o.a.toNat, o.b.toNat, o.c.toNat,
      o.rnd.toNat, o.vt.toNat, o.msel.toNat]⟩
  | .vsub bays o => some ⟨2, 0x1, bays.toNat, [8, 8, 8, 8, 3, 2, 3], [o.d.toNat, o.a.toNat, o.b.toNat, o.c.toNat,
      o.rnd.toNat, o.vt.toNat, o.msel.toNat]⟩
  | .vmin bays o => some ⟨2, 0x2, bays.toNat, [8, 8, 8, 8, 3, 2, 3], [o.d.toNat, o.a.toNat, o.b.toNat, o.c.toNat,
      o.rnd.toNat, o.vt.toNat, o.msel.toNat]⟩
  | .vmax bays o => some ⟨2, 0x3, bays.toNat, [8, 8, 8, 8, 3, 2, 3], [o.d.toNat, o.a.toNat, o.b.toNat, o.c.toNat,
      o.rnd.toNat, o.vt.toNat, o.msel.toNat]⟩
  | .vabs bays o => some ⟨2, 0x4, bays.toNat, [8, 8, 8, 8, 3, 2, 3], [o.d.toNat, o.a.toNat, o.b.toNat, o.c.toNat,
      o.rnd.toNat, o.vt.toNat, o.msel.toNat]⟩
  | .vneg bays o => some ⟨2, 0x5, bays.toNat, [8, 8, 8, 8, 3, 2, 3], [o.d.toNat, o.a.toNat, o.b.toNat, o.c.toNat,
      o.rnd.toNat, o.vt.toNat, o.msel.toNat]⟩
  | .vand bays o => some ⟨2, 0x6, bays.toNat, [8, 8, 8, 8, 3, 2, 3], [o.d.toNat, o.a.toNat, o.b.toNat, o.c.toNat,
      o.rnd.toNat, o.vt.toNat, o.msel.toNat]⟩
  | .vor bays o => some ⟨2, 0x7, bays.toNat, [8, 8, 8, 8, 3, 2, 3], [o.d.toNat, o.a.toNat, o.b.toNat, o.c.toNat,
      o.rnd.toNat, o.vt.toNat, o.msel.toNat]⟩
  | .vxor bays o => some ⟨2, 0x8, bays.toNat, [8, 8, 8, 8, 3, 2, 3], [o.d.toNat, o.a.toNat, o.b.toNat, o.c.toNat,
      o.rnd.toNat, o.vt.toNat, o.msel.toNat]⟩
  | .vandn bays o => some ⟨2, 0x9, bays.toNat, [8, 8, 8, 8, 3, 2, 3], [o.d.toNat, o.a.toNat, o.b.toNat, o.c.toNat,
      o.rnd.toNat, o.vt.toNat, o.msel.toNat]⟩
  | .vshl bays o => some ⟨2, 0xa, bays.toNat, [8, 8, 8, 8, 3, 2, 3], [o.d.toNat, o.a.toNat, o.b.toNat, o.c.toNat,
      o.rnd.toNat, o.vt.toNat, o.msel.toNat]⟩
  | .vshr bays o => some ⟨2, 0xb, bays.toNat, [8, 8, 8, 8, 3, 2, 3], [o.d.toNat, o.a.toNat, o.b.toNat, o.c.toNat,
      o.rnd.toNat, o.vt.toNat, o.msel.toNat]⟩
  | .vsar bays o => some ⟨2, 0xc, bays.toNat, [8, 8, 8, 8, 3, 2, 3], [o.d.toNat, o.a.toNat, o.b.toNat, o.c.toNat,
      o.rnd.toNat, o.vt.toNat, o.msel.toNat]⟩
  | .vmov bays o => some ⟨2, 0xd, bays.toNat, [8, 8, 8, 8, 3, 2, 3], [o.d.toNat, o.a.toNat, o.b.toNat, o.c.toNat,
      o.rnd.toNat, o.vt.toNat, o.msel.toNat]⟩
  | .vsel bays o => some ⟨2, 0xe, bays.toNat, [8, 8, 8, 8, 3, 2, 3], [o.d.toNat, o.a.toNat, o.b.toNat, o.c.toNat,
      o.rnd.toNat, o.vt.toNat, o.msel.toNat]⟩
  | .vcmpEq bays o => some ⟨2, 0x10, bays.toNat, [8, 8, 8, 8, 3, 2, 3], [o.d.toNat, o.a.toNat, o.b.toNat, o.c.toNat,
      o.rnd.toNat, o.vt.toNat, o.msel.toNat]⟩
  | .vcmpNe bays o => some ⟨2, 0x11, bays.toNat, [8, 8, 8, 8, 3, 2, 3], [o.d.toNat, o.a.toNat, o.b.toNat, o.c.toNat,
      o.rnd.toNat, o.vt.toNat, o.msel.toNat]⟩
  | .vcmpLt bays o => some ⟨2, 0x12, bays.toNat, [8, 8, 8, 8, 3, 2, 3], [o.d.toNat, o.a.toNat, o.b.toNat, o.c.toNat,
      o.rnd.toNat, o.vt.toNat, o.msel.toNat]⟩
  | .vcmpLe bays o => some ⟨2, 0x13, bays.toNat, [8, 8, 8, 8, 3, 2, 3], [o.d.toNat, o.a.toNat, o.b.toNat, o.c.toNat,
      o.rnd.toNat, o.vt.toNat, o.msel.toNat]⟩
  | .vcmpUn bays o => some ⟨2, 0x14, bays.toNat, [8, 8, 8, 8, 3, 2, 3], [o.d.toNat, o.a.toNat, o.b.toNat, o.c.toNat,
      o.rnd.toNat, o.vt.toNat, o.msel.toNat]⟩
  | .vmand bays d a b => some ⟨2, 0x18, bays.toNat, [5, 3, 5, 3, 5, 3, 16], [0, d.toNat, 0, a.toNat, 0, b.toNat, 0]⟩
  | .vmor bays d a b => some ⟨2, 0x19, bays.toNat, [5, 3, 5, 3, 5, 3, 16], [0, d.toNat, 0, a.toNat, 0, b.toNat, 0]⟩
  | .vmxor bays d a b => some ⟨2, 0x1a, bays.toNat, [5, 3, 5, 3, 5, 3, 16], [0, d.toNat, 0, a.toNat, 0, b.toNat, 0]⟩
  | .vmandn bays d a b => some ⟨2, 0x1b, bays.toNat, [5, 3, 5, 3, 5, 3, 16], [0, d.toNat, 0, a.toNat, 0, b.toNat, 0]⟩
  | .vmset bays d n => some ⟨2, 0x1c, bays.toNat, [5, 3, 8, 8, 16], [0, d.toNat, 0, n.toNat, 0]⟩
  | .vmul bays o => some ⟨2, 0x40, bays.toNat, [8, 8, 8, 8, 3, 2, 3], [o.d.toNat, o.a.toNat, o.b.toNat, o.c.toNat,
      o.rnd.toNat, o.vt.toNat, o.msel.toNat]⟩
  | .vfma bays o => some ⟨2, 0x41, bays.toNat, [8, 8, 8, 8, 3, 2, 3], [o.d.toNat, o.a.toNat, o.b.toNat, o.c.toNat,
      o.rnd.toNat, o.vt.toNat, o.msel.toNat]⟩
  | .vfms bays o => some ⟨2, 0x42, bays.toNat, [8, 8, 8, 8, 3, 2, 3], [o.d.toNat, o.a.toNat, o.b.toNat, o.c.toNat,
      o.rnd.toNat, o.vt.toNat, o.msel.toNat]⟩
  | .vfnma bays o => some ⟨2, 0x43, bays.toNat, [8, 8, 8, 8, 3, 2, 3], [o.d.toNat, o.a.toNat, o.b.toNat, o.c.toNat,
      o.rnd.toNat, o.vt.toNat, o.msel.toNat]⟩
  | .vexp2 bays o => some ⟨2, 0x60, bays.toNat, [8, 8, 8, 8, 3, 2, 3], [o.d.toNat, o.a.toNat, o.b.toNat, o.c.toNat,
      o.rnd.toNat, o.vt.toNat, o.msel.toNat]⟩
  | .vlog2 bays o => some ⟨2, 0x61, bays.toNat, [8, 8, 8, 8, 3, 2, 3], [o.d.toNat, o.a.toNat, o.b.toNat, o.c.toNat,
      o.rnd.toNat, o.vt.toNat, o.msel.toNat]⟩
  | .vrcp bays o => some ⟨2, 0x62, bays.toNat, [8, 8, 8, 8, 3, 2, 3], [o.d.toNat, o.a.toNat, o.b.toNat, o.c.toNat,
      o.rnd.toNat, o.vt.toNat, o.msel.toNat]⟩
  | .vrsqrt bays o => some ⟨2, 0x63, bays.toNat, [8, 8, 8, 8, 3, 2, 3], [o.d.toNat, o.a.toNat, o.b.toNat, o.c.toNat,
      o.rnd.toNat, o.vt.toNat, o.msel.toNat]⟩
  | .vsqrt bays o => some ⟨2, 0x64, bays.toNat, [8, 8, 8, 8, 3, 2, 3], [o.d.toNat, o.a.toNat, o.b.toNat, o.c.toNat,
      o.rnd.toNat, o.vt.toNat, o.msel.toNat]⟩
  | .vtanh bays o => some ⟨2, 0x65, bays.toNat, [8, 8, 8, 8, 3, 2, 3], [o.d.toNat, o.a.toNat, o.b.toNat, o.c.toNat,
      o.rnd.toNat, o.vt.toNat, o.msel.toNat]⟩
  | .vsigm bays o => some ⟨2, 0x66, bays.toNat, [8, 8, 8, 8, 3, 2, 3], [o.d.toNat, o.a.toNat, o.b.toNat, o.c.toNat,
      o.rnd.toNat, o.vt.toNat, o.msel.toNat]⟩
  | .vcvt bays o => some ⟨2, 0x80, bays.toNat, [8, 8, 8, 4, 4, 3, 1, 1, 3], [o.d.toNat, o.a.toNat, o.b.toNat,
      o.tf.toNat, o.sf.toNat, o.rnd.toNat, b2n o.sat, 0, o.msel.toNat]⟩
  | .vrint bays o => some ⟨2, 0x81, bays.toNat, [8, 8, 8, 4, 4, 3, 1, 1, 3], [o.d.toNat, o.a.toNat, o.b.toNat,
      o.tf.toNat, o.sf.toNat, o.rnd.toNat, b2n o.sat, 0, o.msel.toNat]⟩
  | .vpack bays o => some ⟨2, 0x82, bays.toNat, [8, 8, 8, 4, 4, 3, 1, 1, 3], [o.d.toNat, o.a.toNat, o.b.toNat,
      o.tf.toNat, o.sf.toNat, o.rnd.toNat, b2n o.sat, 0, o.msel.toNat]⟩
  | .vunpk bays o => some ⟨2, 0x83, bays.toNat, [8, 8, 8, 4, 4, 3, 1, 1, 3], [o.d.toNat, o.a.toNat, o.b.toNat,
      o.tf.toNat, o.sf.toNat, o.rnd.toNat, b2n o.sat, 0, o.msel.toNat]⟩
  | .scanPsum bays o => some ⟨3, 0x0, bays.toNat, [8, 8, 8, 4, 3, 1, 3, 1, 4], [o.d.toNat, o.a.toNat, o.b.toNat,
      o.fmt.toNat, o.lw.toNat, b2n o.carry, o.rnd.toNat, b2n o.sat, o.k.toNat]⟩
  | .scanPmax bays o => some ⟨3, 0x1, bays.toNat, [8, 8, 8, 4, 3, 1, 3, 1, 4], [o.d.toNat, o.a.toNat, o.b.toNat,
      o.fmt.toNat, o.lw.toNat, b2n o.carry, o.rnd.toNat, b2n o.sat, o.k.toNat]⟩
  | .scanPmin bays o => some ⟨3, 0x2, bays.toNat, [8, 8, 8, 4, 3, 1, 3, 1, 4], [o.d.toNat, o.a.toNat, o.b.toNat,
      o.fmt.toNat, o.lw.toNat, b2n o.carry, o.rnd.toNat, b2n o.sat, o.k.toNat]⟩
  | .scanSpsum bays o => some ⟨3, 0x3, bays.toNat, [8, 8, 8, 4, 3, 1, 3, 1, 4], [o.d.toNat, o.a.toNat, o.b.toNat,
      o.fmt.toNat, o.lw.toNat, b2n o.carry, o.rnd.toNat, b2n o.sat, o.k.toNat]⟩
  | .scanRsum bays o => some ⟨3, 0x4, bays.toNat, [8, 8, 8, 4, 3, 1, 3, 1, 4], [o.d.toNat, o.a.toNat, o.b.toNat,
      o.fmt.toNat, o.lw.toNat, b2n o.carry, o.rnd.toNat, b2n o.sat, o.k.toNat]⟩
  | .scanRmax bays o => some ⟨3, 0x5, bays.toNat, [8, 8, 8, 4, 3, 1, 3, 1, 4], [o.d.toNat, o.a.toNat, o.b.toNat,
      o.fmt.toNat, o.lw.toNat, b2n o.carry, o.rnd.toNat, b2n o.sat, o.k.toNat]⟩
  | .scanRmin bays o => some ⟨3, 0x6, bays.toNat, [8, 8, 8, 4, 3, 1, 3, 1, 4], [o.d.toNat, o.a.toNat, o.b.toNat,
      o.fmt.toNat, o.lw.toNat, b2n o.carry, o.rnd.toNat, b2n o.sat, o.k.toNat]⟩
  | .scanAmax bays o => some ⟨3, 0x7, bays.toNat, [8, 8, 8, 4, 3, 1, 3, 1, 4], [o.d.toNat, o.a.toNat, o.b.toNat,
      o.fmt.toNat, o.lw.toNat, b2n o.carry, o.rnd.toNat, b2n o.sat, o.k.toNat]⟩
  | .scanCmpct bays o => some ⟨3, 0x8, bays.toNat, [8, 8, 8, 4, 3, 1, 3, 1, 4], [o.d.toNat, o.a.toNat, o.b.toNat,
      o.fmt.toNat, o.lw.toNat, b2n o.carry, o.rnd.toNat, b2n o.sat, o.k.toNat]⟩
  | .scanArgmax bays o => some ⟨3, 0x9, bays.toNat, [8, 8, 8, 4, 3, 1, 3, 1, 4], [o.d.toNat, o.a.toNat, o.b.toNat,
      o.fmt.toNat, o.lw.toNat, b2n o.carry, o.rnd.toNat, b2n o.sat, o.k.toNat]⟩
  | .scanTopk bays o => some ⟨3, 0xa, bays.toNat, [8, 8, 8, 4, 3, 1, 3, 1, 4], [o.d.toNat, o.a.toNat, o.b.toNat,
      o.fmt.toNat, o.lw.toNat, b2n o.carry, o.rnd.toNat, b2n o.sat, o.k.toNat]⟩
  | .scanRank bays o => some ⟨3, 0xb, bays.toNat, [8, 8, 8, 4, 3, 1, 3, 1, 4], [o.d.toNat, o.a.toNat, o.b.toNat,
      o.fmt.toNat, o.lw.toNat, b2n o.carry, o.rnd.toNat, b2n o.sat, o.k.toNat]⟩
  | .mxPush bays la lb qa qb => some ⟨4, 0x0, bays.toNat, [1, 1, 5, 5, 28], [b2n la, b2n lb, qa.toNat, qb.toNat, 0]⟩
  | .mxAcc bays sa sb qa qb tsel => some ⟨4, 0x1, bays.toNat, [1, 1, 5, 5, 2, 26], [b2n sa, b2n sb, qa.toNat,
      qb.toNat, tsel.toNat, 0]⟩
  | .mxShift bays sh sb qb tsel => some ⟨4, 0x2, bays.toNat, [8, 1, 5, 2, 24], [sh.toNat, b2n sb, qb.toNat,
      tsel.toNat, 0]⟩
  | .mxHold bays n => some ⟨4, 0x3, bays.toNat, [6, 34], [n.toNat, 0]⟩
  | .mxDrain bays qd bank clr auto s row => some ⟨4, 0x8, bays.toNat, [5, 1, 1, 1, 6, 8, 18], [qd.toNat, b2n bank, b2n
      clr, b2n auto, s.toNat, row.toNat, 0]⟩
  | .mxZero bays za zb zp => some ⟨4, 0x9, bays.toNat, [1, 1, 1, 37], [b2n za, b2n zb, b2n zp, 0]⟩
  | .mxMode bays fa fb => some ⟨4, 0xa, bays.toNat, [4, 4, 32], [fa.toNat, fb.toNat, 0]⟩
  | .mxScale bays qsa qsb => some ⟨4, 0xb, bays.toNat, [5, 5, 30], [qsa.toNat, qsb.toNat, 0]⟩
  | .mxSnap bays fromB => some ⟨4, 0xc, bays.toNat, [1, 39], [b2n fromB, 0]⟩
  | .mxSwap bays => some ⟨4, 0xd, bays.toNat, [40], [0]⟩
  | .qBind bays q port h a depth wrap feed => some ⟨5, 0x0, bays.toNat, [5, 4, 4, 6, 3, 1, 1, 16], [q.toNat,
      port.toNat, h.toNat, a.toNat, depth.toNat, b2n wrap, b2n feed, 0]⟩
  | .qUnbind bays q => some ⟨5, 0x1, bays.toNat, [5, 35], [q.toNat, 0]⟩
  | .qSkip bays q n => some ⟨5, 0x2, bays.toNat, [5, 8, 27], [q.toNat, n.toNat, 0]⟩
  | .qRmask bays q d => some ⟨5, 0x3, bays.toNat, [5, 3, 32], [q.toNat, d.toNat, 0]⟩
  | .qXfer bays qd qs rot => some ⟨5, 0x4, bays.toNat, [5, 5, 3, 27], [qd.toNat, qs.toNat, rot.toNat, 0]⟩
  | .qXferLand bays qs => some ⟨5, 0x4, bays.toNat, [5, 5, 3, 27], [0, qs.toNat, 0, 0]⟩
  | .qDrain bays q => some ⟨5, 0x5, bays.toNat, [5, 35], [q.toNat, 0]⟩
  | .stnLd bays dir slot a => some ⟨5, 0x10, bays.toNat, [1, 7, 6, 26], [b2n dir, slot.toNat, a.toNat, 0]⟩
  | .stnCut bay dir slot a c pass strict => some ⟨5, 0x11, 2 ^ bay.toNat, [1, 7, 6, 6, 4, 1, 15], [b2n dir,
      slot.toNat, a.toNat, c.toNat, pass.toNat, b2n strict, 0]⟩
  | .stnWait bay d => some ⟨5, 0x12, 2 ^ bay.toNat, [6, 34], [d.toNat, 0]⟩
  | .stnPasses bay d => some ⟨5, 0x13, 2 ^ bay.toNat, [6, 34], [d.toNat, 0]⟩
  | .probe bay pd d a v => some ⟨5, 0x20, 2 ^ bay.toNat, [4, 6, 6, 6, 18], [pd.toNat, d.toNat, a.toNat, v.toNat, 0]⟩
  | .probeInv bay a => some ⟨5, 0x21, 2 ^ bay.toNat, [6, 34], [a.toNat, 0]⟩
  | .probeTag bay a => some ⟨5, 0x22, 2 ^ bay.toNat, [6, 34], [a.toNat, 0]⟩
  | .copy bay b a n c v => some ⟨5, 0x30, 2 ^ bay.toNat, [6, 6, 6, 6, 6, 10], [b.toNat, a.toNat, n.toNat, c.toNat,
      v.toNat, 0]⟩
  | .copySt bay b a n c v => some ⟨5, 0x31, 2 ^ bay.toNat, [6, 6, 6, 6, 6, 10], [b.toNat, a.toNat, n.toNat, c.toNat,
      v.toNat, 0]⟩
  | .pageReq bay h a c v => some ⟨5, 0x32, 2 ^ bay.toNat, [4, 6, 6, 6, 18], [h.toNat, a.toNat, c.toNat, v.toNat, 0]⟩
  | .sumpAdd bays qi qv fmt => some ⟨6, 0x0, bays.toNat, [5, 5, 4, 26], [qi.toNat, qv.toNat, fmt.toNat, 0]⟩
  | .sumpMax bays qi qv fmt => some ⟨6, 0x1, bays.toNat, [5, 5, 4, 26], [qi.toNat, qv.toNat, fmt.toNat, 0]⟩
  | .sumpMin bays qi qv fmt => some ⟨6, 0x2, bays.toNat, [5, 5, 4, 26], [qi.toNat, qv.toNat, fmt.toNat, 0]⟩
  | .sumpCnt bays qi => some ⟨6, 0x3, bays.toNat, [5, 35], [qi.toNat, 0]⟩
  | .sumpSnap a c v => some ⟨6, 0x4, 0xFF, [6, 6, 6, 22], [a.toNat, c.toNat, v.toNat, 0]⟩
  | .sumpRd q row => some ⟨6, 0x5, 0xFF, [5, 4, 31], [q.toNat, row.toNat, 0]⟩
  | .sumpClr => some ⟨6, 0x6, 0xFF, [40], [0]⟩
  | .pumpLd a b => some ⟨6, 0x20, 0xFF, [6, 6, 28], [a.toNat, b.toNat, 0]⟩
  | .pumpGo a => some ⟨6, 0x21, 0xFF, [6, 34], [a.toNat, 0]⟩
  | .pumpIdle a b => some ⟨6, 0x22, 0xFF, [6, 6, 28], [a.toNat, b.toNat, 0]⟩
  | .pumpDead h a => some ⟨6, 0x23, 0xFF, [4, 6, 30], [h.toNat, a.toNat, 0]⟩
  | .pumpStat d => some ⟨6, 0x24, 0xFF, [6, 34], [d.toNat, 0]⟩
  | .pumpActr d a clr => some ⟨6, 0x25, 0xFF, [6, 6, 1, 27], [d.toNat, a.toNat, b2n clr, 0]⟩
  | .nmFence d => some ⟨6, 0x40, 0xFF, [6, 34], [d.toNat, 0]⟩
  | .nmStat d sel => some ⟨6, 0x41, 0xFF, [6, 2, 32], [d.toNat, sel.toNat, 0]⟩
  | .waitA d a v cond => some ⟨7, 0x0, 0, [6, 6, 6, 2, 20], [d.toNat, a.toNat, v.toNat, cond.toNat, 0]⟩
  | .fence ld st eng tl => some ⟨7, 0x1, 0, [1, 1, 1, 1, 36], [b2n ld, b2n st, b2n eng, b2n tl, 0]⟩
  | .fenceRc d => some ⟨7, 0x2, 0, [6, 34], [d.toNat, 0]⟩
  | .publish d a => some ⟨7, 0x3, 0, [6, 6, 28], [d.toNat, a.toNat, 0]⟩
  | .shadow d a n => some ⟨7, 0x4, 0, [6, 6, 6, 22], [d.toNat, a.toNat, n.toNat, 0]⟩
  | .shadowFree a => some ⟨7, 0x5, 0, [6, 34], [a.toNat, 0]⟩
  | .qwait d n => some ⟨7, 0x6, 0, [6, 4, 30], [d.toNat, n.toNat, 0]⟩
  | .bar a => some ⟨7, 0x7, 0, [6, 34], [a.toNat, 0]⟩
  | .realign d => some ⟨7, 0x8, 0, [6, 34], [d.toNat, 0]⟩
  | .rdgtc d => some ⟨7, 0x9, 0, [6, 34], [d.toNat, 0]⟩
  | .goWait d => some ⟨7, 0xa, 0, [6, 34], [d.toNat, 0]⟩
  | .csrr d csr => some ⟨7, 0x10, 0, [6, 6, 12, 16], [d.toNat, 0, csr.toNat, 0]⟩
  | .csrw d a csr => some ⟨7, 0x11, 0, [6, 6, 12, 16], [d.toNat, a.toNat, csr.toNat, 0]⟩
  | .csrs d a csr => some ⟨7, 0x12, 0, [6, 6, 12, 16], [d.toNat, a.toNat, csr.toNat, 0]⟩
  | .csrc d a csr => some ⟨7, 0x13, 0, [6, 6, 12, 16], [d.toNat, a.toNat, csr.toNat, 0]⟩
  | .trap code => some ⟨7, 0x14, 0, [24, 16], [0, code.toNat]⟩
  | .tlbSync a => some ⟨7, 0x15, 0, [6, 34], [a.toNat, 0]⟩
  | .domsw a => some ⟨7, 0x16, 0, [6, 34], [a.toNat, 0]⟩
  | .dbrk code => some ⟨7, 0x17, 0, [24, 16], [0, code.toNat]⟩
  | _ => none

/-- The slot word of an instruction under guard `p[g]`, inverted when `neg` (R55). -/
def encodeGuarded (g : BitVec 4) (neg : Bool) (i : Instr) : Option Nat :=
  match i with
  | .nop => some 0
  | i => (encFields i).map fun e => packF [3, 4, 1, 8, 8, 40] [e.cls, g.toNat, b2n neg, e.bays, e.opc, packF e.ws e.vs]

/-- The slot word of an instruction that always acts (R58). -/
def encodeSlot (i : Instr) : Option Nat := encodeGuarded 0 false i

/-- A pump command word from its fields (R222). -/
def pumpWord (cmd : Nat) (b : BankId) (rc ca : Nat) : Nat :=
  packF [4, 6, 2, 2, 18, 32] [cmd, b.pc.toNat, b.bg.toNat, b.bk.toNat, rc, ca]

/-- The two halves of a near-memory command (R226). -/
def nmcWords (op : Nat) (n : NmcOp) : Nat × Option Nat :=
  (pumpWord 7 n.bank (packF [5, 3, 10] [n.count.toNat, op, n.col.toNat]) n.caddr.toNat,
    some (packF [32, 32] [n.a.toNat, n.b.toNat]))

/-- The command word of a pump command, with the second half of a near-memory command. -/
def encodePump : Instr → Option (Nat × Option Nat)
  | .pumpSkip => some (0, none)
  | .act b r => some (pumpWord 1 b r.toNat 0, none)
  | .rd b c a => some (pumpWord 2 b c.toNat a.toNat, none)
  | .wr b c a => some (pumpWord 3 b c.toNat a.toNat, none)
  | .pre b => some (pumpWord 4 b 0 0, none)
  | .prea pc => some (pumpWord 5 ⟨pc, 0, 0⟩ 0 0, none)
  | .refr b r => some (pumpWord 6 b r.toNat 0, none)
  | .nmcFade n => some (nmcWords 0 n)
  | .nmcAxpy n => some (nmcWords 1 n)
  | .nmcAdd n => some (nmcWords 2 n)
  | .nmcScale n => some (nmcWords 3 n)
  | .nmcFill n => some (nmcWords 4 n)
  | _ => none

/-- The opcode and the operand words 1 to 5 of a command of the host (R415). -/
def encodeCommand : Instr → Option (Nat × List Nat)
  | .qset q w v m => some (1, [packF [45, 3, 16] [0, w.toNat, q.toNat], v.toNat, m.toNat, 0, 0])
  | .ctxset c a => some (2, [c.toNat, a.toNat, 0, 0, 0])
  | .region n d a c => some (3, [packF [40, 8, 16] [0, d.toNat, n.toNat], a.toNat, c.toNat, 0, 0])
  | .tier s v => some (4, [s.toNat, v.toNat, 0, 0, 0])
  | .tierMigration c l d t => some (4, [16, c.toNat, l.toNat, d.toNat, b2n t])
  | .recover q a => some (5, [q.toNat, a.toNat, 0, 0, 0])
  | .faults a n => some (6, [a.toNat, n.toNat, 0, 0, 0])
  | .resync a => some (7, [a.toNat, 0, 0, 0, 0])
  | .retireDie d => some (8, [d.toNat, 0, 0, 0, 0])
  | .retireBank d y b => some (8, [packF [45, 7, 3, 1, 5, 3] [0, b.toNat, y.toNat, 1, 0, d.toNat], 0, 0, 0, 0])
  | .fwload a n => some (9, [a.toNat, n.toNat, 0, 0, 0])
  | .attest n0 n1 n2 n3 a => some (10, [n0.toNat, n1.toNat, n2.toNat, n3.toNat, a.toNat])
  | .domainJoin p => some (11, [256 + p.toNat, 0, 0, 0, 0])
  | .domainLeave p => some (11, [p.toNat, 0, 0, 0, 0])
  | .pcap w => some (12, [w.toNat, 0, 0, 0, 0])
  | _ => none

/-- The words of an instruction: one slot word, a pump word with its near-memory half, the operand words of a command
of the host with its opcode first; no words for a step that is not coded. -/
def encode (i : Instr) : List Nat :=
  match encodeSlot i, encodePump i, encodeCommand i with
  | some w, _, _ => [w]
  | none, some (w, none), _ => [w]
  | none, some (w, some h), _ => [w, h]
  | none, none, some (o, ws) => o :: ws
  | none, none, none => []

/-- The instruction of up to 64 bits read as a slot word, of up to 128 as a near-memory command of two halves, and of
more as a 64-byte entry of the command ring, its words from the least significant. -/
def decodeTableWord (nbits w : Nat) : Option Instr :=
  let r := if nbits ≤ 64 then decodeSlot w
    else if nbits ≤ 128 then decodePump (bitsAt w 0 64) (some (bitsAt w 64 64))
    else decodeCommand ((List.range 8).map fun k => bitsAt w (64 * k) 64)
  match r with
  | .ok i => some i
  | .error _ => none

end Sys2Proof
end

