-- ==== Sys2Proof/Machine/Flags.lean ====
section
/-!
DEFINITION. Number formats and the flags that arithmetic sets: encodings (R29 to R33), rounding (R36, R38), overflow
(R39), conversion (R40, R41), and the operations of R43 on binary floating-point codes. A code is a natural number; an
exact value is a sign, a natural mantissa and an exponent of 2.
-/

namespace Sys2Proof.Machine

/-- The flags of both (R50). -/
def orFlags (a b : Flags) : Flags :=
  ⟨a.iv || b.iv, a.of || b.of, a.uf || b.uf, a.nx || b.nx, a.sa || b.sa⟩

/-- No flag. -/
def noFlags : Flags := {}
/-- Invalid only. -/
def ivFlag : Flags := { iv := true }

/-- The bits of FPSTAT (R50). -/
def flagBits (f : Flags) : Nat := b2n f.iv + 2 * b2n f.of + 4 * b2n f.uf + 8 * b2n f.nx + 16 * b2n f.sa

/-- Rounding modes (R36): RNE, RTZ, RDN, RUP. -/
inductive RMode where
  | rne | rtz | rdn | rup
  deriving DecidableEq, Repr

/-- The mode that a 2-bit code names (R37). -/
def rmodeOf (n : Nat) : RMode :=
  match n % 4 with
  | 0 => .rne
  | 1 => .rtz
  | 2 => .rdn
  | _ => .rup

/-- A binary floating-point format (R30, R31). -/
structure FFmt where
  /-- Exponent bits. -/
  eb : Nat
  /-- Mantissa bits. -/
  mb : Nat
  bias : Nat
  /-- The format has infinities and NaNs of the IEEE form. -/
  ieee : Bool
  /-- Exponent code and mantissa of the largest finite value. -/
  maxE : Nat
  maxM : Nat
  deriving DecidableEq, Repr

def fp64 : FFmt := ⟨11, 52, 1023, true, 2046, 2 ^ 52 - 1⟩
def fp32 : FFmt := ⟨8, 23, 127, true, 254, 2 ^ 23 - 1⟩
def bf16 : FFmt := ⟨8, 7, 127, true, 254, 127⟩
def fp16 : FFmt := ⟨5, 10, 15, true, 30, 1023⟩
def e4m3 : FFmt := ⟨4, 3, 7, false, 15, 6⟩
def e5m2 : FFmt := ⟨5, 2, 15, true, 30, 3⟩
def e2m1 : FFmt := ⟨2, 1, 1, false, 3, 1⟩

/-- The floating format of a format code (R29); 5, 6 and 7 name the element formats of MX tensors. -/
def ffmtOf (c : Nat) : Option FFmt :=
  match c with
  | 0 => some fp32
  | 1 => some bf16
  | 2 => some fp16
  | 3 => some e4m3
  | 4 => some e5m2
  | 5 => some e4m3
  | 6 => some e5m2
  | 7 => some e2m1
  | 11 => some fp64
  | _ => none

/-- The floating format of a VT code other than INT32 (R61). -/
def vtFmt (vt : Nat) : FFmt :=
  match vt with
  | 1 => bf16
  | 2 => fp16
  | _ => fp32

/-- Element bits of a format code (R29). -/
def elemBits (c : Nat) : Nat :=
  match c with
  | 0 => 32
  | 1 => 16
  | 2 => 16
  | 7 => 4
  | 9 => 32
  | 10 => 2
  | 11 => 64
  | _ => 8

/-- E2M1 has no NaN; every other format has one (R31). -/
def hasNan (f : FFmt) : Bool := f.ieee || f.eb == 4

/-- An exact value, an infinity, or a NaN with its code. -/
inductive FV where
  | nan (s : Bool) (code : Nat)
  | inf (s : Bool)
  | fin (s : Bool) (m : Nat) (e : Int)
  deriving DecidableEq, Repr

/-- Exponent of the last place of a subnormal. -/
def emin (f : FFmt) : Int := 1 - (f.bias : Int) - f.mb

/-- The sign bit of a code. -/
def signOf (f : FFmt) (x : Nat) : Bool := bitAt x (f.eb + f.mb)

/-- The value of a code (R30, R31). -/
def unpack (f : FFmt) (x : Nat) : FV :=
  let s := signOf f x
  let e := bitsAt x f.mb f.eb
  let m := bitsAt x 0 f.mb
  if f.ieee && e == 2 ^ f.eb - 1 then (if m == 0 then .inf s else .nan s x)
  else if !f.ieee && hasNan f && e == 15 && m == 7 then .nan s x
  else if e == 0 then .fin s m (emin f)
  else .fin s (2 ^ f.mb + m) ((e : Int) - f.bias - f.mb)

/-- A code from its fields. -/
def packBits (f : FFmt) (s : Bool) (e m : Nat) : Nat := b2n s * 2 ^ (f.eb + f.mb) + e * 2 ^ f.mb + m

/-- The code of infinity in a format of the IEEE form. -/
def infCode (f : FFmt) (s : Bool) : Nat := packBits f s (2 ^ f.eb - 1) 0

/-- The default NaN of R31. -/
def defaultNan (f : FFmt) : Nat :=
  if f.ieee then packBits f false (2 ^ f.eb - 1) (2 ^ (f.mb - 1)) else 0x7F

/-- A NaN code is signalling when its quiet bit is 0; the E4M3 NaN is quiet (R31). -/
def isSnan (f : FFmt) (x : Nat) : Bool :=
  match unpack f x with
  | .nan _ c => f.ieee && !bitAt c (f.mb - 1)
  | _ => false

/-- A code is a NaN. -/
def isNan (f : FFmt) (x : Nat) : Bool :=
  match unpack f x with
  | .nan _ _ => true
  | _ => false

/-- A NaN code with its quiet bit set (R43). -/
def quiet (f : FFmt) (x : Nat) : Nat := if f.ieee then setBits x (f.mb - 1) 1 1 else x

/-- Round away from zero? `rem` of `2 ^ d` is discarded below an integer `hi` (R38). -/
def roundUp (md : RMode) (s : Bool) (hi rem d : Nat) : Bool :=
  match md with
  | .rne => decide (2 ^ d < 2 * rem) || (2 * rem == 2 ^ d && hi % 2 == 1)
  | .rtz => false
  | .rdn => s && rem != 0
  | .rup => !s && rem != 0

/-- `m * 2 ^ e` rounded to a multiple of `2 ^ q`: the multiple and whether it is inexact (R38). -/
def roundAt (md : RMode) (s : Bool) (m : Nat) (e q : Int) : Nat × Bool :=
  if q ≤ e then (m * 2 ^ (e - q).toNat, false)
  else
    let d := (q - e).toNat
    let hi := m / 2 ^ d
    let rem := m % 2 ^ d
    (hi + b2n (roundUp md s hi rem d), rem != 0)

/-- The overflow result of R39: its code and flags. -/
def overflowResult (f : FFmt) (md : RMode) (sat s : Bool) : Nat × Flags :=
  let big := packBits f s f.maxE f.maxM
  if sat then (big, { sa := true, nx := true })
  else
    let toInf := match md with
      | .rne => true
      | .rtz => false
      | .rdn => s
      | .rup => !s
    let fl : Flags := { of := true, nx := true }
    if !toInf then (big, fl)
    else if f.ieee then (infCode f s, fl)
    else if hasNan f then (packBits f s 15 7, fl)
    else (big, fl)

/-- `(-1)^s * m * 2 ^ e` rounded once to a format: the code and the flags (R38, R39, R41). -/
def roundTo (f : FFmt) (md : RMode) (sat s : Bool) (m : Nat) (e : Int) : Nat × Flags :=
  if m = 0 then (packBits f s 0 0, noFlags)
  else
    let p : Int := f.mb + 1
    let top : Int := e + (Nat.log2 m + 1 : Nat)
    let q := if top - p < emin f then emin f else top - p
    let (hi, inex) := roundAt md s m e q
    -- tininess after rounding, with an unbounded exponent (R38)
    let (hu, _) := roundAt md s m e (top - p)
    let tiny := decide (top - p < emin f) && (hu < 2 ^ (f.mb + 1) || decide (top - p + 1 < emin f))
    let (hi, q) := if hi = 2 ^ (f.mb + 1) then (2 ^ f.mb, q + 1) else (hi, q)
    if hi < 2 ^ f.mb then (packBits f s 0 hi, { nx := inex, uf := tiny && inex })
    else
      let ec := (q + f.bias + f.mb).toNat
      let mc := hi - 2 ^ f.mb
      if f.maxE < ec ∨ (ec = f.maxE ∧ f.maxM < mc) then overflowResult f md sat s
      else (packBits f s ec mc, { nx := inex, uf := tiny && inex })

/-- A value with a non-zero remainder below its last place, strictly between two neighbours. -/
def sticky (m : Nat) (e : Int) : Nat × Int := (2 * m + 1, e - 1)

/-- A value rounded to a format; an infinity is kept by a format that has one (R39). -/
def roundFV (f : FFmt) (md : RMode) (sat : Bool) (v : FV) : Nat × Flags :=
  match v with
  | .nan s _ => (if f.ieee then setBits (defaultNan f) (f.eb + f.mb) 1 (b2n s) else packBits f s 15 7, noFlags)
  | .inf s => if f.ieee then (infCode f s, noFlags) else overflowResult f md sat s
  | .fin s m e => roundTo f md sat s m e

/-- The signed integer `m * 2 ^ (e - q)` of a finite value at a common exponent `q ≤ e`. -/
def scaled (s : Bool) (m : Nat) (e q : Int) : Int :=
  let n : Int := m * 2 ^ (e - q).toNat
  if s then -n else n

/-- The exact product of two values; none for an invalid one (R43). -/
def mulFV (a b : FV) : Option FV :=
  match a, b with
  | .fin s m e, .fin t n g => some (.fin (s != t) (m * n) (e + g))
  | .inf s, .inf t => some (.inf (s != t))
  | .inf s, .fin t n _ => if n = 0 then none else some (.inf (s != t))
  | .fin s m _, .inf t => if m = 0 then none else some (.inf (s != t))
  | _, _ => none

/-- A value with its sign inverted. -/
def negFV : FV → FV
  | .nan s c => .nan (!s) c
  | .inf s => .inf (!s)
  | .fin s m e => .fin (!s) m e

/-- The least exponent of the finite terms. -/
def minExp : List FV → Option Int
  | [] => none
  | .fin _ m e :: l =>
    if m = 0 then minExp l
    else match minExp l with
      | none => some e
      | some q => some (if e < q then e else q)
  | _ :: l => minExp l

/-- The exact sum of the finite terms at exponent `q`. -/
def sumAt (q : Int) : List FV → Int
  | [] => 0
  | .fin s m e :: l => (if m = 0 then 0 else scaled s m e q) + sumAt q l
  | _ :: l => sumAt q l

/-- Every term is a zero of the given sign. -/
def allZero (s : Bool) (l : List FV) : Bool :=
  l.all fun v => match v with
    | .fin t m _ => m == 0 && t == s
    | _ => false

/-- The exact sum of terms without NaN; none when infinities of both signs meet (R38, R43). -/
def sumFV (md : RMode) (l : List FV) : Option FV :=
  let p := l.any fun v => v == .inf false
  let n := l.any fun v => v == .inf true
  if p && n then none
  else if p then some (.inf false)
  else if n then some (.inf true)
  else
    match minExp l with
    | none =>
      if l == [] || allZero false l then some (.fin false 0 0)
      else if allZero true l then some (.fin true 0 0)
      else some (.fin (md == .rdn) 0 0)
    | some q =>
      let t := sumAt q l
      if t = 0 then some (.fin (md == .rdn) 0 0)
      else some (.fin (decide (t < 0)) t.natAbs q)

/-- The first NaN of some codes, quieted, with IV for a signalling one (R43); none when no code is a NaN. -/
def firstNan (f : FFmt) (l : List Nat) : Option (Nat × Flags) :=
  match l.find? (isNan f) with
  | none => none
  | some x => some (quiet f x, { iv := l.any (isSnan f) })

/-- Round an exact result, or the default NaN with IV when there is none (R43). -/
def finish (f : FFmt) (md : RMode) (v : Option FV) : Nat × Flags :=
  match v with
  | none => (defaultNan f, ivFlag)
  | some v => roundFV f md false v

/-- `a + b` (R43). -/
def fpAdd (f : FFmt) (md : RMode) (a b : Nat) : Nat × Flags :=
  match firstNan f [a, b] with
  | some r => r
  | none => finish f md (sumFV md [unpack f a, unpack f b])

/-- `a - b` (R43). A NaN operand is passed on with its own sign. -/
def fpSub (f : FFmt) (md : RMode) (a b : Nat) : Nat × Flags :=
  match firstNan f [a, b] with
  | some r => r
  | none => finish f md (sumFV md [unpack f a, negFV (unpack f b)])

/-- `a * b` (R43). -/
def fpMul (f : FFmt) (md : RMode) (a b : Nat) : Nat × Flags :=
  match firstNan f [a, b] with
  | some r => r
  | none => finish f md (mulFV (unpack f a) (unpack f b))

/-- `± a * b ± c` with one rounding (R43, R158). -/
def fpFma (f : FFmt) (md : RMode) (negP negC : Bool) (a b c : Nat) : Nat × Flags :=
  match firstNan f [a, b, c] with
  | some r => r
  | none =>
    let c' := unpack f c
    finish f md ((mulFV (unpack f a) (unpack f b)).bind fun p =>
      sumFV md [if negP then negFV p else p, if negC then negFV c' else c'])

/-- Exact order of values without NaN: -∞ < finite < +∞, -0 = +0. -/
def ltFV (a b : FV) : Bool :=
  match a, b with
  | .inf s, .inf t => s && !t
  | .inf s, _ => s
  | _, .inf t => !t
  | .fin s m e, .fin t n g =>
    let q := if e < g then e else g
    decide (scaled s m e q < scaled t n g q)
  | _, _ => false

/-- Numeric equality of values without NaN: -0 = +0. -/
def eqFV (a b : FV) : Bool := !ltFV a b && !ltFV b a && (match a, b with
  | .nan _ _, _ => false
  | _, .nan _ _ => false
  | _, _ => true)

/-- The order of `VMIN`, `FMIN` and R167: as `ltFV`, with -0 below +0. -/
def ltZ (a b : FV) : Bool :=
  ltFV a b || (match a, b with
    | .fin s m _, .fin t n _ => m == 0 && n == 0 && s && !t
    | _, _ => false)

/-- The smaller or the larger of two codes (R131, R155); NaN operands under R43. -/
def fpMinMax (f : FFmt) (isMax : Bool) (a b : Nat) : Nat × Flags :=
  match firstNan f [a, b] with
  | some r => r
  | none =>
    let less := ltZ (unpack f b) (unpack f a)
    (if isMax then (if ltZ (unpack f a) (unpack f b) then b else a) else (if less then b else a), noFlags)

/-- Conditions of a floating-point compare (R132, R156). -/
inductive FCond where
  | eq | ne | lt | le | un
  deriving DecidableEq, Repr

/-- A floating-point compare: the outcome and whether it sets invalid (R132, R156). -/
def fpCmp (f : FFmt) (c : FCond) (a b : Nat) : Bool × Bool :=
  let un := isNan f a || isNan f b
  let sig := isSnan f a || isSnan f b
  let x := unpack f a
  let y := unpack f b
  match c with
  | .eq => (!un && eqFV x y, sig)
  | .ne => (un || !eqFV x y, sig)
  | .lt => (!un && ltFV x y, un)
  | .le => (!un && (ltFV x y || eqFV x y), un)
  | .un => (un, sig)

/-! ### Integers and conversion (R33, R40, R41) -/

/-- The range of an integer or ternary format code. -/
def intRange (c : Nat) : Int × Int :=
  match c with
  | 8 => (-128, 127)
  | 9 => (-2147483648, 2147483647)
  | 12 => (0, 255)
  | _ => (-1, 1)

/-- A finite value rounded to an integer, with whether it changed (R39). -/
def roundInt (md : RMode) (s : Bool) (m : Nat) (e : Int) : Int × Bool :=
  let (n, inex) := roundAt md s m e 0
  (if s then -(n : Int) else n, inex)

/-- An integer as the code of a format (R33); ternary -1 is 0b11. -/
def intCode (c : Nat) (n : Int) : Nat := (n % (2 ^ elemBits c : Int)).toNat

/-- The value of a code of any format (R29 to R33). Ternary 0b10 reads as 0. -/
def valueOf (c x : Nat) : FV :=
  match ffmtOf c with
  | some f => unpack f (x % 2 ^ elemBits c)
  | none =>
    let w := elemBits c
    let n : Int :=
      if c = 12 then ((x % 2 ^ w : Nat) : Int)
      else if c = 10 ∧ x % 4 = 2 then 0
      else sextNat x w
    .fin (decide (n < 0)) n.natAbs 0

/-- The target of a NaN source (R40). -/
def nanMap (src tgt : FFmt) (s : Bool) (code : Nat) : Nat :=
  if !tgt.ieee then packBits tgt s 15 7
  else
    let m := bitsAt code 0 src.mb
    let m' := if tgt.mb ≤ src.mb then m / 2 ^ (src.mb - tgt.mb) else m * 2 ^ (tgt.mb - src.mb)
    packBits tgt s (2 ^ tgt.eb - 1) (if m' = 0 then 1 else m')

/-- `cvt(x, f, g, m, s)` of R41 without the trap of FMTCHK. -/
def cvt (src tgt : Nat) (md : RMode) (sat : Bool) (x : Nat) : Nat × Flags :=
  let f0 : Flags := { iv := src == 10 && x % 4 == 2 }
  match valueOf src x with
  | .nan s code =>
    match ffmtOf src, ffmtOf tgt with
    | some f, some g =>
      if hasNan g then
        (if f = g then code else
          -- an E4M3 source has mantissa 0b111
          nanMap f g s code, f0)
      else (packBits g s 0 0, orFlags f0 { nx := true })
    | _, _ => (0, orFlags f0 { nx := true })
  | .inf s =>
    match ffmtOf tgt with
    | some g => let (y, fl) := roundFV g md sat (.inf s); (y, orFlags f0 fl)
    | none =>
      let (lo, hi) := intRange tgt
      (intCode tgt (if s then lo else hi), orFlags f0 { iv := !sat, sa := sat })
  | .fin s m e =>
    match ffmtOf tgt with
    | some g => let (y, fl) := roundTo g md sat s m e; (y, orFlags f0 fl)
    | none =>
      let (n, inex) := roundInt md s m e
      let (lo, hi) := intRange tgt
      let out := decide (n < lo) || decide (hi < n)
      (intCode tgt (satInt n lo hi), orFlags f0 { nx := inex, iv := out && !sat, sa := out && sat })

/-- roundToIntegralExact in the format itself (R162). -/
def roundIntegral (f : FFmt) (md : RMode) (x : Nat) : Nat × Flags :=
  match unpack f x with
  | .nan _ _ => (quiet f x, { iv := isSnan f x })
  | .inf _ => (x, noFlags)
  | .fin s m e =>
    if m = 0 then (x, noFlags)
    else
      let (n, inex) := roundAt md s m e 0
      if !inex then (x, noFlags)
      else ((roundTo f .rtz false s n 0).1, { nx := true })

/-- INT32 arithmetic from its exact result (R153): the 32-bit pattern and the flags. -/
def int32Of (sat : Bool) (n : Int) : Word32 × Flags :=
  if sat then
    let c := satInt n (-2147483648) 2147483647
    (BitVec.ofInt 32 c, { sa := c != n })
  else (BitVec.ofInt 32 n, noFlags)

end Sys2Proof.Machine
end

