-- ==== Sys2Proof/Machine/State.lean ====
section
/-!
DEFINITION. The state of one AVP-8 package as plain data (R16 to R19): eight dies with their bays, the memory of the
package, the dispatcher, the optical fabric, the host interface and firmware. Memories and large register arrays are
canonical sparse maps (Word). Reset values are those of the tables of spec/; a register that the spec gives no reset
value holds zero (log 1).
-/

namespace Sys2Proof.Machine

/-- Why a step stops for good. -/
inductive Fault where
  /-- The host names a reservoir byte outside the 40-bit space that BAR2 and CXL.mem map (R410): no such byte exists.
  Raised by host reservoir reads and writes. Safe: the model stops where no access can be made. -/
  | noReservoirByte (addr : Nat)
  deriving DecidableEq, Repr

/-- Why a step has no meaning in the model. -/
inductive Refusal where
  /-- The step has no meaning yet. Raised by an arm of `exec` only. Safe: nothing follows from it. -/
  | notModelled (mnemonic : String)
  deriving DecidableEq, Repr

/-! ### A bay -/

/-- One stream of one bay (R193). OCC is the length of `queue`. -/
structure Stream where
  bound : Bool := false
  port : Nat := 0
  depth : Nat := 0
  wrap : Bool := false
  feed : Bool := false
  exh : Bool := false
  pat : BitVec 128 := 0
  i0 : Nat := 0
  i1 : Nat := 0
  i2 : Nat := 0
  hcopy : Handle := 0
  queue : List Entry := []
  infl : Nat := 0
  /-- Die-clock cycles that the head entry of a span-out stream has waited (R356). -/
  slip : Nat := 0
  deriving DecidableEq, Repr

/-- The matrix array of one bay (R172). Cell `(i, j)` has key `256 i + j`; an unlisted cell, row or column is zero. -/
structure Mxu where
  acca : SMap Word32 := []
  accb : SMap Word32 := []
  p : SMap (BitVec 48) := []
  pf : SMap (BitVec 3) := []
  ea : SMap Lane := []
  eb : SMap Lane := []
  xa : SMap Word := []
  xb : SMap Word := []
  fa : Nat := 1
  fb : Nat := 1
  pma : Nat := 1
  pmb : Nat := 1
  act : Bool := false
  dptr : Nat := 0
  gpos : Nat := 0
  stepA : BitVec 32 := 0
  stepB : BitVec 32 := 0
  /-- First timeline cycle in which the beat port is free of an `MX.HOLD` (R180). -/
  holdEnd : Nat := 0
  /-- A snapshot has not yet written its target (R190). -/
  snap : Bool := false
  deriving DecidableEq, Repr

/-- The probe table of one bay (R207). Entry `k` holds TAG and STATE; a slot of the reference counts its fills. -/
structure Probe where
  cfg : Bool := false
  pbank : Nat := 0
  nslot : Nat := 0
  ways : Nat := 0
  cbank : Nat := 0
  cword : Nat := 0
  ent : SMap (Nat × Nat) := []
  vict : SMap Nat := []
  /-- Configurations so far: a fill of an earlier one finds its entry gone (R208). The model's own count. -/
  gen : Nat := 0
  deriving DecidableEq, Repr

/-- What a context holds in one bay (R149, R165, R172, R193, R105, R207, R120). -/
structure Bay where
  /-- `v` register `r` of lane `i` has key `128 r + i`; `o` and `k` likewise. -/
  v : SMap Word32 := []
  o : SMap Word32 := []
  k : SMap Word32 := []
  full : BitVec 8 := 0
  m : Vector (BitVec 128) 8 := Vector.replicate 8 0
  carry : Vector Word32 32 := Vector.replicate 32 0
  mxu : Mxu := {}
  q : Vector Stream 32 := Vector.replicate 32 {}
  /-- Slot `n` of the draw stencils has key `n`, of the pour stencils `128 + n`; an unlisted slot is all bar (R54). -/
  stn : SMap (BitVec 9728) := []
  probe : Probe := {}
  spanIn : List Entry := []
  /-- The completion word of the last cut started from the bay and completed (R120). -/
  cutWord : Word := 0
  cutNew : Bool := false
  cutPasses : Nat := 0
  /-- A read error of the last cut: poisoned, and the first failing address. -/
  cutErr : Option (Bool × Nat) := none
  /-- Unreported read errors of `STN.LD`, the first one first (R118). -/
  ldErr : List (Bool × Nat) := []
  deriving DecidableEq, Repr

/-! ### A context on a die -/

/-- One loop level (R235). A staged value awaits the next back-edge test. -/
structure Level where
  count : BitVec 32 := 0
  maxt : BitVec 21 := 0
  iter : BitVec 21 := 0
  begin : BitVec 8 := 0
  bseg : BitVec 56 := 0
  endx : BitVec 8 := 0
  hops : BitVec 2 := 0
  rem : BitVec 2 := 0
  act : Bool := false
  stCount : Option (BitVec 32) := none
  stBegin : Option (BitVec 8) := none
  stBseg : Option (BitVec 56) := none
  stEnd : Option (BitVec 8) := none
  stHops : Option (BitVec 2) := none
  deriving DecidableEq, Repr

/-- A step due at the end of a timeline cycle: the cycle, its place among the steps of that cycle, and its order of
issue (R68, R177). -/
structure Pend where
  at_ : Nat
  prio : Nat
  seq : Nat
  instr : Instr
  msg : Msg := .none
  deriving DecidableEq, Repr

/-- An expanded segment (R53, R73): the bundles, 16 words each, and the first validation failure (R76). -/
structure Segment where
  va : Nat
  next : Nat := 0
  bundles : List (List Nat) := []
  ptab : List Byte := []
  /-- Slots of the segment's own stencil block: bay, and slot number as in `Bay.stn` (R28). -/
  own : List (Nat × Nat) := []
  /-- The sub-cause and the byte offset of a held fetch fault. -/
  bad : Option (Nat × Nat) := none
  deriving DecidableEq, Repr

/-- The inactive half of the loop buffer (R27): nothing, a segment being expanded, or an expanded one. -/
inductive Half where
  | empty
  | expanding (va : Nat)
  | ready (seg : Segment)
  deriving DecidableEq, Repr

/-- Where issue goes when the current bundle and its HOLD cycles are over. -/
structure Target where
  /-- Segment address. -/
  va : Nat
  idx : Nat
  /-- Chain links still to pass first, with an index within the last segment reached (R236, R239). -/
  hops : Nat := 0
  /-- An index past the last bundle continues in the chain (R236, R239, R260); otherwise it is a fetch fault (R76). -/
  chain : Bool := false
  /-- For a branch: the bundle that follows in program order, at which execution resumes when the target faults (R258). -/
  fall : Option (Nat × Nat) := none
  deriving DecidableEq, Repr

/-- A trap to be delivered (R256, R258). -/
structure TrapRec where
  cause : Nat
  slots : Nat := 0
  bays : Nat := 0
  stale : Bool := false
  idx : Nat
  va : Nat
  aux : Nat := 0
  /-- The resumption point. -/
  rIdx : Nat
  rVa : Nat
  exw : Bool := false
  deriving DecidableEq, Repr

/-- A trap that falls due on the next bundle to issue (R422, R423). -/
structure Due where
  cause : Nat
  aux : Nat
  handler : Bool := false
  deriving DecidableEq, Repr

/-- A register that a failed load left marked (R138). -/
structure Failed where
  isH : Bool
  reg : Nat
  cause : Nat
  ea : Nat
  deriving DecidableEq, Repr

/-- An entry of the hoist table (R143), oldest first. -/
structure Hoist where
  d : Nat
  ea : Nat
  size : Nat
  deriving DecidableEq, Repr

/-- A pump table (R279): its header, and the rows that hold commands with the row's near-memory halves. -/
structure PumpTab where
  nrows : Nat
  looprow : Nat
  wrap : Bool
  swz : Nat
  rows : List (Nat × List Nat × List Nat)
  deriving DecidableEq, Repr

/-- What a bank of the stack holds open (R286, R309, R293). -/
inductive OpenRow where
  | closed
  /-- A physical row: the leaf's address with the tensor id of the handle if one was read, the handle's MODE and RESID and
  the leaf's MODE, and whether the row was dead when opened, was written, and was declared dead while open. -/
  | row (r : Nat) (leaf : Option (Nat × Nat)) (hmode resid lmode : Nat) (dead written doomed : Bool)
  | void (leaf : Nat) (hmode lmode : Nat)
  | deadTile (leaf : Nat) (hmode lmode : Nat)
  deriving DecidableEq, Repr

/-- A command that the pump remembers for the checks of R286: its code, its bank, and its cycle (a timeline cycle of the
pump's count for table commands, a die-clock cycle for all commands). -/
structure PumpCmd where
  cmd : Nat
  bank : Nat
  at_ : Nat
  deriving DecidableEq, Repr

/-- A table image on its way into a buffer, one word per die-clock cycle (R224): the address of its first word (none for
the segment's own block, given in full), its length in bytes, and the bytes so far. -/
structure StageJob where
  addr : Option Nat
  len : Nat
  block : List Byte := []
  bytes : List Byte := []
  deriving DecidableEq, Repr

/-- The pump's state that belongs to the context (R278). -/
structure PumpCtx where
  active : Option PumpTab := none
  standby : Option (List Byte) := none
  stage : Option StageJob := none
  stageIdle : Option StageJob := none
  row : Nat := 0
  /-- RDs not yet presented. -/
  ret : List RdData := []
  /-- The open-row record of R289. -/
  openRec : List (Nat × OpenRow) := []
  /-- Table commands issued, the latest first. -/
  hist : List PumpCmd := []
  /-- A `PUMP.GO` of the present cycle: the table and row of the next timeline cycle (R224). -/
  next : Option (PumpTab × Nat) := none
  /-- Rows that a `PUMP.DEAD` of the present cycle declares dead (R224). -/
  kill : List (Nat × Nat) := []
  deriving DecidableEq, Repr

/-- The walker (R369): current node, and the node and count of each active while node. -/
structure Walker where
  graph : Nat := 0
  node : Nat := 0
  whiles : List (Nat × Nat) := []
  /-- The walker runs the node (not a kernel). -/
  busy : Bool := false
  deriving DecidableEq, Repr

/-- The wait of a slot whose bundle has come to issue and waits: the instruction, the GTC when it first came to issue,
what is left to count, whether what it must wait for first has come about, and the outcome. -/
structure Wait where
  instr : Instr
  gtc : Nat := 0
  left : Nat := 0
  arrived : Bool := false
  done : Bool := false
  value : Nat := 0
  deriving DecidableEq, Repr

/-- State with the context's lifetime on one die (R19, R123, R235, R258, R364, R370). -/
structure Ctx where
  s : Vector Word 64 := Vector.replicate 64 0
  /-- Bit `i` is `p[i]`; reads of bit 0 give 1 (R123). -/
  p : BitVec 16 := 1
  h : Vector Handle 16 := Vector.replicate 16 0
  pendS : BitVec 64 := 0
  pendH : BitVec 16 := 0
  failed : List Failed := []
  loops : Vector Level 6 := Vector.replicate 6 {}
  rm : BitVec 2 := 0
  fmtchk : Bool := false
  fpstat : Flags := {}
  check : Bool := false
  safecnt : Nat := 0
  win : BitVec 2 := 0
  sumpst : BitVec 3 := 0
  trec : Vector Word 4 := Vector.replicate 4 0
  tepc : Word := 0
  ppl : BitVec 2 := 0
  inH : Bool := false
  exw : Bool := false
  tscr : Vector Word 4 := Vector.replicate 4 0
  tvec : Word := 0
  dbgen : Bool := false
  domid : BitVec 16 := 0
  /-- Privilege: 0 user, 1 system, 2 firmware (R66). -/
  priv : Nat := 0
  bay : Vector Bay 8 := Vector.replicate 8 {}
  ctr : SMap Word32 := []
  /-- Steps in flight on the timeline. -/
  pend : List Pend := []
  /-- The timeline cycle that comes next, or runs (R22). -/
  tl : Nat := 0
  /-- Timeline cycles outside trap handlers: the time base of the pump's constraints (R277). -/
  ptl : Nat := 0
  /-- The same: the time base of pump fills (R283, R287). -/
  rtl : Nat := 0
  seqNo : Nat := 0
  seg : Option Segment := none
  half : Half := .empty
  idx : Nat := 0
  /-- The boundary before the next bundle is safe (R240). -/
  safeB : Bool := false
  hold : Nat := 0
  /-- HOLD cycles owed to the bundle before the resumption point (R287). -/
  owed : Nat := 0
  /-- Segment and index of the bundle whose HOLD cycles or `EXIT` wait run, and of the interrupted one. -/
  holdOf : Nat × Nat := (0, 0)
  owedOf : Nat × Nat := (0, 0)
  target : Option Target := none
  /-- The next bundle is the first one resumed by a `TRET` with NODBRK (R260). -/
  noDbrk : Bool := false
  /-- The `EXIT` wait of R242 with its CODE. -/
  exit : Option (BitVec 16) := none
  exiting : Bool := false
  trap : Option TrapRec := none
  due : List Due := []
  wait : List Wait := []
  hoist : List Hoist := []
  /-- Chunks that the prefetch engine has read for the expansion under way: address, bytes and poison (R27, R313). -/
  code : List (Nat × List Byte × Bool) := []
  /-- The expansion under way is that of the current segment of a restored context (R27, R364). -/
  restored : Bool := false
  ldq : List MemOp := []
  stq : List MemOp := []
  /-- Gets that have left the load queue and are not yet answered. -/
  gets : List MemOp := []
  /-- Open sump group of each bay, with the elements so far (R218). -/
  sump : List SumpGroup := []
  barGen : SMap Nat := []
  barArr : SMap Nat := []
  pump : PumpCtx := {}
  walk : Walker := {}
  dropc : Nat := 0
  /-- Peer that broke first, and peer of the first dropped entry, since the last `FENCE.RC` (R246). -/
  rcBroke : Option Nat := none
  rcDrop : Option Nat := none
  /-- Near-memory errors since the last `NM.FENCE`, and the first of them (R228). -/
  nmErr : Nat := 0
  nmFirst : Option Nat := none
  /-- Cuts and stencil loads in progress when the context was halted (R117). -/
  cut : Option CutJob := none
  /-- Cuts issued in one bundle with the one in progress: the cutter takes them up one after another (log 82). -/
  cutq : List CutJob := []
  lds : List LdJob := []
  ctxNo : BitVec 16 := 0
  queue : BitVec 16 := 0
  preq : Bool := false
  launchId : Word := 0
  token : Bool := false
  confirmed : Bool := false
  t0 : Word := 0
  spanBase : BitVec 32 := 0
  spanN : Nat := 0
  spanRecs : List Word := []
  spEmpty : Nat := 0
  /-- The context was ended by a fault: the next launch creates it anew (R404). -/
  dead : Bool := false
  /-- Descriptor fields that the die reads (R363). -/
  leafBase : Nat := 0
  leafN : Nat := 0
  codeBase : Nat := 0
  rbase : Nat := 0
  rlen : Nat := 0
  rectRow : Nat := 0
  rectCol : Nat := 0
  rectNr : Nat := 1
  rectNc : Nat := 1
  /-- QLOG2 of the launch image, 0 for the reset value: QCTL takes it at the start of each kernel (R274). -/
  quantum : Nat := 0
  deriving DecidableEq, Repr

/-! ### A die -/

/-- Phases of an idle run (R290). -/
inductive IdlePhase where
  | run
  /-- Reopening: banks still to activate. -/
  | reopen (left : List (Nat × OpenRow))
  /-- Waiting until every command is MAXC cycles old. -/
  | settle
  deriving DecidableEq, Repr

/-- An idle run: the row in progress, its commands still to issue, and the phase. -/
structure IdleRun where
  row : Nat := 0
  left : List Nat := []
  phase : IdlePhase := .run
  /-- A bundle is ready to issue; die-clock cycle of entry. -/
  ready : Bool := false
  start : Nat := 0
  deriving DecidableEq, Repr

/-- The pump of a die with power-on lifetime (R276, R286 to R293, R312). Banks are numbered `16 PC + 4 BG + BK`. -/
structure Pump where
  idleThresh : Nat := 256
  refpost : Nat := 8
  /-- tRCD, tRP, tRAS, tRC, tRRD_S, tRRD_L, tFAW, tCCD_S, tCCD_L, tWR, tWTR_S, tWTR_L, tRTP, tRFCrow, tNM. -/
  t : Vector Nat 15 := #v[28, 28, 66, 94, 4, 6, 24, 2, 4, 32, 6, 16, 8, 70, 40]
  trefw : Nat := 32000000
  debtPeak : Nat := 0
  idleTab : Option PumpTab := none
  bank : SMap OpenRow := []
  hist : List PumpCmd := []
  held : Nat := 0
  idle : Option IdleRun := none
  runs : Nat := 0
  /-- Refresh debt of a bank is `debt` plus its own difference (R291). -/
  debt : Int := 0
  debtOf : SMap Int := []
  accr : Nat := 0
  idlePtr : SMap Nat := []
  dead : SMap Bool := []
  acnt : SMap Nat := []
  noted : SMap Bool := []
  /-- Near-memory commands not yet complete, in order of their rows (R227). -/
  nmc : List NmcJob := []
  /-- RDs whose data has not yet returned, in order of their rows (R285); WRs whose data has not yet reached the stack:
  number, pseudo-channel and context (R284); and the number of the next column command. -/
  rds : List RdData := []
  wrs : List (Nat × Nat × Nat) := []
  colSeq : Nat := 0
  deriving DecidableEq, Repr

/-- One shadow set (R250): its live granules with the shadow of each. -/
structure ShadowSet where
  id : Nat
  maps : List (Nat × Nat)
  /-- The context that allocated it (R251). -/
  owner : Nat := 0
  deriving DecidableEq, Repr

/-- A migration of one tile (R314): the cistern address of its leaf, the tensor's id with the leaf's size code and
swizzle, the two places, the dirty map, the attempts made, and whether a host command completes with it. -/
structure Migr where
  leaf : Nat
  /-- Leaf index. -/
  idx : Nat
  id : Nat
  size : Nat
  swz : Nat
  tier : Nat
  frame : Nat
  dtier : Nat
  dframe : Nat
  /-- Units of the first copy read so far, units of a later one still to read, and what has been read and is still to be
  written, with its poison. -/
  pos : Nat := 0
  left : List Nat := []
  buf : List (Nat × List Byte × Bool × Bool) := []
  dirty : List Nat := []
  tries : Nat := 0
  cmd : Bool := false
  deriving DecidableEq, Repr

/-- One copy of a reflected unit: the peer, the target and the egress frames that its window-map entry named at stamping,
and whether it has been sent (R324, R340). -/
structure Copy where
  peer : Nat
  pkg : Nat
  die : Nat
  wid : Nat
  eqleaf : Nat := 0
  eqn : Nat := 0
  sent : Bool := false
  deriving DecidableEq, Repr

/-- One entry of the commit buffer (R272): a verb to another die of the package, or a reflected unit with its local
address and the copies that are not yet done. -/
structure CbEntry where
  id : Nat
  verb : Option Verb := none
  unit : Option RUnit := none
  addr : Nat := 0
  copies : List Copy := []
  stamp : Nat
  /-- The launch that holds it back until its CONFIRM (R359). -/
  hold : Option Nat := none
  deriving DecidableEq, Repr

/-- An open combining entry (R269): peer set, window offset of its unit, local address, bytes, opening cycle, and whether
a `MARK`, `SIGNAL` or `FENCE.RC` has come after its last store. Its peers are read when they are used (R317). -/
structure Combine where
  id : Nat
  pset : Nat
  off : Nat
  addr : Nat
  mask : BitVec 64 := 0
  data : BitVec 512 := 0
  opened : Nat
  barred : Bool := false
  deriving DecidableEq, Repr

/-- A buffered access that has reached its target and waits for its boundary (R266, R271). -/
structure Arrived where
  a : Nat
  /-- GTC of its physical arrival. -/
  phys : Nat
  issuer : Nat
  seq : Nat
  verb : Option Verb := none
  unit : Option RUnit := none
  /-- The IOD whose elastic buffer holds it; 2: none. -/
  iod : Nat := 2
  /-- It is still on its way within the package, until `phys`. -/
  onWay : Bool := false
  deriving DecidableEq, Repr

/-- The ordering registers of a die (R274, R275). -/
structure Order where
  qlog2 : Nat := 7
  cbwait : Nat := 64
  qnow : Nat := 7
  peak : Nat := 0
  late : Nat := 0
  mldly : Nat := 48
  rfdly : Nat := 640
  cb : List CbEntry := []
  combine : List Combine := []
  arrived : List Arrived := []
  cbNext : Nat := 0
  /-- Number of the next combining entry. -/
  cmNext : Nat := 0
  /-- Consecutive quanta that a bundle has waited for commit-buffer entries (R272). -/
  cbStall : Nat := 0
  deriving DecidableEq, Repr

/-- A flit sent and not yet acknowledged: SEQ, the peer and the commit-buffer entries of its units (none when it came from
the egress queue), its bytes, and whether it is to be replayed (R325, R342). -/
structure Sent where
  seq : Nat
  peer : Nat
  ids : List Nat
  bytes : List Byte
  again : Bool := false
  deriving DecidableEq, Repr

/-- A record of an egress queue: the local address of its entry, whether it is a `SIGNAL`, its target, and the frames and
the place in them to which its entry was bound at stamping (R337, R340). -/
structure EgressRec where
  addr : Nat
  signal : Bool
  pkg : Nat
  die : Nat
  leaf : Nat
  eqn : Nat
  at_ : Nat
  deriving DecidableEq, Repr

/-- State of a path, from the die to a target or from an issuer to the die (R326, R336 to R340). -/
structure PathSt where
  seqOut : Nat := 0
  seqIn : Nat := 0
  acked : Nat := 0
  /-- A new epoch's SYNC flit has still to leave, before any flit of the epoch (R340). -/
  epoch : Bool := false
  unacked : List Sent := []
  /-- Flits that have arrived and wait for an earlier one of the path, with the GTC of the first such arrival. -/
  early : List (Nat × Arrived) := []
  missing : Option Nat := none
  /-- A flit of the path's epoch is lost: the rest of the epoch is discarded. -/
  lost : Bool := false
  /-- Receive windows that have refused a unit of the path in its epoch: later units for them are discarded, so that the
  target holds a prefix (R338). -/
  cut : List Nat := []
  /-- Plane that the last flit took (R326). -/
  plane : Nat := 15
  deriving DecidableEq, Repr

/-- The window registers of a die (R323). -/
structure Win where
  wmbase : BitVec 32 := 0
  psbase : BitVec 32 := 0
  rwbase : BitVec 32 := 0
  treal : Nat := 10000000
  brk : Bool := false
  firstBrk : BitVec 8 := 0
  rxdisc : Nat := 0
  /-- Traps of broken peers that no bundle has taken yet: the peer, and the address for word 2 (R339). -/
  traps : List (Nat × Nat) := []
  /-- Paths out by the global die index of the target; paths in by 256 plus that of the issuer. -/
  paths : SMap PathSt := []
  /-- The records in the egress queue of each peer, the oldest first. -/
  egress : SMap (List EgressRec) := []
  deriving DecidableEq, Repr

/-- A fault being tracked (R390). -/
structure Track where
  loc : Loc
  count : Nat
  first : Nat
  deriving DecidableEq, Repr

/-- Error, repair and limiter state of a die (R383 to R401). -/
structure Err where
  nmtrap : Bool := false
  autoret : Bool := true
  errthr : Nat := 3
  errwin : Nat := 86400000000000
  elbase : BitVec 32 := 0
  head : Nat := 0
  tail : Nat := 0
  ovf : Bool := false
  dropped : Nat := 0
  chsel : Nat := 0
  ce : SMap Nat := []
  ue : SMap Nat := []
  rcBank : Nat := 0
  rcBay : Nat := 0
  rcBusy : Bool := false
  rcNext : Nat := 0
  rebuilt : Nat := 0
  lostBk : Bool := false
  freezeCnt : Word := 0
  rcFrz : Word := 0
  limit : Nat := 40960
  limEn : Bool := true
  overCnt : Nat := 0
  sum : Nat := 0
  scrub : Nat := 1024
  track : List Track := []
  /-- Events of the present cycle, counted and recorded at its end (R398): channel, kind, WHERE. -/
  events : List (Nat × Nat × Nat) := []
  /-- Words found uncorrectable: bay and bank, address, GTC (R392). -/
  ueWords : List (Nat × Nat × Nat) := []
  /-- Weights of the last 63 die-clock cycles, the latest first (R400). -/
  weights : List Nat := []
  /-- Weight of the present cycle. -/
  wnow : Nat := 0
  /-- The die-clock cycle of the last limiter freeze (R400). -/
  limFrz : Option Nat := none
  /-- A reconstruction calls for a freeze before the next timeline cycle, and that cycle's freeze has been made (R392). -/
  freeze : Nat := 0
  paid : Bool := false
  /-- Retired bank of stripe `s` of bay `b` at `16 b + s`, plus 1 (R392). -/
  retired : SMap Nat := []
  lost : SMap Bool := []
  /-- Spare lanes used by each UCIe port, and the ports with the lane that they replace (R391). -/
  lanes : SMap Nat := []
  down : List (Nat × Nat) := []
  spare : SMap Nat := []
  scrubPos : SMap Nat := []
  deriving DecidableEq, Repr

/-- One compute die. -/
structure Die where
  ctx : Ctx := {}
  /-- A kernel or a graph of a context runs on the die. -/
  running : Bool := false
  /-- The die halts for a pre-emption request (R361). -/
  halting : Bool := false
  alive : Bool := true
  /-- The present die-clock cycle is a timeline cycle of the die, and the pour stencil that holds in it. -/
  adv : Bool := false
  issued : Bool := false
  /-- It is the first cycle of a bundle, issued or removed, or a HOLD cycle; the pump's row of the cycle issues; pump fills
  advance. -/
  first : Bool := false
  hcyc : Bool := false
  rows : Bool := false
  fills : Bool := false
  pstn : Nat := 0
  /-- The bundle that issued in the present cycle was LAST or held an acting control slot. -/
  lastB : Bool := false
  ctl : Bool := false
  pump : Pump := {}
  ord : Order := {}
  win : Win := {}
  err : Err := {}
  sets : List ShadowSet := []
  /-- The engine queue, oldest first (R211), the number of its next request, and page requests: leaf, completion
  address, value and domain (R214). -/
  engine : List CopyReq := []
  engNext : Nat := 0
  pageq : List (Nat × Nat × Word × Nat) := []
  migs : List Migr := []
  engErr : Bool := false
  /-- Closed sump groups that are not yet applied, and snapshots not yet written (R218, R221). -/
  groups : List SumpGroup := []
  snaps : Nat := 0
  /-- Leaves that engines translated since the last `TLB.SYNC`, and words stored since then (R305, R261, R256). -/
  tlb : SMap Nat := []
  stored : SMap Bool := []
  /-- Offsets received in the exchange of the die's `REALIGN` (R253). -/
  offsets : List (Nat × Int) := []
  deriving DecidableEq, Repr

/-! ### The package -/

/-- A word's stored error (R384). -/
inductive EccSt where
  | ok | single | multi
  deriving DecidableEq, Repr

/-- Memory of the package: the cistern by its 30-bit address (R8, R134), HBM by `2^26 die + address`, the reservoir by
its 40-bit address (R315), and host memory as the outside world holds it. -/
structure Mem where
  cistern : List Host.Cell := []
  /-- Poison and residency bits and stored errors of bank words, by address div 16 (R203, R383, R384). -/
  pz : SMap Bool := []
  nr : SMap Bool := []
  ecc : SMap EccSt := []
  /-- Error of the check word of a stripe, by bay, stripe and word (R383). -/
  chk : SMap EccSt := []
  hbm : List Host.Cell := []
  /-- Poison and stored uncorrectable errors of 32-byte units (R388). -/
  hbmPz : SMap Bool := []
  hbmErr : SMap EccSt := []
  res : List Host.Cell := []
  resPz : SMap Bool := []
  host : List Host.Cell := []
  deriving DecidableEq, Repr

/-- One optical port (R323, R328, R342). -/
structure Port where
  lock : BitVec 16 := 0
  srclost : Bool := true
  gate : Bool := true
  gated : Bool := true
  /-- Wavelength of each ring, plus 1; unlisted: off. -/
  tune : SMap Nat := []
  /-- GTC of a reinsertion after which the port has not yet rejoined a rota (R342). -/
  back : Option Nat := none
  deriving DecidableEq, Repr

/-- A flit on a ring: its die, its peer or the key of a SYNC flit, its path, its class (0 SYNC, 1 ATOM, 2 BULK), SEQ and
bytes, and the hundredth of a die-clock cycle in which it has left (R325: 9.14 ns). -/
structure Flight where
  port : Nat
  ring : Nat
  die : DieIx
  peer : Nat
  path : Nat
  cls : Nat
  seq : Nat := 0
  bytes : List Byte := []
  till : Nat
  deriving DecidableEq, Repr

/-- A report to the fabric manager (R331): the command, whether it was obeyed, and the LOCK bits of every port. -/
structure FmReport where
  cmd : FmCmd
  obeyed : Bool
  locks : List (BitVec 16)
  deriving DecidableEq, Repr

/-- The optical fabric of the package (R323 to R342). -/
structure Fabric where
  ports : Vector Port 16 := Vector.replicate 16 {}
  mode : BitVec 2 := 0
  slot : Nat := 0
  rot : Nat := 0
  deads : Nat := 0
  /-- Words 0 and 1 of the loaded rota image, then 32 words for each slot: the wavelengths of the package's rings, one byte
  each, 0xFF off. -/
  rota : List Word := []
  rotaOn : Bool := false
  rotaT0 : Nat := 0
  /-- Number of the slot that starts next, counted from T0; while a slot is in force, the packages reached in it; the
  packages whose paths a slot has left dark (R333, R336). -/
  rotaN : Nat := 0
  slotHit : Option (List Nat) := none
  rotaDark : List Nat := []
  /-- The rota stops at the end of its rotation (1) or of its slot (2). -/
  rotaStop : Nat := 0
  /-- GTC since which no ring reaches a package, plus 1 (R336). -/
  dark : SMap Nat := []
  flight : List Flight := []
  /-- Port, ring, die and peer of the paths that a ring has served, the latest last; and, at `16 port + ring`, the last
  quantum of 128 flit times in which the ring sent SYNC and ATOM flits, and how many (R327). -/
  turns : List (Nat × Nat × DieIx × Nat) := []
  urgent : SMap (Nat × Nat) := []
  unsync : Bool := false
  lastra : Nat := 0
  dflight : Nat := 0
  slack : Nat := 0
  laser : BitVec 2 := 0
  /-- What the package has reported to the fabric manager (R331). -/
  reports : List FmReport := []
  deriving DecidableEq, Repr

/-- A hardware queue of the dispatcher (R343). -/
structure Queue where
  en : Bool := false
  tier : Nat := 0
  shr : Nat := 0
  shc : Nat := 0
  region : Nat := 0
  ctx : Nat := 0
  ring : Nat := 0
  rlog : Nat := 0
  head : Nat := 0
  tail : Nat := 0
  deadline : Nat := 0
  enq : Nat := 0
  eff : Nat := 0
  /-- The doorbell as last written (R412), and whether the head record is enqueued. -/
  bell : Nat := 0
  queued : Bool := false
  cancels : Nat := 0
  /-- The recovery record stands in place of the head record (R404), and the times it has been repeated (R405). -/
  recov : Bool := false
  repeats : Nat := 0
  deriving DecidableEq, Repr

/-- A context descriptor (R363). -/
structure CtxDesc where
  domid : Nat := 0
  region : Nat := 0
  leafBase : Nat := 0
  leafN : Nat := 0
  codeBase : Nat := 0
  csaLeaf : Nat := 0
  csan : Nat := 0
  rbase : Nat := 0
  rlen : Nat := 0
  touch : BitVec 256 := 0
  tvec : Nat := 0
  deriving DecidableEq, Repr

/-- What a save area holds of one die (R364): the context, and its own granules with their bytes. -/
structure Saved where
  die : Nat
  ctx : Ctx
  cells : List Host.Cell
  hidden : SMap Bool × SMap Bool
  ecc : SMap EccSt := []
  /-- QCTL, which has the kernel's lifetime (R274). -/
  qlog2 : Nat := 7
  cbwait : Nat := 64
  /-- Column commands of the context that wait for a WR of it: RDs, near-memory commands, and the WRs (R227). -/
  rds : List RdData := []
  nmc : List NmcJob := []
  wrs : List (Nat × Nat × Nat) := []
  deriving DecidableEq, Repr

/-- Where a launch stands: it waits for its dies to be idle, for its start (a gang), for its restore; it runs; its dies
halt to be saved; it is saved; it ends by a fault once its dies have halted. -/
inductive LaunchPhase where
  | waiting | prepared | restoring | running | halting | parked | ending
  deriving DecidableEq, Repr

/-- A launch in progress (R347 to R360). -/
structure Launch where
  id : Nat
  queue : Nat
  ctx : Nat
  row : Nat
  col : Nat
  nr : Nat
  nc : Nat
  /-- Dies of this package in the rectangle, and those of them that have not ended their kernel or halted. -/
  dies : List Nat
  runs : List Nat := []
  /-- Dies that have halted and wait for the save, and packages of the rectangle whose dies have all ended. -/
  halted : List Nat := []
  ended : List Nat := []
  phase : LaunchPhase := .waiting
  /-- Virtual address of the launch image. -/
  image : Nat
  /-- It has started once, and is restored from what was saved. -/
  begun : Bool := false
  saved : List Saved := []
  code : Nat := 0
  /-- Status and trap cause of a launch that ends by a fault. -/
  fault : Option (Nat × Nat) := none
  /-- Die-clock cycle in which the slice ends. -/
  sliceAt : Nat := 0
  gang : Bool := false
  coord : Bool := true
  token : Bool := false
  t0 : Nat := 0
  ready : List Nat := []
  started : List Nat := []
  /-- CONFIRM has come, or the launch is no gang (R358). -/
  confirmed : Bool := false
  graph : Nat := 0
  rota : Bool := false
  /-- While it is saved: its rota image, with T0, ROT and DEADS (R362). -/
  kept : Option (List Word × Nat × Nat × Nat) := none
  deriving DecidableEq, Repr

/-- The dispatcher of the package (R343 to R370, R382, R404). -/
structure Disp where
  queues : SMap Queue := []
  horizon : Vector Nat 8 := #v[500000, 1000000, 2000000, 4000000, 8000000, 16000000, 32000000, 40000000]
  maxSlice : Nat := 4000000
  prepLead : Nat := 200000
  goLead : Nat := 20000
  ackWin : Nat := 50000
  acthr : Nat := 4096
  ctxs : SMap CtxDesc := []
  regions : List (Nat × Nat × List Nat) := []
  recovery : SMap Nat := []
  launches : List Launch := []
  nextId : Nat := 1
  faults : List (List Word) := []
  lost : Nat := 0
  migr : List Nat := []
  missed : Vector Nat 8 := Vector.replicate 8 0
  /-- Dies whose sideband heartbeat does not answer, as the last change of it says (R402). -/
  silent : BitVec 8 := 0
  /-- Dies of the package of whose loss the other dispatchers of the domain have been told (R402). -/
  notices : List Nat := []
  lostmap : BitVec 8 := 0
  lostPkgs : List Nat := []
  deriving DecidableEq, Repr

/-- Operating point of the voltage/frequency islands of a die, or of the IODs (R417, R415): the lowest, the nominal one of
2.0 GHz, or what a power cap of some watts leaves. -/
inductive OpPoint where
  | lowest
  | nominal
  | capped (watts : Nat)
  deriving DecidableEq, Repr

/-- Host registers, firmware and domain (R412, R417 to R421). -/
structure HostIf where
  /-- Operating points of the islands of the dies, and at index 8 of the IODs, and those that wait until a die is halted
  (R417, R421, log 21). -/
  points : Vector OpPoint 9 := Vector.replicate 9 .lowest
  pointDue : Vector (Option OpPoint) 9 := Vector.replicate 9 none
  ready : Bool := false
  failsafe : Bool := false
  stage : Nat := 0
  crbase : Nat := 0
  crlog : Nat := 0
  cren : Bool := false
  crtail : Nat := 0
  crhead : Nat := 0
  msix : Vector Nat 4 := Vector.replicate 4 0
  unreadable : List (Nat × Nat) := []
  /-- Applied images, whole as they were loaded, in the order in which they were applied. -/
  images : List (List Byte) := []
  minSvn : Nat := 0
  lmsLeaf : Nat := 0
  /-- Retirement map (R394): die, bay, bank for a bank; die for a die. -/
  retireMap : List (Nat × Option (Nat × Nat)) := []
  watts : Nat := 5600
  /-- An entry of the command ring is being served; STATUS and VALUE of the last command (R414). -/
  serving : Bool := false
  resp : Option (Nat × Word) := none
  /-- What the last host read of the reservoir answered: its bytes, and the poison indication (R410). -/
  answer : List Byte × Bool := ([], false)
  /-- Die-clock cycle from which vector 2 may fire again, and whether it is due (R411). -/
  v2 : Nat := 0
  v2due : Bool := false
  pkg : Nat := 0
  domain : Bool := false
  npkg : Nat := 1
  deriving DecidableEq, Repr

/-- What a step runs: a table step with its message, a slot word, a pump word with its near-memory half, an entry of
the command ring, or a phase of a die's clock cycle. -/
inductive Work where
  | instr (i : Instr) (m : Msg)
  | slot (w n : Nat)
  | pump (w : Nat) (half : Option Nat)
  | command (ws : List Nat)
  | turn
  /-- Stream launches of a bundle that issued, and the pump's table row of the cycle. -/
  | draw (launch : Bool)
  | side
  | agents
  | land
  | retire
  deriving DecidableEq, Repr

/-- Work on a die. -/
structure Task where
  die : DieIx
  work : Work
  deriving DecidableEq, Repr

/-- Work due at a die-clock cycle. -/
structure Timer where
  at_ : Nat
  task : Task
  deriving DecidableEq, Repr

/-- The state of one package. `now` counts die-clock cycles; `todo` is what remains of the present one. -/
structure State where
  dies : Vector Die 8 := Vector.replicate 8 {}
  cur : DieIx := 0
  msg : Msg := .none
  /-- Number of the slot that runs (R55). -/
  slot : Nat := 2
  now : Nat := 0
  gtc : Nat := 0
  /-- The second die-clock cycle of the GTC tick runs (R353). -/
  half : Bool := false
  /-- Die-clock cycles by which the GTC is still to be slewed forward, and ticks since the last one (R253). -/
  slew : Int := 0
  slewCnt : Nat := 0
  mem : Mem := {}
  /-- Cistern bytes that a side port has written in the present cycle (R26). -/
  sideW : List Nat := []
  /-- Banks whose side port has served an access in the present cycle (R26), by address div 2^17. -/
  sideB : List Nat := []
  fab : Fabric := {}
  disp : Disp := {}
  host : HostIf := {}
  todo : List Task := []
  timers : List Timer := []
  inputs : List Timer := []
  waits : List Nat := []
  /-- Counts the free values taken so far (log 6). -/
  free : Nat := 0
  /-- Granules in which the engine work that runs writes nothing (R251). -/
  drop : List Nat := []
  deriving DecidableEq, Repr

/-- The machine right after reset: every field at its reset value, nothing powered on yet (R417 starts with
`POWER_ON`). -/
def State.reset : State := {}

end Sys2Proof.Machine
end

