-- ==== Sys2Proof/Machine/Ops.lean ====
section
/-!
DEFINITION. The named operations over the state: the current die and its context, registers, scheduling of results on
the timeline and of events in die-clock cycles, raw memory, and taking and leaving a trap (R256 to R260, R379, R381).
-/

namespace Sys2Proof.Machine

/-! ### Parts of the state -/

/-- Die `i`. -/
def State.dieAt (s : State) (i : DieIx) : Die := s.dies.get i

/-- Replace die `i`. -/
def State.setDieAt (s : State) (i : DieIx) (d : Die) : State := { s with dies := s.dies.set i.val d i.isLt }

/-- The die whose step it is. -/
def State.die (s : State) : Die := s.dieAt s.cur

/-- Replace the die whose step it is. -/
def State.setDie (s : State) (d : Die) : State := s.setDieAt s.cur d

/-- Change the die whose step it is. -/
def State.modDie (s : State) (f : Die → Die) : State := s.setDie (f s.die)

/-- The context on the die. -/
def State.ctx (s : State) : Ctx := s.die.ctx

/-- Change the context on the die. -/
def State.modCtx (s : State) (f : Ctx → Ctx) : State := s.modDie fun d => { d with ctx := f d.ctx }

/-- Bay `b` of the context. -/
def Ctx.bayAt (c : Ctx) (b : BayIx) : Bay := c.bay.get b

/-- Replace bay `b` of a context. -/
def Ctx.setBay (c : Ctx) (b : BayIx) (x : Bay) : Ctx := { c with bay := c.bay.set b.val x b.isLt }

/-- Change bay `b` of the die. -/
def State.modBay (s : State) (b : BayIx) (f : Bay → Bay) : State := s.modCtx fun c => c.setBay b (f (c.bayAt b))

/-- Bay `b` of the die. -/
def State.bayAt (s : State) (b : BayIx) : Bay := s.ctx.bayAt b

/-- Stream `q` of a bay. -/
def Bay.str (x : Bay) (q : Nat) : Stream := x.q[q % 32]'(Nat.mod_lt _ (by decide))

/-- Replace stream `q` of a bay. -/
def Bay.setStr (x : Bay) (q : Nat) (t : Stream) : Bay := { x with q := x.q.set (q % 32) t (Nat.mod_lt _ (by decide)) }

/-- Change stream `q` of bay `b`. -/
def State.modStr (s : State) (b : BayIx) (q : Nat) (f : Stream → Stream) : State :=
  s.modBay b fun x => x.setStr q (f (x.str q))

/-- Change the MXU of bay `b`. -/
def State.modMxu (s : State) (b : BayIx) (f : Mxu → Mxu) : State := s.modBay b fun x => { x with mxu := f x.mxu }

/-- Change the pump of the die. -/
def State.modPump (s : State) (f : Pump → Pump) : State := s.modDie fun d => { d with pump := f d.pump }

/-- Change the ordering state of the die. -/
def State.modOrd (s : State) (f : Order → Order) : State := s.modDie fun d => { d with ord := f d.ord }

/-- Change the error state of the die. -/
def State.modErr (s : State) (f : Err → Err) : State := s.modDie fun d => { d with err := f d.err }

/-- Change the memory. -/
def State.modMem (s : State) (f : Mem → Mem) : State := { s with mem := f s.mem }

/-- Change the dispatcher. -/
def State.modDisp (s : State) (f : Disp → Disp) : State := { s with disp := f s.disp }

/-- Change the host interface. -/
def State.modHost (s : State) (f : HostIf → HostIf) : State := { s with host := f s.host }

/-- Raise a message-signalled interrupt (R411). -/
def State.msix (s : State) (v : Nat) : State :=
  s.modHost fun h => { h with msix := h.msix.set (v % 4) (h.msix[v % 4]'(Nat.mod_lt _ (by decide)) + 1) (Nat.mod_lt _ (by decide)) }

/-- Change the fabric. -/
def State.modFab (s : State) (f : Fabric → Fabric) : State := { s with fab := f s.fab }

/-- Run something as die `i`. -/
def State.onDie (s : State) (i : DieIx) (f : State → State) : State := { f { s with cur := i } with cur := s.cur }

/-- Do something on every die in increasing order. -/
def State.eachDie (s : State) (f : State → State) : State :=
  (List.finRange 8).foldl (fun s i => s.onDie i f) s

/-- Descriptor of a context (R363). -/
def Disp.ctxAt (p : Disp) (n : Nat) : CtxDesc := SMap.get {} p.ctxs n

/-- Change the descriptor of a context. -/
def State.modCtxDesc (s : State) (n : Nat) (f : CtxDesc → CtxDesc) : State :=
  s.modDisp fun p => { p with ctxs := SMap.put {} p.ctxs n (f (p.ctxAt n)) }

/-- Change context `n` on the die: what is saved of it while it is halted, else what the die holds of it. -/
def State.modOwner (s : State) (n : Nat) (f : Ctx → Ctx) : State :=
  let mine := fun (x : Saved) => x.die == s.cur.val && x.ctx.ctxNo.toNat == n
  if s.disp.launches.any fun l => l.saved.any mine then
    s.modDisp fun p => { p with launches := p.launches.map fun l =>
      { l with saved := l.saved.map fun x => if mine x then { x with ctx := f x.ctx } else x } }
  else if s.ctx.ctxNo.toNat = n then s.modCtx f
  else s

/-- The context on the die has touched die `g` of the domain (R366). -/
def State.touchDie (s : State) (g : Nat) : State :=
  s.modCtxDesc s.ctx.ctxNo.toNat fun c => { c with touch := c.touch ||| (1#256 <<< g) }

/-- The global die index of a die of this package (R265). -/
def State.gdie (s : State) (i : DieIx) : Nat := 8 * s.host.pkg + i.val

/-! ### Registers (R123) -/

/-- A scalar register; `s0` reads as zero. -/
def Ctx.rs (c : Ctx) (r : BitVec 6) : Word := if r = 0 then 0 else c.s[r.toNat]'(by exact r.isLt)

/-- Write a scalar register; a write to `s0` is discarded. -/
def Ctx.ws (c : Ctx) (r : BitVec 6) (v : Word) : Ctx :=
  if r = 0 then c else { c with s := c.s.set r.toNat v (by exact r.isLt) }

/-- Remove the hoist-table entry tagged with a register that is written (R144). -/
def Ctx.unhoist (c : Ctx) (r : BitVec 6) : Ctx := { c with hoist := c.hoist.filter fun e => e.d != r.toNat }

/-- A predicate; `p0` reads as true. -/
def Ctx.rp (c : Ctx) (r : BitVec 4) : Bool := r = 0 || c.p.getLsbD r.toNat

/-- Write a predicate; a write to `p0` is discarded. -/
def Ctx.wp (c : Ctx) (r : BitVec 4) (v : Bool) : Ctx :=
  if r = 0 then c else { c with p := if v then c.p ||| (1#16 <<< r.toNat) else c.p &&& ~~~(1#16 <<< r.toNat) }

/-- A handle register. -/
def Ctx.rh (c : Ctx) (r : BitVec 4) : Handle := c.h[r.toNat]'(by exact r.isLt)

/-- Write a handle register whole (R148). -/
def Ctx.wh (c : Ctx) (r : BitVec 4) (v : Handle) : Ctx := { c with h := c.h.set r.toNat v (by exact r.isLt) }

/-- The scalar register that a slot reads. -/
def State.rs (s : State) (r : BitVec 6) : Word := s.ctx.rs r

/-- A mask of a bay. -/
def Bay.mask (x : Bay) (r : BitVec 3) : BitVec 128 := x.m[r.toNat]'(by exact r.isLt)

/-- Write a mask of a bay. -/
def Bay.setMask (x : Bay) (r : BitVec 3) (v : BitVec 128) : Bay := { x with m := x.m.set r.toNat v (by exact r.isLt) }

/-- Loop level `l`. -/
def Ctx.level (c : Ctx) (l : Nat) : Level := c.loops[l % 6]'(Nat.mod_lt _ (by decide))

/-- Replace loop level `l`. -/
def Ctx.setLevel (c : Ctx) (l : Nat) (x : Level) : Ctx :=
  { c with loops := c.loops.set (l % 6) x (Nat.mod_lt _ (by decide)) }

/-- The number of active loop levels (DEPTH of R241). -/
def Ctx.depth (c : Ctx) : Nat := (c.loops.toList.filter (·.act)).length

/-- OR flags into FPSTAT (R50). -/
def State.setFlags (s : State) (f : Flags) : State := s.modCtx fun c => { c with fpstat := orFlags c.fpstat f }

/-! ### Scheduling -/

/-- The places of steps within one timeline cycle's end (R60, R177, R51, R68). -/
def prioFree : Nat := 0
def prioCsr : Nat := 1
def prioRowClear : Nat := 2
def prioZero : Nat := 3
def prioFold : Nat := 4
def prioStep : Nat := 5
def prioMode : Nat := 6
def prioSnap : Nat := 7
def prioReg : Nat := 8
def prioPour : Nat := 9

/-- Put a step due at the end of a timeline cycle into the list, which is kept in order of cycle, place and issue. -/
def insertPend (x : Pend) : List Pend → List Pend
  | [] => [x]
  | y :: l =>
    if x.at_ < y.at_ ∨ (x.at_ = y.at_ ∧ x.prio < y.prio) then x :: y :: l else y :: insertPend x l

/-- Have a step run at the end of timeline cycle `t`. -/
def State.pendAt (s : State) (t prio : Nat) (i : Instr) (m : Msg := .none) : State :=
  s.modCtx fun c => { c with pend := insertPend ⟨t, prio, c.seqNo, i, m⟩ c.pend, seqNo := c.seqNo + 1 }

/-- Have a result of latency `lat` land: a bundle that issues `lat` timeline cycles later sees it (R67). -/
def State.later (s : State) (lat : Nat) (r : Result) (prio : Nat := prioReg) : State :=
  s.pendAt (s.ctx.tl + lat - 1) prio (.timelineResultLanding r)

/-- Write a scalar register with a latency; `s0` needs no result. -/
def State.wsLater (s : State) (lat : Nat) (r : BitVec 6) (v : Word) (f : Flags := {}) : State :=
  s.later lat (.sreg r v f)

/-- Write a predicate with a latency. -/
def State.wpLater (s : State) (lat : Nat) (r : BitVec 4) (v : Bool) (f : Flags := {}) : State :=
  s.later lat (.preg r v f)

/-- Put work into a list kept in order of its cycle, after work of the same cycle. -/
def insertTimer (x : Timer) : List Timer → List Timer
  | [] => [x]
  | y :: l => if x.at_ < y.at_ then x :: y :: l else y :: insertTimer x l

/-- Have an event served on die `i` in die-clock cycle `t`. -/
def State.at (s : State) (t : Nat) (i : DieIx) (e : Instr) (m : Msg := .none) : State :=
  { s with timers := insertTimer ⟨t, i, .instr e m⟩ s.timers }

/-- Have an event served on the current die `n` die-clock cycles from now. -/
def State.after (s : State) (n : Nat) (e : Instr) (m : Msg := .none) : State := s.at (s.now + n) s.cur e m

/-- Take the next of the times that the spec leaves open, at least 1 (log 3). -/
def State.takeWait (s : State) : Nat × State :=
  match s.waits with
  | [] => (1, s)
  | w :: ws => (max w 1, { s with waits := ws })

/-- Have an event served on the current die after a time that the spec leaves open. -/
def State.whenever (s : State) (e : Instr) (m : Msg := .none) : State :=
  let (w, s) := s.takeWait
  s.after w e m

/-- Put tasks of the current die before what remains of the cycle. -/
def State.push (s : State) (ws : List Work) : State := { s with todo := ws.map (⟨s.cur, ·⟩) ++ s.todo }

/-! ### Raw memory -/

/-- `n` bytes of a memory from address `a`; an unlisted byte reads 0 (log 5). -/
def rdBytes (m : List Host.Cell) (a : Nat) : Nat → List Byte
  | 0 => []
  | n + 1 => SMap.get 0 m a :: rdBytes m (a + 1) n

/-- Write bytes from address `a`. -/
def wrBytes (m : List Host.Cell) (a : Nat) : List Byte → List Host.Cell
  | [] => m
  | b :: bs => wrBytes (SMap.put 0 m a b) (a + 1) bs

/-- The number in `n` little-endian bytes of the cistern (R8). -/
def Mem.num (m : Mem) (a n : Nat) : Nat := bytesNat (rdBytes m.cistern a n)

/-- The cistern address of word `w` of bank `k` of bay `b` on die `d` (R134); the word count continues into the next
bank, modulo 128 (R211). -/
def wordAddr (d b k w : Nat) : Nat := d * 2 ^ 27 + b * 2 ^ 24 + (k + w / 8192) % 128 * 2 ^ 17 + w % 8192 * 16

/-- The die, bay, bank and word of a cistern address. -/
def adDie (a : Nat) : DieIx := ⟨bitsAt a 27 3, Nat.mod_lt _ (by decide)⟩
def adBay (a : Nat) : BayIx := ⟨bitsAt a 24 3, Nat.mod_lt _ (by decide)⟩
def adBank (a : Nat) : Nat := bitsAt a 17 7
def adWord (a : Nat) : Nat := bitsAt a 4 13

/-- The `n`-th word of a cistern range that starts at the word of `a` (R211). -/
def seqWord (a n : Nat) : Nat := wordAddr (adDie a).val (adBay a).val (adBank a) (adWord a + n)

/-- The granule index of a cistern address within its die (R310). -/
def granule (a : Nat) : Nat := (adBay a).val * 2048 + adBank a * 16 + adWord a / 512

/-- The address of byte 0 of granule `g` of die `d`. -/
def granAddr (d g : Nat) : Nat := d * 2 ^ 27 + g / 2048 * 2 ^ 24 + g % 2048 / 16 * 2 ^ 17 + g % 16 * 512 * 16

/-! ### Traps -/

/-- A trap that a slot raises: its cause, word 2 of the record, and the bays of word 0. -/
structure Trap where
  cause : Nat
  aux : Nat := 0
  bays : Nat := 0
  deriving DecidableEq, Repr

/-- INDEX and SEGVA of a bundle, as words 1 and TEPC hold them (R256). -/
def locWord (va idx : Nat) : Nat := bitsAt va 7 56 * 256 + idx % 256

/-- Address of the segment in force; 0 before the first. -/
def Ctx.segVa (c : Ctx) : Nat := match c.seg with | some g => g.va | none => 0

/-- The record of a trap that names the present bundle and resumes at it (R256, R258). -/
def Ctx.recOf (c : Ctx) (t : Trap) (slots : Nat) : TrapRec :=
  { cause := t.cause, slots := slots, bays := t.bays, idx := c.idx, va := c.segVa, aux := t.aux, rIdx := c.idx,
    rVa := c.segVa }

/-- Word 0 of a trap record (R256). -/
def recWord0 (r : TrapRec) (depth : Nat) : Nat :=
  r.cause % 256 + r.slots % 2 ^ 15 * 2 ^ 8 + r.bays % 256 * 2 ^ 23 + depth % 8 * 2 ^ 31 + b2n r.stale * 2 ^ 34

/-- The four words of a trap record (R256). -/
def recWords (r : TrapRec) (depth gtc : Nat) : Vector Word 4 :=
  #v[.ofNat 64 (recWord0 r depth), .ofNat 64 (locWord r.va r.idx), .ofNat 64 r.aux, .ofNat 64 gtc]

/-- Post a fault to the dispatcher (R382): die, kind, GTC and four words of detail. With 4,096 waiting the oldest makes room
and is counted as lost. -/
def State.postFault (s : State) (die kind : Nat) (detail : List Word) : State :=
  let w := [BitVec.ofNat 64 die, .ofNat 64 kind, .ofNat 64 s.gtc, 0] ++ (detail ++ List.replicate 4 0).take 4
  let s := { s with host := { s.host with msix := s.host.msix.set 1 (s.host.msix[1] + 1) } }
  s.modDisp fun p =>
    if p.faults.length < 4096 then { p with faults := p.faults ++ [w] }
    else { p with faults := p.faults.drop 1 ++ [w], lost := min (p.lost + 1) (2 ^ 32 - 1) }

/-- Kinds of posted faults; the spec numbers none (log 12). -/
def faultDouble : Nat := 1
def faultBroken : Nat := 2
def faultUnsync : Nat := 3
def faultRetire : Nat := 4
def faultDieLost : Nat := 5
def faultQueue : Nat := 6
def faultBankLost : Nat := 7
def faultLasting : Nat := 8

/-- A die stops for the dispatcher to take its context (R379, R381): nothing issues from now on. -/
def State.stopDie (s : State) : State :=
  (s.modDie fun d => { d with running := false, halting := true }).modCtx fun c => { c with trap := none, wait := [] }

/-- Causes that go to the dispatcher wherever they arise (R379). -/
def toDispatcher (cause : Nat) : Bool := cause == 0x0F || cause == 0x13

/-- Deliver a trap (R258, R379, R381): to the system trap segment, or to the dispatcher when a handler runs (TREC0 to
TREC3 then keep the first record), when the cause is 0x0F or 0x13, or when the context has no trap segment. The message
of the halt is the cause, plus 0x100, or plus 0x200 for a double trap. -/
def State.deliver (s : State) (r : TrapRec) : State :=
  let c := s.ctx
  let ws := recWords r c.depth s.gtc
  let keep := fun (s : State) => s.modCtx fun c =>
    if c.inH then { c with hoist := [] }
    else { c with trec := ws, tepc := .ofNat 64 (locWord r.rVa r.rIdx), hoist := [] }
  if c.inH || (c.tvec == 0 && !toDispatcher r.cause) then
    (keep (s.postFault (s.gdie s.cur) faultDouble ws.toList)).stopDie.after 256 .preemptionHalt
      (.status (0x200 + r.cause))
  else if toDispatcher r.cause then (keep s).stopDie.after 256 .preemptionHalt (.status (0x100 + r.cause))
  else
    s.modCtx fun c => { c with
      trec := ws, tepc := .ofNat 64 (locWord r.rVa r.rIdx), ppl := .ofNat 2 c.priv, inH := true, exw := r.exw,
      priv := 1, hoist := [], safecnt := 0, safeB := true, noDbrk := false, trap := none, wait := [], exiting := false,
      hold := 0, owed := c.hold, owedOf := c.holdOf,
      target := some { va := c.tvec.toNat, idx := 0 } }

/-- Raise a trap: results in flight land first (R65), then it is delivered. -/
def State.raise (s : State) (r : TrapRec) : State :=
  if s.ctx.pend = [] then s.deliver r else s.modCtx fun c => { c with trap := some r, wait := [] }

/-- The mask that names a slot in word 0 of the record (R65). -/
def slotBit (n : Nat) : Nat := if n = 0 then 0 else 2 ^ (n - 1)

/-- The running slot raises a trap before its bundle commits. -/
def State.slotRaise (s : State) (t : Trap) : State := s.raise (s.ctx.recOf t (slotBit s.slot))

/-- Return from a trap (R260): privilege and IN, the next bundle, the `EXIT` wait when EXW is set, and HOLD cycles
still owed under R287. The bundle's own HOLD is not applied. The boundary after it is safe (R240). DESIGN CHOICE (log 91):
a PPL of 2 or 3, which TSTAT does not define, becomes the privilege as it stands. -/
def State.tret (s : State) (skip nodbrk : Bool) : State :=
  s.modCtx fun c =>
    let t : Target := { va := bitsAt c.tepc.toNat 8 56 * 128, idx := bitsAt c.tepc.toNat 0 8 + b2n skip, chain := skip }
    { c with priv := c.ppl.toNat, inH := false, exw := false, hold := c.owed, holdOf := c.owedOf, owed := 0,
             noDbrk := nodbrk && !c.exw, safeB := true, exiting := c.exw, target := if c.exw then none else some t }

end Sys2Proof.Machine
end

