-- ==== Sys2Proof/Machine/Mem.lean ====
section
/-!
DEFINITION. Accesses to cistern words: the decode of R384 with its corrections, counts and freezes, partial and whole
writes (R386, R203), hoist-entry removal (R144), the granule table (R310, R311), shadows (R250), and the reservoir and
the stack as engines and the base die read and write them (R212, R388).
-/

namespace Sys2Proof.Machine

/-! ### Error events (R390, R396, R398) -/

/-- Note an error event of the current die: it is counted and recorded at the end of the cycle (R398). -/
def State.event (s : State) (chan kind loc : Nat) : State :=
  s.modErr fun e => { e with events := e.events ++ [(chan, kind, loc)] }

/-- Kinds of log records (R397). -/
def kCe : Nat := 1
def kStripe : Nat := 2
def kUe : Nat := 3
def kNm : Nat := 4
def kWordRet : Nat := 5
def kBankRet : Nat := 6
def kRebuilt : Nat := 7
def kBankLost : Nat := 8
def kLaneRet : Nat := 9
def kLaneUnrep : Nat := 10
def kHbmLast : Nat := 11

/-- The key of a bank among the banks of a die. -/
def bankKey (bay bank : Nat) : Nat := 128 * bay + bank

/-- Bank `b` of bay `y` of the die is lost (R393): every word of it reads uncorrectable. -/
def Err.isLost (e : Err) (bay bank : Nat) : Bool := SMap.get false e.lost (bankKey bay bank)

/-- The stripe of a word holds parity at its row (R384). -/
def Err.parityAt (e : Err) (bay bank w : Nat) : Bool :=
  let st := bank / 8
  let r := SMap.get 0 e.retired (16 * bay + st)
  let lost := (List.range 8).any fun k => e.isLost bay (8 * st + k)
  !lost && (r == 0 || (e.rcBusy && e.rcBay == bay && e.rcBank / 8 == st && decide (e.rcNext ≤ w)))

/-- Retire a bank (R392, R393): the first of its stripe starts a rebuild into the check bank, a second one is lost. The
retirement is recorded in the retirement map (R394), logged and posted. -/
def State.retireBank (s : State) (bay bank : Nat) : State :=
  let e := s.die.err
  let k := 16 * bay + bank / 8
  let a := wordAddr s.cur.val bay bank 0
  if e.isLost bay bank ∨ SMap.get 0 e.retired k = bank + 1 then s
  else
    let x := (s.cur.val, some (bay, bank))
    let s := s.modHost fun h => if h.retireMap.elem x then h else { h with retireMap := h.retireMap ++ [x] }
    if SMap.get 0 e.retired k = 0 ∧ e.rcBusy = false then
      ((s.modErr fun e => { e with retired := SMap.put 0 e.retired k (bank + 1), rcBank := bank, rcBay := bay,
                                   rcBusy := true, rcNext := 0 }).event (64 + bay) kBankRet a).postFault
        (s.gdie s.cur) faultRetire [.ofNat 64 a]
        |>.after 1 .bankRebuildWord
    else if SMap.get 0 e.retired k = 0 then
      -- one rebuild at a time: the next bank waits for the engine
      s.at (s.now + (8192 - e.rcNext) + 1) s.cur (.retireBank (.ofNat 3 s.cur.val) (.ofNat 3 bay) (.ofNat 7 bank)) (.status 1)
    else
      ((s.modErr fun e => { e with lost := SMap.put false e.lost (bankKey bay bank) true, lostBk := true }).event
        (64 + bay) kBankLost a).postFault (s.gdie s.cur) faultBankLost [.ofNat 64 a]

/-- A location is judged lasting (R390, R391). A cistern word moves to a spare word of its bank; the seventeenth such
word retires the bank. With AUTORET = 0 a lane is logged as unrepaired, and a word by its CE record (DEDUCED, log 99). -/
def State.lasting (s : State) (l : Loc) : State :=
  match l with
  | .word a =>
    let bay := (adBay a).val
    let key := bankKey bay (adBank a)
    let s := s.postFault (s.gdie s.cur) faultLasting [.ofNat 64 a]
    if s.die.err.autoret = false then s
    else if SMap.get 0 s.die.err.spare key < 16 then
      (s.modErr fun e => { e with spare := SMap.put 0 e.spare key (SMap.get 0 e.spare key + 1) }).event
        (64 + bay) kWordRet a
    else s.retireBank bay (adBank a)
  | .unit pc bg bk row unit =>
    let w := pc + bg * 64 + bk * 256 + row * 1024 + unit * 2 ^ 28
    (s.event pc kHbmLast w).postFault (s.gdie s.cur) faultLasting [.ofNat 64 w]
  | .lane port lane =>
    let w := port + lane * 256
    let s := s.postFault (s.gdie s.cur) faultLasting [.ofNat 64 w]
    let n := SMap.get 0 s.die.err.lanes port
    if s.die.err.autoret = false ∨ 4 ≤ n then s.event 72 kLaneUnrep w
    else
      let (t, s) := s.takeWait
      (s.modErr fun e => { e with lanes := SMap.put 0 e.lanes port (n + 1), down := e.down ++ [(port, lane)] }).after
        (min t 4000) (.laneReplacementDone port)

/-- The tracker entry that a new location takes: an empty place, else the one with the oldest first GTC (R390). -/
def dropOldest (l : List Track) : List Track :=
  if l.length < 64 then l
  else
    let m := l.foldl (fun m t => min m t.first) (2 ^ 64)
    match l.findIdx? fun t => t.first == m with
    | some i => l.eraseIdx i
    | none => l

/-- One correctable error at a location updates the fault tracker (R390). -/
def State.trackCe (s : State) (l : Loc) : State :=
  let e := s.die.err
  let cur := e.track.find? fun t => t.loc == l
  let t : Track := match cur with
    | some t => if s.gtc - t.first > e.errwin then ⟨l, 1, s.gtc⟩ else { t with count := t.count + 1 }
    | none => ⟨l, 1, s.gtc⟩
  let rest := match cur with
    | some _ => e.track.filter fun t => t.loc != l
    | none => dropOldest e.track
  if e.errthr ≤ t.count then (s.modErr fun e => { e with track := rest }).lasting l
  else s.modErr fun e => { e with track := rest ++ [t] }

/-! ### Reading a word (R384) -/

/-- What a read of a word delivers beside its data. -/
inductive WordSt where
  | good | poison | bad
  deriving DecidableEq, Repr

/-- The cause that a word's state gives (R135, R387). -/
def WordSt.cause : WordSt → Option Nat
  | .good => none
  | .poison => some 0x0A
  | .bad => some 0x0B

/-- The row of a word within its stripe, as the key of its parity word. -/
def chkKey (wa : Nat) : Nat := wa / 2 ^ 16 * 2 ^ 16 + wa % 2 ^ 13

/-- Another word of the stripe row of word address `wa` has a multi-bit error (R384). -/
def Mem.rowBad (m : Mem) (wa : Nat) : Bool :=
  let base := chkKey wa
  (List.range 8).any (fun k => base + k * 2 ^ 13 != wa && SMap.get .ok m.ecc (base + k * 2 ^ 13) == .multi) ||
    SMap.get .ok m.chk base == .multi

/-- Word `wa` (address div 16) reads uncorrectable (R384, R393). -/
def State.uncorr (s : State) (wa : Nat) : Bool :=
  let a := wa * 16
  let e := (s.dieAt (adDie a)).err
  let bay := (adBay a).val
  e.isLost bay (adBank a) ||
    (SMap.get .ok s.mem.ecc wa == .multi && !(e.parityAt bay (adBank a) (adWord a) && !s.mem.rowBad wa))

/-- Words that become uncorrectable within ERRWIN retire their bank at the sixteenth (R392). A word found so keeps the
time of its first find for as long as it reads uncorrectable. -/
def State.noteUe (s : State) (a : Nat) : State :=
  let bay := (adBay a).val
  let e := s.die.err
  let key := bankKey bay (adBank a)
  let l := e.ueWords.filter fun x => s.uncorr (x.2.1 / 16)
  let l := if l.any fun x => x.2.1 == a then l else l ++ [(key, a, s.gtc)]
  let s := s.modErr fun e => { e with ueWords := l }
  if 16 ≤ (l.filter fun x => x.1 == key && s.gtc - x.2.2 ≤ e.errwin).length then s.retireBank bay (adBank a) else s

/-- Decode one word (R384): its state afterwards, and whether a stripe correction was made. `timeline` reads owe one
freeze cycle for a stripe correction. -/
def State.decodeWord (s : State) (wa : Nat) (timeline : Bool) : State × WordSt × Bool :=
  let a := wa * 16
  let d := adDie a
  let chan := 64 + (adBay a).val
  let sound := if SMap.get false s.mem.pz wa then WordSt.poison else .good
  if s.uncorr wa then (s.onDie d fun s => (s.event chan kUe a).noteUe a, .bad, false)
  else
    match SMap.get .ok s.mem.ecc wa with
    | .ok => (s, sound, false)
    | .single =>
      let s := s.modMem fun m => { m with ecc := SMap.put .ok m.ecc wa .ok }
      (s.onDie d fun s => (s.event chan kCe a).trackCe (.word a), sound, false)
    | .multi =>
      let s := s.modMem fun m => { m with ecc := SMap.put .ok m.ecc wa .ok }
      let s := s.onDie d fun s => (s.event chan kStripe a).trackCe (.word a)
      (if timeline then s.onDie d fun s => s.modErr fun e => { e with freeze := 1 } else s, sound, true)

/-- The 16 bytes of a word as they stand. -/
def Mem.wordBytes (m : Mem) (wa : Nat) : List Byte := rdBytes m.cistern (wa * 16) 16

/-- The 8 lanes of a word (R8). -/
def lanesOf : List Byte → List Lane
  | a :: b :: l => (b ++ a : BitVec 16) :: lanesOf l
  | _ => []

/-- The bytes of lanes. -/
def bytesOf : List Lane → List Byte
  | [] => []
  | x :: l => x.setWidth 8 :: (x >>> 8).setWidth 8 :: bytesOf l

/-! ### Writing (R386, R203, R144, R26) -/

/-- The address of an access of `size` bytes: BYTE bits of *ea* below its size are ignored (R134). -/
def alignDown (ea size : Nat) : Nat := ea / size * size

/-- The first byte of a queued access. -/
def accAddr (o : MemOp) : Nat := alignDown o.ea o.size

/-- Byte `a` is one of the `2 ^ SIZE` bytes of a hoist-table entry. -/
def Hoist.covers (e : Hoist) (a : Nat) : Bool :=
  decide (alignDown e.ea (2 ^ e.size) ≤ a) && decide (a < alignDown e.ea (2 ^ e.size) + 2 ^ e.size)

/-- Remove the hoist-table entries with a byte among those that a write lands on (R144). -/
def Ctx.hoistBytes (c : Ctx) (as : List Nat) : Ctx :=
  { c with hoist := c.hoist.filter fun e => !as.any e.covers }

/-- Remove the hoist-table entries whose bytes `[a, a + n)` a write lands on (R144). -/
def Ctx.hoistWrite (c : Ctx) (a n : Nat) : Ctx :=
  { c with hoist := c.hoist.filter fun e =>
    !(decide (alignDown e.ea (2 ^ e.size) < a + n) && decide (a < alignDown e.ea (2 ^ e.size) + 2 ^ e.size)) }

/-- Write bytes of one word, given by offset. All 16 bytes clear PZ; fewer bytes into a poisoned or uncorrectable word
leave it poisoned; NR is cleared (R386, R203). -/
def State.putWord (s : State) (wa : Nat) (bs : List (Nat × Byte)) (timeline : Bool := false) : State :=
  if bs = [] then s
  else
    let whole := (List.range 16).all fun i => bs.any fun p => p.1 == i
    let (s, st) := if whole then (s, WordSt.good) else let r := s.decodeWord wa timeline; (r.1, r.2.1)
    let pz := !whole && st != .good
    let s := s.modMem fun m => { m with
      cistern := bs.foldl (fun m p => SMap.put 0 m (wa * 16 + p.1) p.2) m.cistern
      pz := SMap.put false m.pz wa pz
      nr := SMap.put false m.nr wa false
      ecc := SMap.put .ok m.ecc wa .ok }
    let d := adDie (wa * 16)
    s.onDie d fun s => s.modCtx fun c => c.hoistBytes (bs.map fun p => wa * 16 + p.1)

/-- Split bytes that start at address `a` into words: word address, and bytes by offset. -/
def splitWords (a : Nat) : List Byte → List (Nat × Nat × Byte)
  | [] => []
  | b :: bs => (a / 16, a % 16, b) :: splitWords (a + 1) bs

/-- Write bytes, each given by its word and its offset there, through the side port (R26). -/
def State.putCells (s : State) (l : List (Nat × Nat × Byte)) : State :=
  let ws := (l.map (·.1)).dedup
  let s := ws.foldl (fun s wa => s.putWord wa ((l.filter fun p => p.1 == wa).map (·.2))) s
  { s with sideW := s.sideW ++ l.map fun p => p.1 * 16 + p.2.1 }

/-- Write bytes from address `a` through the side port (R26). -/
def State.putBytes (s : State) (a : Nat) (bs : List Byte) : State := s.putCells (splitWords a bs)

/-- Set a word's poison (R387). -/
def State.poison (s : State) (wa : Nat) : State := s.modMem fun m => { m with pz := SMap.put false m.pz wa true }

/-! ### The granule table (R310, R311) -/

/-- Entry `g` of the granule table of die `d`, 32 bits. -/
def Mem.granEntry (m : Mem) (d g : Nat) : Nat := m.num (wordAddr d 7 127 (4096 + g / 4) + 4 * (g % 4)) 4

/-- MODE of an entry; a reserved mode or bit reads as unmapped. -/
def granMode (e : Nat) : Nat := if bitsAt e 12 4 ≠ 0 ∨ bitsAt e 0 3 = 7 then 0 else bitsAt e 0 3

/-- RO, PSET and OWNER of an entry. -/
def granRo (e : Nat) : Bool := bitAt e 3
def granPset (e : Nat) : Nat := bitsAt e 4 8
def granOwner (e : Nat) : Nat := bitsAt e 16 16

/-- The entry of the granule that holds a cistern address. -/
def Mem.entryOf (m : Mem) (a : Nat) : Nat := m.granEntry (adDie a).val (granule a)

/-- Kinds of access for R311. -/
inductive Acc where
  | load | store | pour | engine
  deriving DecidableEq, Repr

/-- The table of R311 for an entry: the domain, the privilege and the kind of access. -/
def granAllows (e dom priv : Nat) (k : Acc) : Bool :=
  let m := granMode e
  if m == 6 then decide (1 ≤ priv) && k != .engine
  else if m == 0 || m == 5 || !(granOwner e == dom || granOwner e == 0xFFFF) then false
  else
    match k with
    | .load => true
    | .store => decide (1 ≤ priv) || (m != 3 && !granRo e)
    | .pour => decide (1 ≤ priv) || (m != 3 && !granRo e)
    | .engine => m != 3 && !granRo e

/-- An access of the context on the current die to a cistern address is allowed (R311). -/
def State.allows (s : State) (a : Nat) (k : Acc) : Bool :=
  granAllows (s.mem.entryOf a) s.ctx.domid.toNat s.ctx.priv k

/-- A domain's engine request may read a cistern word of any die (R212): the granule is mapped for it and not RXW. -/
def State.engReads (s : State) (dom a : Nat) : Bool :=
  granAllows (s.mem.entryOf a) dom 0 .load && granMode (s.mem.entryOf a) != 3

/-- A domain's engine request may write a cistern word. -/
def State.engMayWrite (s : State) (dom a : Nat) : Bool := granAllows (s.mem.entryOf a) dom 0 .engine

/-! ### Tables in the cistern (R317 to R321) -/

/-- The address of byte `off` of a table at `base`, continuing across banks (R317, R305). -/
def tabAddr (base off : Nat) : Nat := seqWord base ((base % 16 + off) / 16) + (base % 16 + off) % 16

/-- The words of entry `i` of `size` bytes of a table. -/
def tabWords (base i size : Nat) : List Nat := ((List.range size).map fun k => tabAddr base (i * size + k) / 16).dedup

/-- Entry `i` of `size` bytes of a table of the die; none outside TABLE granules of the die, or where a word of it is
poisoned or uncorrectable (log 95). -/
def State.tabEntry (s : State) (base i size : Nat) : Option Nat :=
  let ok := fun w => adDie (16 * w) == s.cur && granMode (s.mem.entryOf (16 * w)) == 6 && !SMap.get false s.mem.pz w &&
    !s.uncorr w
  if base < 2 ^ 30 ∧ (tabWords base i size).all ok then
    some (bytesNat ((List.range size).map fun k => SMap.get 0 s.mem.cistern (tabAddr base (i * size + k))))
  else none

/-- The device reads an entry of a table of the die (R317): its words decode (R384). -/
def State.tabRead (s : State) (base i size : Nat) : State :=
  if adDie base = s.cur ∧ base < 2 ^ 30 then (tabWords base i size).foldl (fun s w => (s.decodeWord w false).1) s else s

/-- Where a reflected unit lands; none when the target refuses it (R321). -/
def State.unitAddr (s : State) (u : RUnit) : Option Nat :=
  match s.tabEntry s.die.win.rwbase.toNat u.wid 8 with
  | none => none
  | some e =>
    let g := bitsAt e 0 14 + u.off / 8192
    let a := granAddr s.cur.val g + u.off % 8192
    let sender := bitAt e 29 || (bitsAt e 21 5 == u.src / 8 && bitsAt e 26 3 == u.src % 8)
    let en := s.mem.granEntry s.cur.val g
    if bitAt e 20 && sender && decide (u.off < (bitsAt e 14 6 + 1) * 8192) && decide (g < 16384) && granMode en == 3 &&
        granPset en == u.wid % 256 then some a
    else none

/-! ### What arrives for a quantum boundary (R266) -/

/-- Word addresses of an access. -/
def opWords (o : MemOp) : List Nat := if o.size = 32 then [accAddr o / 16, accAddr o / 16 + 1] else [accAddr o / 16]

/-- GTC `b` is a quantum boundary of the die. -/
def Die.boundaryAt (d : Die) (b : Nat) : Bool := b % 2 ^ d.ord.qnow == 0

/-- An arrived access may commit at boundary `b` if nothing earlier of its issuer holds it. -/
def Arrived.ripe (x : Arrived) (b : Nat) : Bool := decide (x.a < b) && decide (x.phys < b)

/-- The words that an arrived access touches when it commits or is served. -/
def State.arrivedWords (s : State) (x : Arrived) : List Nat :=
  match x.verb, x.unit with
  | some v, _ => opWords v.op
  | none, some u => ((s.unitAddr u).toList).flatMap fun a => (List.range 4).filterMap fun k =>
      if (u.mask >>> (16 * k)).setWidth 16 = 0#16 then none else some (a / 16 + k)
  | none, none => []

/-! ### The side ports of the banks (R26, R384, R392) -/

/-- The bank of a word among the banks of the package. -/
def bankOf (wa : Nat) : Nat := wa / 2 ^ 13

/-- A side port that an access needs has served another one in the present cycle (R26), the quantum boundary among them
(R266). -/
def State.sideTaken (s : State) (ws : List Nat) : Bool := ws.any fun w => s.sideB.contains (bankOf w)

/-- The side ports of some words serve an access in the present cycle. -/
def State.takeSide (s : State) (ws : List Nat) : State := { s with sideB := s.sideB ++ ws.map bankOf }

/-- The bank of a word is being rebuilt: a side-port access to it waits eight die-clock cycles (R392). -/
def State.rebuilding (s : State) (wa : Nat) : Bool :=
  let e := (s.dieAt (adDie (wa * 16))).err
  e.rcBusy && e.rcBay == (adBay (wa * 16)).val && e.rcBank == adBank (wa * 16)

/-- A read of the word would make a stripe correction, which delays a side-port access by eight cycles (R384). -/
def State.stripeDue (s : State) (wa : Nat) : Bool := SMap.get .ok s.mem.ecc wa == .multi && !s.uncorr wa

/-- The die-clock cycles for which an access to some words still waits, and whether a delay of eight cycles begins: the
rebuild of a bank, a stripe correction of a word that it reads, or a side port in use. `ready` is the cycle to which an
earlier delay has put it off, 0 when there was none. -/
def State.sideDelay (s : State) (ready : Nat) (all reads : List Nat) : Option (Nat × Bool) :=
  if s.now < ready then some (ready - s.now, false)
  else if ready = 0 ∧ all.any s.rebuilding then some (8, true)
  else if ready = 0 ∧ reads.any s.stripeDue then some (8, true)
  else if s.sideTaken all then some (1, false)
  else none

/-! ### Shadows (R250) -/

/-- The shadow of a granule of a die, if an open set covers it. -/
def Die.shadowOf (d : Die) (g : Nat) : Option Nat :=
  (d.sets.flatMap (·.maps)).findSome? fun m => if m.1 == g then some m.2 else none

/-- Where an engine access to a cistern address lands: the shadow of its granule if it has one (R250). -/
def State.engAddr (s : State) (a : Nat) : Nat :=
  match (s.dieAt (adDie a)).shadowOf (granule a) with
  | some g => granAddr (adDie a).val g + a % 8192
  | none => a

/-- What an engine writes to an address is discarded: its set was freed in the meantime (R251). -/
def State.engDrops (s : State) (a : Nat) : Bool := adDie a == s.cur && s.drop.contains (granule a)

/-- An engine write of bytes within one word (R250, R273). -/
def State.engWrite (s : State) (a : Nat) (bs : List Byte) : State :=
  if s.engDrops a then s else s.putBytes (s.engAddr a) bs

/-- Run engine work that discards what it writes to some granules. -/
def State.dropping (s : State) (l : List Nat) (f : State → State) : State :=
  { f { s with drop := l } with drop := [] }

/-- A domain's completion word can be written (R213): it lies on the issuing die in a mapped granule that is not RXW. -/
def State.completes (s : State) (dom caddr : Nat) : Bool :=
  decide (caddr < 2 ^ 30) && adDie (caddr / 16 * 16) == s.cur && s.engReads dom (caddr / 16 * 16)

/-- Write a completion word for a domain (R213): value and status in one access; not mapped on the issuing die: the
engine error bit. -/
def State.complete (s : State) (dom caddr : Nat) (val : Word) (status : Nat) : State :=
  if s.completes dom caddr then s.engWrite (caddr / 16 * 16) (natBytes val.toNat 8 ++ natBytes status 8)
  else s.modDie fun d => { d with engErr := true }

/-! ### The reservoir and the stack -/

/-- The key of byte `b` of a physical row of a bank of a die's stack. -/
def hbmKey (die bank row b : Nat) : Nat := ((die * 1024 + bank) * 65536 + row) * 1024 + b

/-- The key of a 32-byte unit. -/
def unitKey (die bank row u : Nat) : Nat := ((die * 1024 + bank) * 65536 + row) * 32 + u

/-- The number of a bank among the 1,024 of a stack. -/
def bankNum (b : BankId) : Nat := b.pc.toNat * 16 + b.bg.toNat * 4 + b.bk.toNat

/-- WHERE of a unit: `NM.STAT` SEL 1 of R228. -/
def unitWhere (bank row u : Nat) : Nat :=
  bank / 16 + bank / 4 % 4 * 64 + bank % 4 * 256 + row % 2 ^ 18 * 1024 + u * 2 ^ 28

/-- Read a unit of the stack (R388): data, and whether it is poisoned. The first find of an uncorrectable unit writes
the poison code word and counts one UE. -/
def State.readUnit (s : State) (bank row u : Nat) : State × List Byte × Bool :=
  let k := unitKey s.cur.val bank row u
  let data := rdBytes s.mem.hbm (hbmKey s.cur.val bank row (32 * u)) 32
  if SMap.get false s.mem.hbmPz k then (s, data, true)
  else
    match SMap.get .ok s.mem.hbmErr k with
    | .ok => (s, data, false)
    | .single =>
      let s := s.modMem fun m => { m with hbmErr := SMap.put .ok m.hbmErr k .ok }
      ((s.event (bank / 16) kCe (unitWhere bank row u)).trackCe
        (.unit (bank / 16) (bank / 4 % 4) (bank % 4) row u), data, false)
    | .multi =>
      let s := s.modMem fun m => { m with hbmErr := SMap.put .ok m.hbmErr k .ok, hbmPz := SMap.put false m.hbmPz k true }
      (s.event (bank / 16) kUe (unitWhere bank row u), data, true)

/-- Write a whole unit: its data and its poison (R284, R388). -/
def State.writeUnit (s : State) (bank row u : Nat) (bs : List Byte) (pz : Bool) : State :=
  let k := unitKey s.cur.val bank row u
  s.modMem fun m => { m with
    hbm := wrBytes m.hbm (hbmKey s.cur.val bank row (32 * u)) bs
    hbmPz := SMap.put false m.hbmPz k pz
    hbmErr := SMap.put .ok m.hbmErr k .ok }

end Sys2Proof.Machine
end

