-- ==== Sys2Proof/Machine/Hbm.lean ====
section
/-!
DEFINITION. The pump's side of the stack: tile geometry (R302 to R304), leaves (R305, R306), translation (R308), table
images (R279), bank state and dead rows (R293, R309), and the checks of a row (R281, R286, R287).
-/

namespace Sys2Proof.Machine

/-! ### Geometry (R302 to R304) -/

/-- Fields of a handle (R146). -/
def hId (h : Handle) : Nat := bitsAt h.toNat 240 16
def hFmt (h : Handle) : Nat := bitsAt h.toNat 236 4
def hLayout (h : Handle) : Nat := bitsAt h.toNat 232 4
def hSwz (h : Handle) : Nat := bitsAt h.toNat 226 6
def hRank (h : Handle) : Nat := bitsAt h.toNat 224 2 + 1
def hExt (h : Handle) (k : Nat) : Nat := bitsAt h.toNat (160 + 16 * k) 16
def hTile (h : Handle) (k : Nat) : Nat := bitsAt h.toNat (144 + 4 * k) 4
def hBase (h : Handle) : Nat := bitsAt h.toNat 48 32
def hMode (h : Handle) : Nat := bitsAt h.toNat 0 2
def hResid (h : Handle) : Nat := bitsAt h.toNat 2 2

/-- The handle fails the check of R146: a reserved format, mode or flag. -/
def hBad (h : Handle) : Bool := 13 ≤ hFmt h || hMode h == 3 || bitsAt h.toNat 5 27 != 0

/-- Where the tiles of a tensor lie: its id, size code and swizzle. -/
structure Geom where
  id : Nat
  size : Nat
  swz : Nat
  deriving DecidableEq, Repr

/-- Log2 of the fan, the order, the bytes of a frame, and the rows of a frame in each bank (R303). -/
def Geom.fan (g : Geom) : Nat := g.swz % 16
def Geom.order (g : Geom) : Nat := g.swz / 16 % 4
def Geom.bytes (g : Geom) : Nat := 8192 * 2 ^ (5 * g.size)
def Geom.rows (g : Geom) : Nat := g.bytes / (1024 * 2 ^ g.fan)

/-- A swizzle is not reserved for a size (R303). -/
def swzOk (swz size : Nat) : Bool :=
  swz / 16 % 4 != 3 && decide (swz % 16 ≤ (match size with | 0 => 3 | 1 => 8 | _ => 10))

/-- The size code of a tile of `b` bytes. -/
def sizeCode (b : Nat) : Option Nat :=
  if b = 8192 then some 0 else if b = 262144 then some 1 else if b = 8388608 then some 2 else none

/-- The bytes of a tile of a handle's tensor (R302). -/
def hTileBytes (h : Handle) : Nat := 2 ^ ((List.range (hRank h)).map (hTile h)).sum * elemBits (hFmt h) / 8

/-- The handle has a reserved layout, an extent of 0, or no id (R302). -/
def hShapeBad (h : Handle) : Bool :=
  decide (2 ≤ hLayout h) || ((List.range (hRank h)).map (hExt h)).contains 0 || hId h == 0

/-- The handle has a reserved swizzle (R303); the limit of a tile that has no size code is that of the largest. -/
def hSwzBad (h : Handle) : Bool := !swzOk (hSwz h) ((sizeCode (hTileBytes h)).getD 2)

/-- The tile count and the geometry of a handle's tensor; none is cause 0x17 (R302, R303, R146). -/
def geomOf (h : Handle) : Option (Nat × Geom) :=
  let r := hRank h
  let ext := (List.range r).map (hExt h)
  let t := (List.range r).map (hTile h)
  if hBad h || hShapeBad h then none
  else
    match sizeCode (hTileBytes h) with
    | none => none
    | some c =>
      if swzOk (hSwz h) c then
        some (((ext.zip t).map fun x => ceilDiv x.1 (2 ^ x.2)).prod, { id := hId h, size := c, swz := hSwz h })
      else none

/-- The enumeration index of a bank, and the converse (R303). -/
def bankIndex (order pc bg bk : Nat) : Nat :=
  match order with
  | 0 => pc + 64 * bg + 256 * bk
  | 1 => bg + 4 * pc + 256 * bk
  | _ => pc * 16 + bg * 4 + bk

def indexBank (order e : Nat) : Nat :=
  match order with
  | 0 => e % 64 * 16 + e / 64 % 4 * 4 + e / 256 % 4
  | 1 => e / 4 % 64 * 16 + e % 4 * 4 + e / 256 % 4
  | _ => e % 1024

/-- A bank lies in the bank set (R303). -/
def Geom.has (g : Geom) (bank : Nat) : Bool :=
  let e := bankIndex g.order (bank / 16) (bank / 4 % 4) (bank % 4)
  decide ((e + 1024 - g.id * 2 ^ g.fan % 1024) % 1024 < 2 ^ g.fan)

/-- Bank `m` of the bank set. -/
def Geom.bank (g : Geom) (m : Nat) : Nat := indexBank g.order ((g.id * 2 ^ g.fan + m) % 1024)

/-- Bank, row within the frame, and 32-byte unit of byte offset `o` of a tile (R304). -/
def Geom.place (g : Geom) (o : Nat) : Nat × Nat × Nat :=
  (g.bank (bitsAt o 6 g.fan), o / 2 ^ (10 + g.fan), 2 * bitsAt o (6 + g.fan) 4 + bitsAt o 5 1)

/-- The byte offset in the tile of a unit of a row of a bank of the set. -/
def Geom.offset (g : Geom) (bank rl u : Nat) : Nat :=
  let e := bankIndex g.order (bank / 16) (bank / 4 % 4) (bank % 4)
  let m := (e + 1024 - g.id * 2 ^ g.fan % 1024) % 1024
  rl * 2 ^ (10 + g.fan) + u / 2 * 2 ^ (6 + g.fan) + m * 64 + u % 2 * 32

/-! ### Leaves (R305, R306) -/

/-- Cistern address of leaf `i` of the current die. -/
def State.leafAddr (s : State) (i : Nat) : Nat := seqWord (wordAddr s.cur.val (adBay s.ctx.leafBase).val
  (adBank s.ctx.leafBase) (adWord s.ctx.leafBase)) i

/-- The 128 bits of a leaf. -/
def State.leafAt (s : State) (a : Nat) : Nat := s.mem.num a 16

def lfFrame (l : Nat) : Nat := bitsAt l 0 32
def lfSize (l : Nat) : Nat := bitsAt l 64 2
def lfSwz (l : Nat) : Nat := bitsAt l 66 6
def lfTier (l : Nat) : Nat := bitsAt l 72 1
def lfMode (l : Nat) : Nat := bitsAt l 74 2
def lfPeer (l : Nat) : Nat := bitsAt l 76 8
def lfValid (l : Nat) : Bool := bitAt l 84
def lfMoving (l : Nat) : Bool := bitAt l 85
def lfDead (l : Nat) : Bool := bitAt l 86

/-- A leaf is resident in the stack. -/
def lfHbm (l : Nat) : Bool := lfValid l && lfTier l == 0

/-- A frame lies in its tier: within the rows of the stack, or within the part of the reservoir that the context may name
(R306, R315). -/
def frameOk (c : Ctx) (g : Geom) (tier frame : Nat) : Bool :=
  if tier = 0 then decide ((frame + 1) * g.rows ≤ 65536)
  else decide (c.rbase ≤ frame * g.bytes) && decide ((frame + 1) * g.bytes ≤ c.rbase + c.rlen)

/-- A leaf passes the checks of R306 and R315 for a geometry. -/
def leafOk (c : Ctx) (g : Geom) (l : Nat) : Bool :=
  lfSize l == g.size && lfSwz l == g.swz && bitsAt l 88 40 == 0 && frameOk c g (lfTier l) (lfFrame l)

/-- The index of the leaf at a cistern address of the die's array, which runs on through the banks of its bay (R305). -/
def Ctx.leafIndex (c : Ctx) (a : Nat) : Nat :=
  let place := fun (x : Nat) => adBank x * 8192 + adWord x
  (place a + 2 ^ 20 - place c.leafBase) % 2 ^ 20

/-! ### Translation (R308) -/

/-- A translated row: the leaf's address and value, the handle's MODE and RESID, and the physical row if resident. -/
structure Trans where
  leaf : Nat
  word : Nat
  hmode : Nat
  resid : Nat
  /-- Tensor id of the handle. -/
  id : Nat
  row : Option Nat
  deriving DecidableEq, Repr

/-- Translate the ROWCOL of an ACT or REFR with PHYS 0; the error is a trap cause. -/
def State.translate (s : State) (isAct : Bool) (bank rowcol tabSwz : Nat) : Except Nat Trans :=
  let h := s.ctx.rh (.ofNat 4 (bitsAt rowcol 14 3))
  match geomOf h with
  | none => .error 0x17
  | some (n, g) =>
    if !g.has bank then .error 0x09
    else
      let v := bitsAt rowcol 0 14
      let t := v / g.rows
      if n ≤ t ∨ s.ctx.leafN ≤ hBase h + t then .error 0x09
      else
        let a := s.leafAddr (hBase h + t)
        let l := s.leafAt a
        if !leafOk s.ctx g l then .error 0x09
        else if lfSwz l ≠ tabSwz then .error 0x09
        else if isAct && lfMode l == 1 then .error 0x0D
        else .ok { leaf := a, word := l, hmode := hMode h, resid := hResid h, id := g.id,
                   row := if lfHbm l then some (lfFrame l * g.rows + v % g.rows) else none }

/-! ### Table images (R279) -/

/-- The 64-bit words of a byte image. -/
def imgWord (img : List Byte) (i : Nat) : Nat := bytesNat ((img.drop (8 * i)).take 8)

/-- Read the records of an image from word `i`; the error is the byte offset of the first fault. -/
def parseRecs (img : List Byte) (nrows : Nat) : Nat → Nat → Nat → Except Nat (List (Nat × List Nat × List Nat))
  | 0, _, _ => .ok []
  | fuel + 1, i, row =>
    if img.length ≤ 8 * i then .ok []
    else if img.length < 8 * i + 8 then .error (8 * i)
    else
      let w := imgWord img i
      let n := bitsAt w 24 4
      let k := bitsAt w 28 2
      let r := row + bitsAt w 0 24
      if bitsAt w 30 34 ≠ 0 ∨ 8 < n ∨ 2 < k ∨ nrows ≤ r ∨ img.length < 8 * (i + 1 + n + k) then .error (8 * i)
      else
        match parseRecs img nrows fuel (i + 1 + n + k) (r + 1) with
        | .ok l => .ok ((r, (List.range n).map fun j => imgWord img (i + 1 + j),
            (List.range k).map fun j => imgWord img (i + 1 + n + j)) :: l)
        | .error e => .error e

/-- Read a table image. -/
def parseTable (img : List Byte) : Except Nat PumpTab :=
  if img.length < 64 then .error 0
  else
    let w := imgWord img 0
    let nrows := bitsAt w 0 24
    let bad := (List.range 8).find? fun i => if i = 0 then bitsAt w 55 9 != 0 || nrows == 0 || decide (nrows ≤ bitsAt w 24 24)
      else imgWord img i != 0
    match bad with
    | some i => .error (8 * i)
    | none =>
      match parseRecs img nrows (img.length / 8 + 1) 8 0 with
      | .error e => .error e
      | .ok rows => .ok { nrows := nrows, looprow := bitsAt w 24 24, wrap := bitAt w 48, swz := bitsAt w 49 6, rows := rows }

/-- The words and halves of a row; a row that no record reaches is empty. -/
def PumpTab.rowAt (t : PumpTab) (r : Nat) : List Nat × List Nat :=
  match t.rows.find? fun x => x.1 == r with
  | some x => x.2
  | none => ([], [])

/-- An idle image holds only Skip, PRE, PREA and REFR (R289). -/
def PumpTab.idleOk (t : PumpTab) : Bool :=
  t.rows.all fun x => x.2.2 == [] && x.2.1.all fun w =>
    match decodePump w none with
    | .ok .pumpSkip => true
    | .ok (.pre _) => true
    | .ok (.prea _) => true
    | .ok (.refr _ _) => true
    | _ => false

/-! ### Bank state -/

def Pump.bankAt (p : Pump) (b : Nat) : OpenRow := SMap.get .closed p.bank b
def Pump.isDead (p : Pump) (b r : Nat) : Bool := SMap.get false p.dead (b * 65536 + r)

/-- Refresh debt of a bank (R291). -/
def Pump.debtAt (p : Pump) (b : Nat) : Int := p.debt + SMap.get 0 p.debtOf b

/-- Change the debt of a bank by a REFR, to no less than −REFPOST. -/
def Pump.payDebt (p : Pump) (b : Nat) : Pump :=
  let d := max (p.debtAt b - 1) (-(p.refpost : Int))
  { p with debtOf := SMap.put 0 p.debtOf b (d - p.debt) }

/-- Largest debt of any bank. -/
def Pump.maxDebt (p : Pump) : Int :=
  let all : Bool := decide (1024 ≤ p.debtOf.length)
  p.debtOf.foldl (fun m x => max m (p.debt + x.2)) (if all then p.debtAt 0 else p.debt)

/-- The first bank whose debt exceeds REFPOST (R291). -/
def Pump.indebted (p : Pump) : Option Nat :=
  if p.maxDebt ≤ p.refpost then none
  else (List.range 1024).find? fun b => decide ((p.refpost : Int) < p.debtAt b)

/-- MAXC (R288). -/
def Pump.maxc (p : Pump) : Nat := p.t.toList.foldl max 0

/-! ### Constraints (R286) -/

def isActiv (c : Nat) : Bool := c == 1 || c == 6
def isCol (c : Nat) : Bool := c == 2 || c == 3 || c == 7

/-- An earlier command `e` is one that constraint `id` names for the later command `c` on bank `b`. -/
def names (id : Nat) (e : PumpCmd) (c b : Nat) : Bool :=
  let pc := e.bank / 16 == b / 16
  let bg := e.bank / 4 == b / 4
  let same := e.bank == b
  let closes := (c == 4 && same) || (c == 5 && pc)
  match id with
  | 1 => e.cmd == 1 && isCol c && same
  | 2 => isActiv c && ((e.cmd == 4 && same) || (e.cmd == 5 && pc))
  | 3 => e.cmd == 1 && closes
  | 4 => e.cmd == 1 && c == 1 && same
  | 5 => isActiv e.cmd && isActiv c && pc && !bg
  | 6 => isActiv e.cmd && isActiv c && bg && !same
  | 8 => isCol e.cmd && isCol c && pc && !bg
  | 9 => isCol e.cmd && isCol c && bg
  | 10 => e.cmd == 3 && closes
  | 11 => e.cmd == 3 && c == 2 && pc && !bg
  | 12 => e.cmd == 3 && c == 2 && bg
  | 13 => e.cmd == 2 && closes
  | 14 => e.cmd == 6 && isActiv c && same
  | 15 => e.cmd == 7 && (((c == 2 || c == 3) && same) || closes)
  | _ => false

/-- Register of a constraint. -/
def Pump.reg (p : Pump) (id : Nat) : Nat := p.t.toList.getD (id - 1) 0

/-- A command at cycle `now` breaks constraint `id` against a history, the latest first. -/
def Pump.breaks (p : Pump) (hist : List PumpCmd) (now id c b : Nat) : Bool :=
  if id = 7 then
    isActiv c && match (hist.filter fun e => isActiv e.cmd && e.bank / 16 == b / 16)[3]? with
      | some e => decide (now - e.at_ < p.reg 7)
      | none => false
  else hist.any fun e => names id e c b && decide (now - e.at_ < p.reg id)

/-- The lowest of constraints 1 to 15 that a command breaks. -/
def Pump.firstBroken (p : Pump) (hist : List PumpCmd) (now c b : Nat) : Option Nat :=
  (List.range 15).findSome? fun k => if p.breaks hist now (k + 1) c b then some (k + 1) else none

/-- Constraint 17 (R286). -/
def stateBroken (o : OpenRow) (c : Nat) : Bool := if isActiv c then o != .closed else isCol c && o == .closed

/-! ### The checks of a row (R281, R286, R287) -/

/-- The simulated state of the checks: banks, history, and the words checked so far. -/
structure RowSt where
  bank : SMap OpenRow
  hist : List PumpCmd
  done : List (Nat × Instr)

/-- Command code and bank of a pump command; PREA has bank 0 of its channel. -/
def cmdOf : Instr → Nat × Nat
  | .act b _ => (1, bankNum b)
  | .rd b _ _ => (2, bankNum b)
  | .wr b _ _ => (3, bankNum b)
  | .pre b => (4, bankNum b)
  | .prea pc => (5, pc.toNat * 16)
  | .refr b _ => (6, bankNum b)
  | .nmcFade n => (7, bankNum n.bank)
  | .nmcAxpy n => (7, bankNum n.bank)
  | .nmcAdd n => (7, bankNum n.bank)
  | .nmcScale n => (7, bankNum n.bank)
  | .nmcFill n => (7, bankNum n.bank)
  | _ => (0, 0)

/-- The CADDR that a command carries, if it uses one. -/
def caddrOf : Instr → Option Nat
  | .rd _ _ a => some a.toNat
  | .wr _ _ a => some a.toNat
  | .nmcFade n => some n.caddr.toNat
  | .nmcAxpy n => some n.caddr.toNat
  | .nmcAdd n => some n.caddr.toNat
  | _ => none

/-- Source units of a near-memory command (R406). -/
def nmcSource : Instr → Option (Nat × Nat)
  | .nmcFade n => some (n.caddr.toNat, n.count.toNat + 1)
  | .nmcAxpy n => some (n.caddr.toNat, n.count.toNat + 1)
  | .nmcAdd n => some (n.caddr.toNat, n.count.toNat + 1)
  | _ => none

/-- The cistern addresses of the source words of a near-memory command (R406). -/
def nmcWordsAt (caddr units : Nat) : List Nat := (List.range (2 * units)).map fun k => seqWord (caddr / 32 * 32) k

/-- Legality beyond the word itself: the die of CADDR, and PHYS (R223, R308). -/
def legal (die : Nat) (i : Instr) : Bool :=
  (match caddrOf i with
   | some a => decide (a < 2 ^ 30) && (adDie a).val == die
   | none => true) &&
  (match i with
   | .act _ rc => !rc.getLsbD 17
   | .refr _ rc => !rc.getLsbD 17 || !rc.getLsbD 16
   | _ => true)

/-- What an open bank becomes with a translated ACT (R309, R293). -/
def Pump.opened (p : Pump) (b : Nat) (t : Trans) : OpenRow :=
  match t.row with
  | none => .void t.leaf t.hmode (lfMode t.word)
  | some r =>
    if lfDead t.word then .deadTile t.leaf t.hmode (lfMode t.word)
    else .row r (some (t.leaf, t.id)) t.hmode t.resid (lfMode t.word) (p.isDead b r) false false

/-- MODE of the handle and of the leaf under which a bank is open. -/
def openModes : OpenRow → Option (Nat × Nat)
  | .closed => none
  | .row _ _ h _ l _ _ _ => some (h, l)
  | .void _ h l => some (h, l)
  | .deadTile _ h l => some (h, l)

/-- A command breaks the mode under which its bank is open: cause 0x0D (R309). -/
def modeBroken (o : OpenRow) (c : Nat) : Bool :=
  match openModes o with
  | some (h, l) => ((c == 3 || c == 7) && (h == 1 || l == 2)) || (c == 2 && h == 2)
  | none => false

/-- Translation and modes of a command: a cause, or the row that an ACT opens (R308, R309, R406). -/
def State.cmdTrans (s : State) (r : RowSt) (tabSwz : Nat) (i : Instr) : Except Nat (Option OpenRow) :=
  match i with
  | .act b rc =>
    match s.translate true (bankNum b) rc.toNat tabSwz with
    | .ok t => .ok (some (s.die.pump.opened (bankNum b) t))
    | .error c => .error c
  | .refr b rc =>
    if rc.getLsbD 17 then .ok none
    else match s.translate false (bankNum b) rc.toNat tabSwz with
      | .ok _ => .ok none
      | .error c => .error c
  | _ =>
    let (c, b) := cmdOf i
    if modeBroken (SMap.get .closed r.bank b) c then .error 0x0D
    else match nmcSource i with
      | some (a, n) =>
        if (nmcWordsAt a n).all fun x => s.allows x .load && granMode (s.mem.entryOf x) != 3 then .ok none
        else .error 0x0D
      | none => .ok none

/-- A row exceeds R281 with one more command: its channel's row or column command, or the bay's RDs or WRs. -/
def overRow (done : List (Nat × Instr)) (i : Instr) : Bool :=
  let (c, b) := cmdOf i
  let isRow := fun (c : Nat) => c == 1 || c == 4 || c == 5 || c == 6
  let chan := fun (f : Nat → Bool) => f c && done.any fun x => f (cmdOf x.2).1 && (cmdOf x.2).2 / 16 == b / 16
  let bay := fun (k : Nat) => c == k && decide (3 ≤ (done.filter fun x => (cmdOf x.2).1 == k &&
    (caddrOf x.2).map adBay == (caddrOf i).map adBay).length)
  chan isRow || chan isCol || bay 2 || bay 3

/-- The first constraint of R286 that a command of a row breaks, with the bank it is reported for. -/
def State.rowConstraint (s : State) (r : RowSt) (hold : Bool) (i : Instr) : Option (Nat × Nat) :=
  let p := s.die.pump
  let (c, b) := cmdOf i
  match p.firstBroken r.hist s.ctx.ptl c b with
  | some k => some (k, b)
  | none =>
    match p.indebted with
    | some d => some (16, d)
    | none =>
      if stateBroken (SMap.get .closed r.bank b) c then some (17, b)
      else if c = 3 && hold then some (18, b)
      else if overRow r.done i then some (19, b)
      else none

/-- The state of the checks after a command. -/
def RowSt.after (r : RowSt) (now pos : Nat) (i : Instr) (op : Option OpenRow) : RowSt :=
  let (c, b) := cmdOf i
  { bank := match op with
      | some o => SMap.put .closed r.bank b o
      | none => if c = 4 then SMap.put .closed r.bank b .closed
        else if c = 5 then r.bank.filter fun x => x.1 / 16 != b / 16 else r.bank
    hist := ⟨c, b, now⟩ :: r.hist
    done := r.done ++ [(pos, i)] }

/-- Word 2 of a pump trap (R287). -/
def pumpAux (row bank id pos : Nat) (hold : Bool) (left : Nat) (half : Bool) : Nat :=
  row % 2 ^ 24 + bank / 16 * 2 ^ 24 + bank / 4 % 4 * 2 ^ 30 + bank % 4 * 2 ^ 32 + id * 2 ^ 34 + pos * 2 ^ 40 +
    b2n hold * 2 ^ 43 + left % 16 * 2 ^ 44 + b2n half * 2 ^ 48

/-- The bank fields of a command word as they stand. -/
def rawBank (w : Nat) : Nat := bitsAt w 54 6 * 16 + bitsAt w 52 2 * 4 + bitsAt w 50 2

/-- Check the words of a row from position `pos`. The error is the cause and word 2 of the trap. -/
def State.rowWords (s : State) (tabSwz row : Nat) (hold : Bool) (left : Nat) :
    List (Nat × Option Nat) → Nat → RowSt → Except (Nat × Nat) RowSt
  | [], _, r => .ok r
  | (w, half) :: l, pos, r =>
    match decodePump w half with
    | .error _ => .error (0x02, pumpAux row (rawBank w) 0 pos hold left false)
    | .ok .pumpSkip => s.rowWords tabSwz row hold left l (pos + 1) r
    | .ok i =>
      let b := rawBank w
      if !legal s.cur.val i then .error (0x02, pumpAux row b 0 pos hold left false)
      else
        match s.cmdTrans r tabSwz i with
        | .error c => .error (c, pumpAux row b 0 pos hold left false)
        | .ok op =>
          match s.rowConstraint r hold i with
          | some (k, d) => .error (0x08, pumpAux row d k pos hold left false)
          | none => s.rowWords tabSwz row hold left l (pos + 1) (r.after s.ctx.ptl pos i op)

/-- A near-memory command word. -/
def isNmc (w : Nat) : Bool := bitsAt w 60 4 == 7

/-- Pair the near-memory words of a row with its halves in order (R225). -/
def pairHalves : List Nat → List Nat → List (Nat × Option Nat)
  | [], _ => []
  | w :: ws, hs => if isNmc w then (w, hs.head?) :: pairHalves ws hs.tail else (w, none) :: pairHalves ws hs

/-- The words of a row as they are checked before its halves: a near-memory word without a half stands for itself. -/
def wordsAlone (ws hs : List Nat) : List (Nat × Option Nat) :=
  (pairHalves ws hs).map fun x => if isNmc x.1 then (x.1, some (x.2.getD 0)) else x

/-- The check of a row's halves (R225, R287): word 2 of the trap for the first near-memory word without a half, or for the
first half without a word. -/
def halvesAux (row : Nat) (hold : Bool) (left : Nat) (ws hs : List Nat) : Option Nat :=
  let nm := ws.zipIdx.filter fun x => isNmc x.1
  match nm[hs.length]? with
  | some x => some (pumpAux row (rawBank x.1) 0 x.2 hold left false)
  | none => if nm.length < hs.length then some (pumpAux row 0 0 nm.length hold left true) else none

/-- The checks of the active table's row in a timeline cycle (R286, R287): the commands to issue, or the trap. -/
def State.rowCheck (s : State) (hold : Bool) (left : Nat) : Except (Nat × Nat) (List (Nat × Instr)) :=
  match s.ctx.pump.active with
  | none => .ok []
  | some t =>
    if s.ctx.inH then .ok []
    else
      let row := s.ctx.pump.row
      let (ws, hs) := t.rowAt row
      match s.rowWords t.swz row hold left (wordsAlone ws hs) 0 ⟨s.die.pump.bank, s.ctx.pump.hist, []⟩ with
      | .error e => .error e
      | .ok r =>
        match halvesAux row hold left ws hs with
        | some a => .error (0x02, a)
        | none => .ok r.done

/-! ### Rows -/

/-- Zero-fill a physical row and clear its dead bit (R293). -/
def State.reviveRow (s : State) (b r : Nat) : State :=
  let k := hbmKey s.cur.val b r 0
  let u := unitKey s.cur.val b r 0
  (s.modMem fun m => { m with
    hbm := SMap.clearRange m.hbm k (k + 1024)
    hbmPz := SMap.clearRange m.hbmPz u (u + 32)
    hbmErr := SMap.clearRange m.hbmErr u (u + 32) }).modPump fun p =>
      { p with dead := SMap.put false p.dead (b * 65536 + r) false }

/-- A bank closes: a row declared dead while open becomes dead (R293). -/
def State.closeBank (s : State) (b : Nat) : State :=
  s.modPump fun p =>
    let dead := match p.bankAt b with
      | .row r _ _ _ _ _ _ true => SMap.put false p.dead (b * 65536 + r) true
      | _ => p.dead
    { p with bank := SMap.put .closed p.bank b .closed, dead := dead }

/-- Declare a row dead (R293): at once, or at the next PRE of its bank. -/
def State.killRow (s : State) (b r : Nat) : State :=
  s.modPump fun p =>
    match p.bankAt b with
    | .row r' l h q m d w _ =>
      if r = r' then { p with bank := SMap.put .closed p.bank b (.row r' l h q m d w true) }
      else { p with dead := SMap.put false p.dead (b * 65536 + r) true }
    | _ => { p with dead := SMap.put false p.dead (b * 65536 + r) true }

/-- A write to a unit of a row makes 64 bytes of a moving tile dirty (R314): the tile of the leaf that the ACT recorded
against the bank, placed as its handle places it (R308). -/
def State.dirty (s : State) (leaf : Option (Nat × Nat)) (b r u : Nat) : State :=
  match leaf with
  | none => s
  | some (a, id) =>
    s.modDie fun d => { d with migs := d.migs.map fun m =>
      let g : Geom := ⟨id, m.size, m.swz⟩
      let o := g.offset b (r % g.rows) u / 64
      let new := m.leaf == a && m.tier == 0 && !m.dirty.contains o
      { m with dirty := if new then m.dirty ++ [o] else m.dirty } }

/-- The region of an access (R312). -/
def region (b r col : Nat) : Nat := (r * 2 ^ 20 + b * 2 ^ 10 + col * 32) / 2 ^ 16 % 2 ^ 20

/-- Count an access that reaches a physical row, and post a migration notice (R312): region, leaf and domain. -/
def State.countAccess (s : State) (b r col resid lmode : Nat) (leaf : Option (Nat × Nat)) :
    State :=
  if resid = 2 then s
  else
    let k := region b r col
    let n := min (SMap.get 0 s.die.pump.acnt k + 1) (2 ^ 32 - 1)
    let s := s.modPump fun p => { p with acnt := SMap.put 0 p.acnt k n }
    if n = s.disp.acthr ∧ lmode = 3 ∧ SMap.get false s.die.pump.noted k = false then
      let w := match leaf with
        | some x => s.ctx.leafIndex x.1
        | none => 0
      (s.modPump fun p => { p with noted := SMap.put false p.noted k true }).modDisp fun q =>
        { q with migr := q.migr ++ [s.cur.val + k * 2 ^ 8 + s.ctx.domid.toNat * 2 ^ 32 + w * 2 ^ 48] }
    else s

/-- Have the LOST bit of a leaf set at the end of the row's cycle (R309). -/
def State.loseWrite (s : State) (leaf : Nat) : State := s.later 1 (.leafLost leaf) 10

/-- Record a command of the table. -/
def State.noteCmd (s : State) (c b : Nat) : State :=
  let keep := fun (now : Nat) (l : List PumpCmd) => l.filter fun x => now < x.at_ + 65536
  (s.modCtx fun x => { x with pump := { x.pump with hist := ⟨c, b, x.ptl⟩ :: keep x.ptl x.pump.hist } }).modPump fun p =>
    { p with hist := ⟨c, b, s.now⟩ :: keep s.now p.hist }

end Sys2Proof.Machine
end

