-- ==== Sys2Proof/Machine/Operands.lean ====
section
/-!
DEFINITION. Operand forms: what each slot instruction names (R56, R59, R63, R64, R67), from which the static checks of
R65 and the scoreboard of R70 follow; the values of vector operand fields (R59, R124, R150) and of elements (R34).
-/

namespace Sys2Proof.Machine

/-! ### Ports, registers and names -/

/-- The ports of R64. -/
inductive UPort where
  | control | alu | mul | fp | load | store | handle | sync | pump
  | vAlu | vFma | vTrans | vConv | scu | beat | mctl | stream | stencil | probe | engine | sump
  deriving DecidableEq, Repr

/-- A port that each bay has its own of. -/
def UPort.perBay : UPort → Bool
  | .vAlu | .vFma | .vTrans | .vConv | .scu | .beat | .mctl | .stream | .stencil | .probe | .engine | .sump => true
  | _ => false

/-- Slots of one bundle that may use a port (R64). -/
def UPort.limit : UPort → Nat
  | .alu => 4
  | .handle => 2
  | _ => 1

/-- Kinds of registers in the numbering of R70. -/
inductive RKind where
  | s | p | h | v | o | k | m
  deriving DecidableEq, Repr

/-- The number of a kind (R70). -/
def RKind.code : RKind → Nat
  | .s => 0
  | .p => 1
  | .h => 2
  | .v => 3
  | .o => 4
  | .k => 5
  | .m => 6

/-- A register that a slot names; `bays` is 0 for a register of the die. -/
structure Reg where
  kind : RKind
  ix : Nat
  bays : Bays := 0
  deriving DecidableEq, Repr

/-- What a slot names. A stream is paired with the port code that its field uses. -/
structure Names where
  ports : List UPort := []
  bays : Bays := 0
  /-- Level of R66: 0 user, 1 system, 2 firmware. -/
  sys : Nat := 0
  /-- Fixed latency of the register results (R67); 0 for a queued load. -/
  lat : Nat := 0
  rd : List Reg := []
  wr : List Reg := []
  /-- Streams consumed. -/
  eat : List (Nat × Nat) := []
  /-- Streams whose head is read and not consumed, and streams only named. -/
  peek : List (Nat × Nat) := []
  names : List (Nat × Nat) := []
  /-- Streams produced, with the bays. -/
  make : List (Bays × Nat × Nat) := []
  /-- Streams bound, unbound, skipped or drained (R195). -/
  binds : List Nat := []
  /-- Target stream and rotation of a transfer (R206). -/
  xfer : Option (Nat × Nat) := none
  /-- Output stream of `SUMP.RD` (R221). -/
  rdMake : Option Nat := none
  /-- Loop level and fields of it that are destinations: 1 COUNT, 2 MAXT, 4 BEGIN and BSEG, 8 END and HOPS, 16 ACT (R235). -/
  lvl : Option (Nat × Nat) := none
  csr : Option Nat := none
  /-- Stencil-store slot: draw 0 to 127, pour 128 to 255. -/
  stn : Option Nat := none
  deriving DecidableEq, Repr

/-- A port code that stands for every draw-side port. -/
def drawPort : Nat := 16
/-- A port code that stands for every port. -/
def anyPort : Nat := 17

/-- A stream bound to port `p` may be named by a field that uses port code `want`. -/
def portFits (want p : Nat) : Bool := want == p || (want == drawPort && !isPour p) || want == anyPort

/-- The level of a control register (R255, R258, R323, R401). -/
def csrLevel (n : Nat) : Nat :=
  if n < 0x060 then 0 else if n = 0x06A ∨ n = 0x109 ∨ n = 0x0F0 then 2 else 1

def rS (x : BitVec 6) : Reg := ⟨.s, x.toNat, 0⟩
def rP (x : BitVec 4) : Reg := ⟨.p, x.toNat, 0⟩
def rH (x : BitVec 4) : Reg := ⟨.h, x.toNat, 0⟩
/-- A mask of some bays. -/
def rm (bays : Bays) (m : BitVec 3) : List Reg := [⟨.m, m.toNat, bays⟩]
/-- The predicates p1 to p15 (R130). -/
def allPreds : List Reg := (List.range 15).map fun i => ⟨.p, i + 1, 0⟩
/-- The mask of one bay. -/
def bit8 (bay : BitVec 3) : Bays := 1#8 <<< bay.toNat
/-- A stream that is consumed when its bit is set. -/
def eatIf (b : Bool) (q : BitVec 5) (port : Nat) : List (Nat × Nat) := if b then [(q.toNat, port)] else []
/-- Bays turned by `rot` (R206). -/
def rotBays (bays : Bays) (rot : Nat) : Bays := bays.rotateLeft rot

/-- The registers that a vector source field reads (R59, R124). -/
def fieldReads (bays : Bays) (x : BitVec 8) : List Reg :=
  match bitsAt x.toNat 6 2 with
  | 0 => [⟨.v, bitsAt x.toNat 0 6, bays⟩]
  | 1 => [⟨.o, bitsAt x.toNat 0 3, bays⟩]
  | 2 => [⟨.k, bitsAt x.toNat 0 2, bays⟩]
  | _ => if bitAt x.toNat 5 then [⟨.s, bitsAt x.toNat 0 5, 0⟩] else []

/-- The stream of a vector operand field. -/
def fieldStream (x : BitVec 8) : Option Nat :=
  if bitsAt x.toNat 5 3 = 6 then some (bitsAt x.toNat 0 5) else none

/-- The destination registers of a vector field; the unit's latch is one of them (R152). -/
def fieldWrites (bays : Bays) (x : BitVec 8) (k : Nat) : List Reg :=
  (match bitsAt x.toNat 6 2 with
   | 0 => [⟨.v, bitsAt x.toNat 0 6, bays⟩]
   | 1 => [⟨.o, bitsAt x.toNat 0 3, bays⟩]
   | _ => []) ++ [⟨.k, k, bays⟩]

/-- Streams consumed by vector source fields: two fields that name one stream read one entry (R63). -/
def srcStreams (xs : List (BitVec 8)) (port : Nat) : List (Nat × Nat) :=
  ((xs.filterMap fieldStream).dedup).map (·, port)

/-- The mask that MSEL reads (R151). -/
def mselReads (bays : Bays) (m : BitVec 3) : List Reg := if m = 0 then [] else rm bays m

/-- What a vector slot names. -/
def vNames (bays : Bays) (o : VOp) (p : UPort) (lat k : Nat) (src : List (BitVec 8)) : Names :=
  { ports := [p], bays := bays, lat := lat, rd := src.flatMap (fieldReads bays) ++ mselReads bays o.msel,
    wr := fieldWrites bays o.d k, eat := srcStreams src 0,
    make := (fieldStream o.d).toList.map fun q => (bays, q, 8) }

/-- What a vector compare names. -/
def vcmpNames (bays : Bays) (o : VOp) : Names :=
  { ports := [.vAlu], bays := bays, lat := 2, rd := [o.a, o.b].flatMap (fieldReads bays) ++ mselReads bays o.msel,
    wr := rm bays (o.d.setWidth 3), eat := srcStreams [o.a, o.b] 0 }

/-- What a convert slot names. -/
def cvNames (bays : Bays) (o : CvOp) (src : List (BitVec 8)) : Names :=
  vNames bays ⟨o.d, o.a, o.b, 0, o.rnd, 0, o.msel⟩ .vConv 3 3 src

/-- What a scan slot names. -/
def scanNames (bays : Bays) (o : ScOp) (flags : Bool) : Names :=
  { ports := [.scu], bays := bays, lat := 6 + (o.lw.toNat + 1),
    eat := srcStreams (if flags then [o.a, o.b] else [o.a]) 3,
    make := (fieldStream o.d).toList.map fun q => (bays, q, 10) }

/-- What each slot instruction names. -/
def slotNames : Instr → Names
  | .br _ => { ports := [.control] }
  | .brv _ bset m e _ => { ports := [.control], rd := rm bset m ++ (if e = 0 then [] else rm bset e) }
  | .jnext => { ports := [.control] }
  | .jseg a _ => { ports := [.control], rd := [rS a] }
  | .loop lvl a _ _ _ => { ports := [.control], rd := [rS a], lvl := some (lvl.toNat, 31) }
  | .lbrk lvl => { ports := [.control], lvl := some (lvl.toNat, 16) }
  | .lcont lvl => { ports := [.control], lvl := some (lvl.toNat, 29) }
  | .exit _ => { ports := [.control] }
  | .tret _ _ => { ports := [.control], sys := 1 }
  | .add d a b => { ports := [.alu], lat := 1, rd := [rS a, rS b], wr := [rS d] }
  | .sub d a b => { ports := [.alu], lat := 1, rd := [rS a, rS b], wr := [rS d] }
  | .and d a b => { ports := [.alu], lat := 1, rd := [rS a, rS b], wr := [rS d] }
  | .or d a b => { ports := [.alu], lat := 1, rd := [rS a, rS b], wr := [rS d] }
  | .xor d a b => { ports := [.alu], lat := 1, rd := [rS a, rS b], wr := [rS d] }
  | .andn d a b => { ports := [.alu], lat := 1, rd := [rS a, rS b], wr := [rS d] }
  | .shl d a b => { ports := [.alu], lat := 1, rd := [rS a, rS b], wr := [rS d] }
  | .shr d a b => { ports := [.alu], lat := 1, rd := [rS a, rS b], wr := [rS d] }
  | .sar d a b => { ports := [.alu], lat := 1, rd := [rS a, rS b], wr := [rS d] }
  | .min d a b => { ports := [.alu], lat := 1, rd := [rS a, rS b], wr := [rS d] }
  | .max d a b => { ports := [.alu], lat := 1, rd := [rS a, rS b], wr := [rS d] }
  | .minu d a b => { ports := [.alu], lat := 1, rd := [rS a, rS b], wr := [rS d] }
  | .maxu d a b => { ports := [.alu], lat := 1, rd := [rS a, rS b], wr := [rS d] }
  | .clz d a => { ports := [.alu], lat := 1, rd := [rS a], wr := [rS d] }
  | .popc d a => { ports := [.alu], lat := 1, rd := [rS a], wr := [rS d] }
  | .sel d a b p => { ports := [.alu], lat := 1, rd := [rS a, rS b, rP p], wr := [rS d] }
  | .addi d a _ => { ports := [.alu], lat := 1, rd := [rS a], wr := [rS d] }
  | .andi d a _ => { ports := [.alu], lat := 1, rd := [rS a], wr := [rS d] }
  | .ori d a _ => { ports := [.alu], lat := 1, rd := [rS a], wr := [rS d] }
  | .xori d a _ => { ports := [.alu], lat := 1, rd := [rS a], wr := [rS d] }
  | .shli d a _ => { ports := [.alu], lat := 1, rd := [rS a], wr := [rS d] }
  | .shri d a _ => { ports := [.alu], lat := 1, rd := [rS a], wr := [rS d] }
  | .sari d a _ => { ports := [.alu], lat := 1, rd := [rS a], wr := [rS d] }
  | .movi d _ => { ports := [.alu], lat := 1, wr := [rS d] }
  | .movhi d a _ _ => { ports := [.alu], lat := 1, rd := [rS a], wr := [rS d] }
  | .mul d a b => { ports := [.mul], lat := 3, rd := [rS a, rS b], wr := [rS d] }
  | .mulh d a b => { ports := [.mul], lat := 3, rd := [rS a, rS b], wr := [rS d] }
  | .mulhu d a b => { ports := [.mul], lat := 3, rd := [rS a, rS b], wr := [rS d] }
  | .cmpEq pd a b pn => { ports := [.alu], lat := 1, rd := [rS a, rS b], wr := [rP pd, rP pn] }
  | .cmpNe pd a b pn => { ports := [.alu], lat := 1, rd := [rS a, rS b], wr := [rP pd, rP pn] }
  | .cmpLt pd a b pn => { ports := [.alu], lat := 1, rd := [rS a, rS b], wr := [rP pd, rP pn] }
  | .cmpLtu pd a b pn => { ports := [.alu], lat := 1, rd := [rS a, rS b], wr := [rP pd, rP pn] }
  | .cmpLe pd a b pn => { ports := [.alu], lat := 1, rd := [rS a, rS b], wr := [rP pd, rP pn] }
  | .cmpLeu pd a b pn => { ports := [.alu], lat := 1, rd := [rS a, rS b], wr := [rP pd, rP pn] }
  | .cmpiEq pd a pn _ => { ports := [.alu], lat := 1, rd := [rS a], wr := [rP pd, rP pn] }
  | .cmpiLt pd a pn _ => { ports := [.alu], lat := 1, rd := [rS a], wr := [rP pd, rP pn] }
  | .pand o => { ports := [.alu], lat := 1, rd := [rP o.pa, rP o.pb], wr := [rP o.pd] }
  | .por o => { ports := [.alu], lat := 1, rd := [rP o.pa, rP o.pb], wr := [rP o.pd] }
  | .pxor o => { ports := [.alu], lat := 1, rd := [rP o.pa, rP o.pb], wr := [rP o.pd] }
  | .pandn o => { ports := [.alu], lat := 1, rd := [rP o.pa, rP o.pb], wr := [rP o.pd] }
  | .pmovsToScalar d => { ports := [.alu], lat := 1, rd := allPreds, wr := [rS d] }
  | .pmovsFromScalar a => { ports := [.alu], lat := 1, rd := [rS a], wr := allPreds }
  | .fadd o => { ports := [.fp], lat := 4, rd := [rS o.a, rS o.b], wr := [rS o.d] }
  | .fsub o => { ports := [.fp], lat := 4, rd := [rS o.a, rS o.b], wr := [rS o.d] }
  | .fmul o => { ports := [.fp], lat := 4, rd := [rS o.a, rS o.b], wr := [rS o.d] }
  | .fmin o => { ports := [.fp], lat := 4, rd := [rS o.a, rS o.b], wr := [rS o.d] }
  | .fmax o => { ports := [.fp], lat := 4, rd := [rS o.a, rS o.b], wr := [rS o.d] }
  | .ffma o => { ports := [.fp], lat := 4, rd := [rS o.a, rS o.b, rS o.c], wr := [rS o.d] }
  | .fcmp o => { ports := [.fp], lat := 2, rd := [rS o.a, rS o.b], wr := [rP (o.d.setWidth 4)] }
  | .fcvt o => { ports := [.fp], lat := 4, rd := [rS o.a], wr := [rS o.d] }
  | .ld o => { ports := [.load], rd := [rS o.a], wr := [rS o.d] }
  | .lds o => { ports := [.load], rd := [rS o.a], wr := [rS o.d] }
  | .chk o => { ports := [.load], rd := [rS o.a], wr := [rS o.d] }
  | .st o => { ports := [.store], rd := [rS o.d, rS o.a] }
  | .signal v a _ => { ports := [.store], rd := [rS v, rS a] }
  | .mark => { ports := [.load, .store] }
  | .hld h a _ => { ports := [.load], rd := [rS a], wr := [rH h] }
  | .hst h a _ => { ports := [.store], rd := [rH h, rS a] }
  | .hset hd ha b _ => { ports := [.handle], lat := 1, rd := [rH ha, rS b], wr := [rH hd] }
  | .hget d ha _ => { ports := [.handle], lat := 1, rd := [rH ha], wr := [rS d] }
  | .hmov hd ha => { ports := [.handle], lat := 1, rd := [rH ha], wr := [rH hd] }
  | .vadd bays o => vNames bays o .vAlu 2 0 [o.a, o.b]
  | .vsub bays o => vNames bays o .vAlu 2 0 [o.a, o.b]
  | .vmin bays o => vNames bays o .vAlu 2 0 [o.a, o.b]
  | .vmax bays o => vNames bays o .vAlu 2 0 [o.a, o.b]
  | .vand bays o => vNames bays o .vAlu 2 0 [o.a, o.b]
  | .vor bays o => vNames bays o .vAlu 2 0 [o.a, o.b]
  | .vxor bays o => vNames bays o .vAlu 2 0 [o.a, o.b]
  | .vandn bays o => vNames bays o .vAlu 2 0 [o.a, o.b]
  | .vshl bays o => vNames bays o .vAlu 2 0 [o.a, o.b]
  | .vshr bays o => vNames bays o .vAlu 2 0 [o.a, o.b]
  | .vsar bays o => vNames bays o .vAlu 2 0 [o.a, o.b]
  | .vabs bays o => vNames bays o .vAlu 2 0 [o.a]
  | .vneg bays o => vNames bays o .vAlu 2 0 [o.a]
  | .vmov bays o => vNames bays o .vAlu 2 0 [o.a]
  | .vsel bays o => let n := vNames bays o .vAlu 2 0 [o.a, o.b]; { n with rd := n.rd ++ rm bays (o.c.setWidth 3) }
  | .vcmpEq bays o => vcmpNames bays o
  | .vcmpNe bays o => vcmpNames bays o
  | .vcmpLt bays o => vcmpNames bays o
  | .vcmpLe bays o => vcmpNames bays o
  | .vcmpUn bays o => vcmpNames bays o
  | .vmand bays d a b => { ports := [.vAlu], bays := bays, lat := 2, rd := rm bays a ++ rm bays b, wr := rm bays d }
  | .vmor bays d a b => { ports := [.vAlu], bays := bays, lat := 2, rd := rm bays a ++ rm bays b, wr := rm bays d }
  | .vmxor bays d a b => { ports := [.vAlu], bays := bays, lat := 2, rd := rm bays a ++ rm bays b, wr := rm bays d }
  | .vmandn bays d a b => { ports := [.vAlu], bays := bays, lat := 2, rd := rm bays a ++ rm bays b, wr := rm bays d }
  | .vmset bays d _ => { ports := [.vAlu], bays := bays, lat := 2, wr := rm bays d }
  | .vmul bays o => vNames bays o .vFma 4 1 [o.a, o.b]
  | .vfma bays o => vNames bays o .vFma 4 1 [o.a, o.b, o.c]
  | .vfms bays o => vNames bays o .vFma 4 1 [o.a, o.b, o.c]
  | .vfnma bays o => vNames bays o .vFma 4 1 [o.a, o.b, o.c]
  | .vexp2 bays o => vNames bays o .vTrans 8 2 [o.a]
  | .vlog2 bays o => vNames bays o .vTrans 8 2 [o.a]
  | .vrcp bays o => vNames bays o .vTrans 8 2 [o.a]
  | .vrsqrt bays o => vNames bays o .vTrans 8 2 [o.a]
  | .vsqrt bays o => vNames bays o .vTrans 8 2 [o.a]
  | .vtanh bays o => vNames bays o .vTrans 8 2 [o.a]
  | .vsigm bays o => vNames bays o .vTrans 8 2 [o.a]
  | .vcvt bays o => cvNames bays o [o.a]
  | .vrint bays o => cvNames bays o [o.a]
  | .vunpk bays o => cvNames bays o [o.a]
  | .vpack bays o => cvNames bays o [o.a, o.b]
  | .scanPsum bays o => scanNames bays o false
  | .scanPmax bays o => scanNames bays o false
  | .scanPmin bays o => scanNames bays o false
  | .scanRsum bays o => scanNames bays o false
  | .scanRmax bays o => scanNames bays o false
  | .scanRmin bays o => scanNames bays o false
  | .scanAmax bays o => scanNames bays o false
  | .scanArgmax bays o => scanNames bays o false
  | .scanTopk bays o => scanNames bays o false
  | .scanRank bays o => scanNames bays o false
  | .scanSpsum bays o => scanNames bays o true
  | .scanCmpct bays o => scanNames bays o true
  | .mxPush bays la lb qa qb => { ports := [.beat], bays := bays, eat := eatIf la qa 1 ++ eatIf lb qb 2 }
  | .mxAcc bays sa sb qa qb _ => { ports := [.beat], bays := bays, eat := eatIf sa qa 1 ++ eatIf sb qb 2 }
  | .mxShift bays _ sb qb _ => { ports := [.beat], bays := bays, eat := eatIf sb qb 2 }
  | .mxHold bays _ => { ports := [.beat], bays := bays }
  | .mxDrain bays qd _ _ auto sr _ =>
    { ports := [.mctl], bays := bays, rd := (if auto then [] else [rS sr]), make := [(bays, qd.toNat, 9)] }
  | .mxZero bays _ _ _ => { ports := [.mctl], bays := bays }
  | .mxMode bays _ _ => { ports := [.mctl], bays := bays }
  | .mxScale bays qsa qsb => { ports := [.mctl], bays := bays, eat := [(qsa.toNat, 1), (qsb.toNat, 2)] }
  | .mxSnap bays _ => { ports := [.mctl], bays := bays }
  | .mxSwap bays => { ports := [.mctl], bays := bays }
  | .qBind bays q _ h a _ _ _ =>
    { ports := [.stream], bays := bays, rd := [rH h, rS a, rS (a + 1)], binds := [q.toNat] }
  | .qUnbind bays q => { ports := [.stream], bays := bays, binds := [q.toNat] }
  | .qSkip bays q _ => { ports := [.stream], bays := bays, binds := [q.toNat], names := [(q.toNat, anyPort)] }
  | .qDrain bays q => { ports := [.stream], bays := bays, binds := [q.toNat], names := [(q.toNat, drawPort)] }
  | .qRmask bays q d => { ports := [.stream], bays := bays, lat := 2, wr := rm bays d, peek := [(q.toNat, drawPort)] }
  | .qXfer bays qd qs rot =>
    { ports := [.stream], bays := bays, eat := [(qs.toNat, drawPort)], xfer := some (qd.toNat, rot.toNat) }
  | .qXferLand bays qs => { ports := [.stream], bays := bays, make := [(bays, qs.toNat, 13)] }
  | .stnLd bays dir slot a =>
    { ports := [.stencil], bays := bays, rd := [rS a], stn := some (128 * b2n dir + slot.toNat) }
  | .stnCut bay dir slot a c _ _ =>
    { ports := [.stencil], bays := bit8 bay, rd := [rS a, rS c], stn := some (128 * b2n dir + slot.toNat) }
  | .stnWait bay d => { ports := [.stencil], bays := bit8 bay, lat := 1, wr := [rS d] }
  | .stnPasses bay d => { ports := [.stencil], bays := bit8 bay, lat := 1, wr := [rS d] }
  | .probe bay pd d a v => { ports := [.probe], bays := bit8 bay, lat := 2, rd := [rS a, rS v], wr := [rP pd, rS d] }
  | .probeInv bay a => { ports := [.probe], bays := bit8 bay, rd := [rS a] }
  | .probeTag bay a => { ports := [.probe], bays := bit8 bay, rd := [rS a] }
  | .copy bay b a n c v => { ports := [.engine], bays := bit8 bay, rd := [rS b, rS a, rS n, rS c, rS v] }
  | .copySt bay b a n c v => { ports := [.engine], bays := bit8 bay, rd := [rS b, rS a, rS n, rS c, rS v] }
  | .pageReq bay h a c v => { ports := [.engine], bays := bit8 bay, rd := [rH h, rS a, rS c, rS v] }
  | .sumpAdd bays qi qv _ => { ports := [.sump], bays := bays, eat := [(qi.toNat, 4), (qv.toNat, 4)] }
  | .sumpMax bays qi qv _ => { ports := [.sump], bays := bays, eat := [(qi.toNat, 4), (qv.toNat, 4)] }
  | .sumpMin bays qi qv _ => { ports := [.sump], bays := bays, eat := [(qi.toNat, 4), (qv.toNat, 4)] }
  | .sumpCnt bays qi => { ports := [.sump], bays := bays, eat := [(qi.toNat, 4)] }
  | .sumpSnap a c v => { ports := [.sump], bays := 0xFF, rd := [rS a, rS c, rS v] }
  | .sumpRd q _ => { ports := [.sump], bays := 0xFF, rdMake := some q.toNat }
  | .sumpClr => { ports := [.sump], bays := 0xFF }
  | .pumpLd a b => { ports := [.pump], rd := [rS a, rS b] }
  | .pumpIdle a b => { ports := [.pump], rd := [rS a, rS b] }
  | .pumpGo a => { ports := [.pump], rd := [rS a] }
  | .pumpDead h a => { ports := [.pump], rd := [rH h, rS a] }
  | .pumpStat d => { ports := [.pump], lat := 1, wr := [rS d] }
  | .pumpActr d a _ => { ports := [.pump], sys := 1, lat := 1, rd := [rS a], wr := [rS d] }
  | .nmFence d => { ports := [.pump], lat := 1, wr := [rS d] }
  | .nmStat d _ => { ports := [.pump], lat := 1, wr := [rS d] }
  | .waitA d a v _ => { ports := [.sync], lat := 1, rd := [rS a, rS v], wr := [rS d] }
  | .fence _ _ _ _ => { ports := [.sync] }
  | .fenceRc d => { ports := [.sync], lat := 1, wr := [rS d] }
  | .publish d a => { ports := [.sync], lat := 1, rd := [rS a], wr := [rS d] }
  | .shadow d a n => { ports := [.sync], lat := 1, rd := [rS a, rS n], wr := [rS d] }
  | .shadowFree a => { ports := [.sync], rd := [rS a] }
  | .qwait d _ => { ports := [.sync], lat := 1, wr := [rS d] }
  | .bar a => { ports := [.sync], rd := [rS a] }
  | .realign d => { ports := [.sync], sys := 1, lat := 1, wr := [rS d] }
  | .rdgtc d => { ports := [.sync], lat := 1, wr := [rS d] }
  | .goWait d => { ports := [.sync], lat := 1, wr := [rS d] }
  | .csrr d csr => { ports := [.sync], sys := csrLevel csr.toNat, lat := 1, wr := [rS d] }
  | .csrw d a csr =>
    { ports := [.sync], sys := csrLevel csr.toNat, lat := 1, rd := [rS a], wr := [rS d], csr := some csr.toNat }
  | .csrs d a csr =>
    { ports := [.sync], sys := csrLevel csr.toNat, lat := 1, rd := [rS a], wr := [rS d], csr := some csr.toNat }
  | .csrc d a csr =>
    { ports := [.sync], sys := csrLevel csr.toNat, lat := 1, rd := [rS a], wr := [rS d], csr := some csr.toNat }
  | .trap _ => { ports := [.sync] }
  | .tlbSync a => { ports := [.sync], sys := 1, rd := [rS a] }
  | .domsw a => { ports := [.sync], sys := 1, rd := [rS a] }
  | .dbrk _ => { ports := [.sync] }
  | _ => {}

/-! ### Static checks of a bundle (R63 to R66) -/

/-- Two bay masks that name a bay in common; registers of the die have no mask. -/
def bayMeet (a b : Bays) : Bool := (a == 0 && b == 0) || (a &&& b) != 0

/-- A destination register counts for R63: not s0, not p0, and no latch. -/
def Reg.counts (r : Reg) : Bool := !(r.ix == 0 && (r.kind == .s || r.kind == .p)) && r.kind != .k

/-- Two registers are one, in some bay. -/
def Reg.meets (a b : Reg) : Bool := a.kind == b.kind && a.ix == b.ix && bayMeet a.bays b.bays

/-- The output streams of a slot with their bays; a transfer's lies in the target bays (R206). -/
def Names.outs (n : Names) : List (Nat × Bays) :=
  n.make.map (fun m => (m.2.1, m.1)) ++ (n.xfer.toList.map fun x => (x.1, rotBays n.bays x.2)) ++
    n.rdMake.toList.map (·, n.bays) ++ n.binds.map (·, n.bays)

/-- The input streams of a slot with their bays; binding instructions write the stream and exclude both (R195). -/
def Names.insB (n : Names) : List (Nat × Bays) := n.eat.map (fun e => (e.1, n.bays)) ++ n.binds.map (·, n.bays)

/-- Two lists name one stream in one bay. -/
def strMeet (a b : List (Nat × Bays)) : Bool := a.any fun x => b.any fun y => x.1 == y.1 && (x.2 &&& y.2) != 0

/-- The loop level whose fields a slot writes, with the fields: a `LOOP`, `LBRK`, `LCONT`, or a write of its registers
(R235). -/
def Names.level (n : Names) : Option (Nat × Nat) :=
  match n.lvl, n.csr with
  | some l, _ => some l
  | none, some c => if 0x040 ≤ c ∧ c ≤ 0x057 then some ((c - 0x040) / 4, 2 ^ (c % 4)) else none
  | none, none => none

/-- Two slots name one field of one loop level. -/
def levelMeet (a b : Option (Nat × Nat)) : Bool :=
  match a, b with
  | some x, some y => x.1 == y.1 && x.2 &&& y.2 != 0
  | _, _ => false

/-- Two options that hold one value. -/
def sameSome (a b : Option Nat) : Bool := a.isSome && a == b

/-- Two slots break R63. -/
def clash (a b : Names) : Bool :=
  (a.wr.any fun x => x.counts && b.wr.any fun y => y.counts && x.meets y) ||
    strMeet a.outs b.outs || strMeet a.insB b.insB || levelMeet a.level b.level || sameSome a.csr b.csr ||
    (sameSome a.stn b.stn && (a.bays &&& b.bays) != 0)

/-- The slots of a list that use a port, in a bay if the port is per bay. -/
def portUsers (l : List (Nat × Names)) (p : UPort) (bay : Nat) : List Nat :=
  (l.filter fun x => x.2.ports.contains p && (!p.perBay || x.2.bays.getLsbD bay)).map (·.1)

/-- All ports. -/
def allPorts : List UPort :=
  [.control, .alu, .mul, .fp, .load, .store, .handle, .sync, .pump, .vAlu, .vFma, .vTrans, .vConv, .scu, .beat, .mctl,
   .stream, .stencil, .probe, .engine, .sump]

/-- The slots that take part in a conflict of R63 or an oversubscribed port of R64. -/
def illegalSlots (l : List (Nat × Names)) : List Nat :=
  let c := (l.filter fun x => l.any fun y => x.1 != y.1 && clash x.2 y.2).map (·.1)
  let p := allPorts.flatMap fun p => (List.range (if p.perBay then 8 else 1)).flatMap fun b =>
    let u := portUsers l p b
    if p.limit < u.length then u else []
  (c ++ p).dedup

/-- The slot mask of word 0 (R65). -/
def slotMask (l : List Nat) : Nat := (l.dedup.map slotBit).sum

/-! ### Values of operands -/

/-- A lane number. -/
abbrev LaneIx := Nat

/-- Lanes of an entry as 32-bit elements (R34, R150). -/
def words32 : List Lane → List Word32
  | a :: b :: l => (b ++ a : BitVec 32) :: words32 l
  | _ => []

/-- 32-bit elements as lanes (R34). -/
def lanes32 : List Word32 → List Lane
  | [] => []
  | x :: l => x.setWidth 16 :: (x >>> 16).setWidth 16 :: lanes32 l

/-- The 128 values of a vector source field in a bay (R59, R124, R150). -/
def State.vField (s : State) (b : BayIx) (x : BitVec 8) : List Word32 :=
  let y := s.bayAt b
  let i := bitsAt x.toNat 0 6
  match bitsAt x.toNat 6 2 with
  | 0 => (List.range 128).map fun l => SMap.get 0 y.v (128 * i + l)
  | 1 => (List.range 128).map fun l => SMap.get 0 y.o (128 * (i % 8) + l)
  | 2 => (List.range 128).map fun l => SMap.get 0 y.k (128 * (i % 4) + l)
  | _ =>
    if i ≥ 32 then List.replicate 128 ((s.rs (.ofNat 6 (i - 32))).setWidth 32)
    else match (y.str i).queue with
      | e :: _ => words32 e.lanes
      | [] => List.replicate 128 0

/-- The lanes that MSEL enables in a bay (R151). -/
def State.enabled (s : State) (b : BayIx) (m : BitVec 3) : BitVec 128 :=
  if m = 0 then BitVec.allOnes 128 else (s.bayAt b).mask m

/-- The rounding mode of a selector (R36, R37): 4 is RM of FPCTL. -/
def State.rmode (s : State) (r : Nat) : RMode := if r = 4 then rmodeOf s.ctx.rm.toNat else rmodeOf r

/-- Element `j` of width `w` of a word (R161). -/
def elemAt (x w j : Nat) : Nat := bitsAt x (w * j) w

end Sys2Proof.Machine
end

