-- ==== Sys2Proof/Config.lean ====
section
/-!
DEFINITION. What a part or its driver fixes and the spec leaves open: free values, constants without a body. No
statement can rest on one of them.
-/

namespace Sys2Proof.Config

/-- REV of PARTID (R412): the silicon revision (log 6). -/
opaque siliconRev : BitVec 8

/-- Word `n` of the part's serial number as ATTEST reports it (R421, log 6). -/
opaque serial : Nat → Word

/-- The public key for firmware images whose digest is fused in IOD0: a point of P-384 (R419, log 6). -/
opaque imageKey : Nat × Nat

/-- The identifier and the root of the LMS key for firmware images (R419, log 6). -/
opaque imageLmsId : BitVec 128
opaque imageLmsRoot : BitVec 256

/-- The device attestation key of the part, and the nonce of its `n`-th signature (R421, log 6). -/
opaque attestKey : Nat
opaque attestNonce : Nat → Nat

/-- The LMS attestation key of the part: its identifier, and for each leaf the randomiser, the starts of the chains and the
path (R421, log 6). -/
opaque attestLmsId : BitVec 128
opaque attestRandom : Nat → BitVec 256
opaque attestChain : Nat → Nat → BitVec 256
opaque attestPath : Nat → Nat → BitVec 256

/-- The measurements of the boot ROM and the dispatcher ROM (R421, log 6). -/
opaque romMeasure : List Byte

/-- An extreme of a scan whose term is a carry that the element format cannot hold (R167 states no rounding, log 17):
the format code and the carry. -/
opaque scanNarrow : Nat → Word32 → Nat

/-- Frequency of an island of the package at its lowest operating point, and under a power cap of some watts (R415, R417,
log 21). -/
opaque lowestFreq : Nat → Nat
opaque cappedFreq : Nat → Nat → Nat

/-- The 15 bytes of check symbols that follow the body of a BULK flit: R325 names the code and not its generator (log 9). -/
opaque rsCheck : List Byte → List Byte

/-- The tensor id of the tile that a leaf of a context holds, where only the leaf is named (R314, log 18). -/
opaque leafTensor : Nat → Nat → Nat

/-- Byte `i` of the `n`-th save of a context: R364 says what a save area holds and not where (log 60). -/
opaque saveByte : Nat → Nat → BitVec 8

/-- The mean of clock offsets that does not come out even, from their sum and count (R253 states no rounding, log 20). -/
opaque meanOffset : Int → Nat → Int

/-- LIMIT of a die that firmware sets under a power cap of some watts (R415, log 21). -/
opaque capLimit : Nat → BitVec 24

/-- The value that the `n`-th step with an open result takes (log 6). -/
opaque freeWord : Nat → Word

end Sys2Proof.Config
end

