-- ==== Sys2Proof/Machine/Service.lean ====
section
/-!
DEFINITION. The service path of the base die (R313): when it may run a sequence on a bank, and the accesses of engines to
the bytes of a frame in either tier (R304, R315).
-/

namespace Sys2Proof.Machine

/-! ### When a bank is free for a service sequence (R313) -/

/-- A command word of a row names a pseudo-channel. -/
def wordOnPc (pc w : Nat) : Bool := bitsAt w 60 4 != 0 && bitsAt w 54 6 == pc

/-- The table holds a command for a pseudo-channel in its next 512 rows: `r` is the row at which the counter stands, which
is one of them unless it has issued in the present cycle. -/
def PumpTab.soon (t : PumpTab) (r pc : Nat) (issued : Bool) : Bool :=
  t.rows.any fun x => x.2.1.any (wordOnPc pc) &&
    (if r + b2n issued ≤ x.1 then decide (x.1 - r < 512 + b2n issued)
     else t.wrap && decide (t.looprow ≤ x.1) && decide (t.nrows - r + (x.1 - t.looprow) < 512 + b2n issued))

/-- The service path may run a sequence on a bank: it is closed, and the table leaves the pseudo-channel alone, or an
idle run is at its rows. -/
def State.serviceFree (s : State) (bank : Nat) : Bool :=
  let p := s.die.pump
  let c := s.ctx.pump
  let idle := match p.idle with
    | some r => r.phase == .run
    | none => false
  p.bankAt bank == .closed &&
    (idle || (!(c.active.any fun t => t.soon c.row (bank / 16) s.die.rows) &&
      !c.hist.any fun x => x.bank / 16 == bank / 16 && decide (s.ctx.ptl ≤ x.at_ + p.maxc)))

/-- The commands of a sequence of `n` RDs or WRs on a bank that begins in die-clock cycle `t`, each at the cycle at which
the timing registers let it follow. -/
def Pump.sequence (p : Pump) (t bank n : Nat) (write : Bool) : List PumpCmd :=
  let first := t + p.reg 1
  let last := first + (n - 1) * p.reg 9
  let close := max (t + p.reg 3) (last + p.reg (if write then 10 else 13))
  ⟨1, bank, t⟩ :: (List.range n).map (fun k => ⟨if write then 3 else 2, bank, first + k * p.reg 9⟩) ++ [⟨4, bank, close⟩]

/-- A sequence ends within 256 die-clock cycles. -/
def Pump.fits (p : Pump) (n : Nat) (write : Bool) : Bool :=
  (p.sequence 0 0 n write).all fun x => decide (x.at_ + (if x.cmd = 4 then p.reg 2 else 0) ≤ 256)

/-- The most RDs or WRs, up to 16, of a sequence that ends in time. -/
def Pump.seqMax (p : Pump) (write : Bool) : Nat :=
  ((List.range 16).find? fun k => p.fits (16 - k) write).map (16 - ·) |>.getD 0

/-- A sequence may begin in the present cycle: the bank is free for it, and none of its commands breaks a constraint of
R286 in die-clock cycles. -/
def State.svcReady (s : State) (bank n : Nat) (write : Bool) : Bool :=
  let p := s.die.pump
  s.serviceFree bank && p.fits n write &&
    (p.sequence s.now bank n write).all fun x => (p.firstBroken p.hist x.at_ x.cmd bank).isNone

/-- A sequence begins: its commands are remembered, and what follows keeps its distance from them. -/
def State.svcBegin (s : State) (bank n : Nat) (write : Bool) : State :=
  s.modPump fun p => { p with hist := (p.sequence s.now bank n write).reverse ++ p.hist }

/-- Die-clock cycles of a sequence. -/
def Pump.seqTime (p : Pump) (n : Nat) (write : Bool) : Nat :=
  (p.sequence 0 0 n write).foldl (fun m x => max m x.at_) 0 + p.reg 2

/-! ### Bytes of frames -/

/-- Read a 32-byte unit for an engine; a dead row holds zeros (R293). -/
def State.svcReadUnit (s : State) (bank row u : Nat) : State × List Byte × Bool :=
  if s.die.pump.isDead bank row then (s, List.replicate 32 0, false) else s.readUnit bank row u

/-- Write a unit for an engine; the first write to a dead row makes it live. -/
def State.svcWriteUnit (s : State) (bank row u : Nat) (bs : List Byte) (pz : Bool) : State :=
  (if s.die.pump.isDead bank row then s.reviveRow bank row else s).writeUnit bank row u bs pz

/-- The banks of the 64-byte chunk at offset `o` of a frame. -/
def Geom.chunkBank (g : Geom) (o : Nat) : Nat := (g.place o).1

/-- Read the 64 bytes at offset `o` (a multiple of 64) of a frame of a tier, with the poison of its 32-byte halves. -/
def State.readChunk (s : State) (g : Geom) (tier frame o : Nat) : State × List Byte × Bool × Bool :=
  if tier = 0 then
    let (b, rl, u) := g.place o
    let r := frame * g.rows + rl
    let (s, x, p) := s.svcReadUnit b r u
    let (s, y, q) := s.svcReadUnit b r (u + 1)
    (s, x ++ y, p, q)
  else
    let a := frame * g.bytes + o
    let pz := fun (k : Nat) => SMap.get false s.mem.resPz (a / 16 + k)
    (s, rdBytes s.mem.res a 64, pz 0 || pz 1, pz 2 || pz 3)

/-- Write the 64 bytes at offset `o` of a frame of a tier. -/
def State.writeChunk (s : State) (g : Geom) (tier frame o : Nat) (bs : List Byte) (p q : Bool) : State :=
  if tier = 0 then
    let (b, rl, u) := g.place o
    let r := frame * g.rows + rl
    (s.svcWriteUnit b r u (bs.take 32) p).svcWriteUnit b r (u + 1) (bs.drop 32) q
  else
    let a := frame * g.bytes + o
    s.modMem fun m => { m with
      res := wrBytes m.res a bs
      resPz := ((List.range 4).foldl (fun z k => SMap.put false z (a / 16 + k) (if k < 2 then p else q)) m.resPz) }

/-! ### The translation cache of engines (R305) -/

/-- Leaf `i` as an engine sees it: through the die's cache, which `TLB.SYNC` empties. -/
def State.cachedWord (s : State) (i : Nat) : Nat :=
  match SMap.get 0 s.die.tlb i with
  | 0 => s.leafAt (s.leafAddr i)
  | n + 1 => n

/-- Keep leaf `i` in the cache. -/
def State.cacheLeaf (s : State) (i : Nat) : State :=
  let l := s.cachedWord i
  s.modDie fun d => { d with tlb := SMap.put 0 d.tlb i (l + 1) }

/-- The geometry of a leaf of the die's context that is named alone (log 18). -/
def State.leafGeom (s : State) (leaf : Nat) : Geom :=
  let w := s.cachedWord leaf
  { id := Config.leafTensor s.ctx.ctxNo.toNat leaf, size := lfSize w, swz := lfSwz w }

/-! ### Egress records (R337) -/

/-- Records of 128 bytes in a frame of the egress queue whose first leaf is `leaf`. -/
def State.egressPer (s : State) (leaf : Nat) : Nat := (s.leafGeom leaf).bytes / 128

/-- Leaf and byte offset of record `n` of the egress queue whose first leaf is `first`. -/
def State.egressPlace (s : State) (first n : Nat) : Nat × Nat :=
  let per := s.egressPer first
  (first + n / per, n % per * 128)

/-- A leaf gives a frame of the egress queue of peer `p`: it is valid, in HBM, with MODE 1 and PEER `p` (R337, R307). -/
def State.egressLeaf (s : State) (p leaf : Nat) : Bool :=
  let w := s.leafAt (s.leafAddr leaf)
  decide (leaf < s.ctx.leafN) && lfValid w && lfTier w == 0 && lfMode w == 1 && lfPeer w == p

/-- Record `n` of the egress queue of peer `p` lies in a frame of the queue. -/
def State.egressOk (s : State) (p first n : Nat) : Bool :=
  s.egressPer first != 0 && s.egressLeaf p (s.egressPlace first n).1

/-- The banks of a record, each with the RDs or WRs of a sequence on it. -/
def State.egressBanks (s : State) (first n : Nat) : List (Nat × Nat) :=
  let (leaf, o) := s.egressPlace first n
  let g := s.leafGeom leaf
  if g.chunkBank o = g.chunkBank (o + 64) then [(g.chunkBank o, 2)] else [(g.chunkBank o, 1), (g.chunkBank (o + 64), 1)]

/-- The service path may begin on a record. -/
def State.egressFree (s : State) (first n : Nat) (write : Bool) : Bool :=
  (s.egressBanks first n).all fun x => s.svcReady x.1 x.2 write

/-- The service path runs its sequences on a record. -/
def State.egressBegin (s : State) (first n : Nat) (write : Bool) : State :=
  (s.egressBanks first n).foldl (fun s x => s.svcBegin x.1 x.2 write) s

/-- Write record `n` of an egress queue. -/
def State.putRecord (s : State) (first n : Nat) (bs : List Byte) : State :=
  let (leaf, o) := s.egressPlace first n
  let g := s.leafGeom leaf
  let f := lfFrame (s.leafAt (s.leafAddr leaf))
  ((s.egressBegin first n true).writeChunk g 0 f o (bs.take 64) false false).writeChunk g 0 f (o + 64) (bs.drop 64) false
    false

/-- Read record `n` of an egress queue. -/
def State.getRecord (s : State) (first n : Nat) : State × List Byte :=
  let (leaf, o) := s.egressPlace first n
  let g := s.leafGeom leaf
  let f := lfFrame (s.leafAt (s.leafAddr leaf))
  let (s, x, _) := (s.egressBegin first n false).readChunk g 0 f o
  let (s, y, _) := s.readChunk g 0 f (o + 64)
  (s, x ++ y)

end Sys2Proof.Machine
end

