-- ==== Sys2Proof/Machine/Window.lean ====
section
/-!
DEFINITION. Windows and reflection on the side of the issuer (R317 to R324, R269, R272, R336 to R340): the tables, the
combining buffer, the commit buffer, and the breaking of a peer.
-/

namespace Sys2Proof.Machine

/-! ### Tables (R317 to R320) -/

/-- Write some bytes of a table of the die, as any write of cistern words (R386, R144). -/
def State.tabWrite (s : State) (base off : Nat) (bs : List Byte) : State :=
  s.putCells (bs.zipIdx.map fun x => let a := tabAddr base (off + x.2); (a / 16, a % 16, x.1))

/-- A peer-set entry that may be used: its peers, first granule and granule count minus 1 (R318). -/
def State.peerSet (s : State) (i : Nat) : Option (List Nat × Nat × Nat) :=
  match s.tabEntry s.die.win.psbase.toNat i 64 with
  | some e =>
    if bitsAt e 276 236 = 0 then
      some ((List.range 256).filter (fun p => bitAt e p), bitsAt e 256 14, bitsAt e 270 6)
    else none
  | none => none

/-- The window that a TXW address lies in (R318): peer set, peers, and byte offset; none when the store or pour fails
with cause 0x0D. -/
def State.txWindow (s : State) (a : Nat) : Option (Nat × List Nat × Nat) :=
  let s := { s with cur := adDie a }
  let e := s.mem.entryOf a
  match s.peerSet (granPset e) with
  | some (ps, tb, tl) =>
    let g := granule a
    if tb ≤ g ∧ g ≤ tb + tl then some (granPset e, ps, (g - tb) * 8192 + a % 8192) else none
  | none => none

/-- A write to an address needs no window, or has one (R318). -/
def State.txOk (s : State) (a : Nat) : Bool := granMode (s.mem.entryOf a) != 2 || (s.txWindow a).isSome

/-- Window-map entry of a peer (R319). -/
def State.peerEntry (s : State) (p : Nat) : Option Nat := s.tabEntry s.die.win.wmbase.toNat p 32

def wmPkg (e : Nat) : Nat := bitsAt e 0 5
def wmDie (e : Nat) : Nat := bitsAt e 5 3
def wmWid (e : Nat) : Nat := bitsAt e 8 10
def wmState (e : Nat) : Nat := bitsAt e 18 2

/-- An entry is a target: STATE not 0 and no reserved bit set. -/
def wmTarget (e : Nat) : Bool := wmState e != 0 && bitsAt e 25 7 == 0 && bitsAt e 168 88 == 0

/-- Replace a field of a window-map entry. -/
def State.setPeer (s : State) (p lo w v : Nat) : State :=
  match s.peerEntry p with
  | some e => s.tabWrite s.die.win.wmbase.toNat (p * 32) (natBytes (setBits e lo w v) 32)
  | none => s

/-- Set BRK, and FIRSTBRK if BRK was clear (R323). -/
def State.setBrk (s : State) (p : Nat) : State :=
  s.modDie fun d => { d with win := { d.win with
    firstBrk := if d.win.brk then d.win.firstBrk else .ofNat 8 p, brk := true } }

/-- The state of the die's path to target `g`, and the key of the path from issuer `g` to the die. -/
def Win.path (w : Win) (g : Nat) : PathSt := SMap.get {} w.paths g
def inPath (g : Nat) : Nat := 256 + g

/-- The target of a copy, as a global die index (R265). -/
def Copy.target (c : Copy) : Nat := 8 * c.pkg + c.die

/-- The records in the egress queue of a peer. -/
def State.egressOf (s : State) (p : Nat) : List EgressRec := SMap.get [] s.die.win.egress p

/-- Replace them. -/
def State.setEgress (s : State) (p : Nat) (l : List EgressRec) : State :=
  s.modDie fun d => { d with win := { d.win with egress := SMap.put [] d.win.egress p l } }

/-- Change a path's state. -/
def State.modPath (s : State) (p : Nat) (f : PathSt → PathSt) : State :=
  s.modDie fun d => { d with win := { d.win with paths := SMap.put {} d.win.paths p (f (d.win.path p)) } }

/-! ### Breaking (R338, R339, R246) -/

/-- The TXW granules of the die. -/
def State.txGranules (s : State) : List Nat :=
  let base := wordAddr s.cur.val 7 127 4096
  (s.mem.cistern.filterMap fun c =>
    if base ≤ c.1 ∧ c.1 < base + 65536 ∧ c.1 % 4 = 0 then some ((c.1 - base) / 4) else none).filter fun g =>
      granMode (s.mem.granEntry s.cur.val g) == 2

/-- A peer is named by a peer set of TXW granules of the domain of the context on the die (R246, R339). -/
def State.ownsPeer (s : State) (p : Nat) : Bool :=
  s.txGranules.any fun g =>
    let e := s.mem.granEntry s.cur.val g
    (granOwner e == s.ctx.domid.toNat || granOwner e == 0xFFFF) && match s.peerSet (granPset e) with
      | some x => x.1.contains p
      | none => false

/-- Count an entry dropped for a peer: DROPS, DROPC, and what `FENCE.RC` reports. -/
def State.dropFor (s : State) (p n : Nat) : State :=
  if n = 0 then s
  else
    let e := (s.peerEntry p).getD 0
    let own := s.ownsPeer p
    (s.setPeer p 136 32 (min (bitsAt e 136 32 + n) (2 ^ 32 - 1))).modCtx fun c =>
      { c with dropc := min (c.dropc + n) (2 ^ 32 - 1), rcDrop := if own then c.rcDrop <|> some p else c.rcDrop }

/-- Take the copies for a peer out of the commit buffer; an entry with no copy left is freed (R272). -/
def dropCopies (p : Nat) (l : List CbEntry) : List CbEntry :=
  (l.map fun e => { e with copies := e.copies.filter fun c => c.peer != p }).filter fun e =>
    e.verb.isSome || e.copies != []

/-- Take the copies for a peer that have been sent out of the commit buffer: they belong to an old epoch (R340). -/
def dropSent (p : Nat) (l : List CbEntry) : List CbEntry :=
  (l.map fun e => { e with copies := e.copies.filter fun c => !(c.peer == p && c.sent) }).filter fun e =>
    e.verb.isSome || e.copies != []

/-- The path to a target starts a new epoch for a peer (R340): both ends number it from 0, and what was sent before fails.
A path within the package has no flits to number; its target takes units for the window again. -/
def State.startEpoch (s : State) (p e : Nat) : State :=
  let g := 8 * wmPkg e + wmDie e
  if wmPkg e = s.host.pkg then
    s.onDie ⟨wmDie e % 8, Nat.mod_lt _ (by decide)⟩ fun t => t.modPath (inPath (s.gdie s.cur)) fun x =>
      { x with cut := x.cut.filter fun w => w != wmWid e }
  else
    (((s.modOrd fun o => { o with cb := dropSent p o.cb }).setEgress p []).modPath g fun t =>
      { t with seqOut := 0, unacked := [], epoch := true }).whenever .flitSend (.send (512 + p))

/-- Records that an egress queue of `n` frames from a leaf on has (R337). -/
def State.egressCap (s : State) (first n : Nat) : Nat := n * s.egressPer first

/-- An entry bound to some egress frames has room in the egress queue of its peer, in a frame of the queue. A leaf that is
no frame of the queue gives no room (log 96). -/
def State.egressRoom (s : State) (p first n tail : Nat) : Bool :=
  decide ((s.egressOf p).length + 1 < s.egressCap first n) && s.egressOk p first (tail % s.egressCap first n)

/-- What is on its way from the die to a peer within the package is discarded (R338). -/
def State.dropOnWay (s : State) (p : Nat) : State :=
  let g := s.gdie s.cur
  let gone := fun (x : Arrived) => x.iod == 2 && x.issuer == g && x.unit.any fun u => u.peer == p
  { s with dies := s.dies.map fun d => { d with ord := { d.ord with arrived := d.ord.arrived.filter fun x => !gone x } } }

/-- A peer breaks (R338): its entries are discarded and counted, BRK is set, a fault is posted, and cause 0x0E is noted once
when its TRAP bit is set (R339). -/
def State.breakPeer (s : State) (p why : Nat) : State :=
  match s.peerEntry p with
  | none => s
  | some e =>
    if wmState e = 3 then s
    else
      let mine := s.die.ord.cb.filter fun x => x.copies.any fun c => c.peer == p
      let sent := mine.filter fun x => x.copies.any fun c => c.peer == p && c.sent
      -- what has been sent is older than what waits in the egress queue, and that is older than the rest
      let oldest := (sent.map CbEntry.addr ++ (s.egressOf p).map EgressRec.addr ++ mine.map CbEntry.addr).headD 0
      let n := mine.length + (s.egressOf p).length
      let own := s.ownsPeer p
      let s := (s.setPeer p 18 2 3).setPeer p 22 3 why
      let s := s.setPeer p 72 32 (bitsAt e 104 32)
      let s := ((s.modOrd fun o => { o with cb := dropCopies p o.cb }).setEgress p []).dropOnWay p
      let s := s.modDie fun d => { d with win := { d.win with
        paths := d.win.paths.foldl (fun m x => SMap.put {} m x.1 { x.2 with
          unacked := x.2.unacked.filter fun t => t.peer != p }) [] } }
      let s := (s.dropFor p n).setBrk p
      let s := s.modCtx fun c => { c with rcBroke := if own then c.rcBroke <|> some p else c.rcBroke }
      let s := s.postFault (s.gdie s.cur) faultBroken [.ofNat 64 p, .ofNat 64 why]
      if bitAt e 20 && !bitAt e 21 then
        (s.setPeer p 21 1 1).modDie fun d => { d with win := { d.win with traps := d.win.traps ++ [(p, oldest)] } }
      else s

/-- The traps of broken peers that fall due on the context's next bundle: those of its domain (R339). -/
def State.takeBroken (s : State) : State :=
  let l := s.die.win.traps.filter fun x => s.ownsPeer x.1
  if l = [] then s
  else (s.modDie fun d => { d with win := { d.win with traps := d.win.traps.filter fun x => !l.contains x } }).modCtx
    fun c => { c with due := c.due ++ l.map fun x => { cause := 0x0E, aux := x.1 * 2 ^ 32 + x.2 } }

/-! ### Reaching a peer (R328, R329) -/

/-- Ring `r` of port `k` reaches package `q`, UNSYNC disregarded (R253). -/
def State.ringLit (s : State) (k r q : Nat) : Bool :=
  match s.fab.ports.toList[k]? with
  | some p => SMap.get 0 p.tune r == (q + 32 - s.host.pkg) % 32 + 1 && p.lock.getLsbD r && !p.gate && !p.srclost
  | none => false

/-- Some ring of the package reaches package `q`, UNSYNC disregarded. -/
def State.lit (s : State) (q : Nat) : Bool := (List.range 16).any fun k => (List.range 16).any fun r => s.ringLit k r q

/-- Ring `r` of port `k` reaches package `q`. -/
def State.ringReaches (s : State) (k r q : Nat) : Bool := s.ringLit k r q && !s.fab.unsync

/-- Some ring of the package reaches package `q`. -/
def State.reaches (s : State) (q : Nat) : Bool :=
  (List.range 16).any fun k => (List.range 16).any fun r => s.ringReaches k r q

/-! ### The commit buffer (R272) -/

/-- Entries that the commit buffer holds free. -/
def Order.free (o : Order) : Nat := 2048 - o.cb.length

/-- Buffered writes of the die, and its exchanges, are held back until CONFIRM (R359). -/
def State.held (s : State) : Bool := s.ctx.token && !s.ctx.confirmed

/-- An entry of the commit buffer is held back, also when the kernel that made it has ended or halted (R359). -/
def Order.holds (o : Order) (id : Nat) : Bool := o.cb.any fun e => e.id == id && e.hold.isSome

/-- Enter an entry, with PEAK (R274). A get is not held back (R359). -/
def State.cbPush (s : State) (e : CbEntry) : State :=
  let get := e.verb.any fun v => v.kind == .get
  let e := { e with hold := if s.held && !get then some s.ctx.launchId.toNat else none }
  s.modOrd fun o => { o with cb := o.cb ++ [e], cbNext := o.cbNext + 1, peak := max o.peak (o.cb.length + 1) }

/-- The GTC `w` die-clock cycles from now (R10); slewing is left aside. -/
def State.gtcAt (s : State) (w : Nat) : Nat := s.gtc + (w + b2n s.half) / 2

/-- Free an entry of the current die. -/
def State.cbFree (s : State) (id : Nat) : State := s.modOrd fun o => { o with cb := o.cb.filter fun e => e.id != id }

/-- A copy is done: it has committed at its target, or failed there. -/
def State.copyDone (s : State) (id p : Nat) : State :=
  s.modOrd fun o => { o with cb := (o.cb.map fun e =>
    if e.id = id then { e with copies := e.copies.filter fun c => c.peer != p } else e).filter fun e =>
      e.verb.isSome || e.copies != [] }

/-- Bytes 0 to 47 of the body of a flit with up to three units (R325). -/
def flitHead (seq src die wid stamp : Nat) (us : List RUnit) : List Byte :=
  let off := fun (k : Nat) => ((us[k]?).map fun u => u.off / 64).getD 0
  let mask := fun (k : Nat) => ((us[k]?).map fun u => u.mask.toNat).getD 0
  natBytes seq 4 ++ natBytes src 1 ++ natBytes die 1 ++ natBytes wid 2 ++ natBytes stamp 4 ++ natBytes us.length 1 ++
    natBytes 0 1 ++ natBytes (off 0) 2 ++ natBytes (off 1) 2 ++ natBytes (off 2) 2 ++ natBytes (mask 0) 8 ++
    natBytes (mask 1) 8 ++ natBytes (mask 2) 8 ++ natBytes 0 4

/-- The 240-byte body of a flit (R325). A `SIGNAL`'s bytes stand at their place in the unit (log 9). -/
def flitBody (seq src die wid stamp : Nat) (us : List RUnit) : List Byte :=
  flitHead seq src die wid stamp us ++
    (List.range 3).flatMap fun k => natBytes (((us[k]?).map fun u => u.data.toNat).getD 0) 64

/-- The 128 bytes of an egress record (R337). -/
def egressBytes (u : RUnit) (wid die : Nat) : List Byte :=
  flitHead 0 u.src die wid (u.stamp % 2 ^ 32) [u] ++ natBytes u.data.toNat 64 ++ natBytes 0 16

/-- Move a copy of an entry to the egress queue of its peer, or break the peer with WHY 1 when there is no room (R336,
R338). -/
def State.toEgress (s : State) (x : CbEntry) (c : Copy) (u : RUnit) : State :=
  match s.peerEntry c.peer with
  | none => s.copyDone x.id c.peer
  | some e =>
    if s.egressRoom c.peer c.eqleaf c.eqn (bitsAt e 104 32) then
      let cap := s.egressCap c.eqleaf c.eqn
      let t := bitsAt e 104 32 % cap
      let s := s.putRecord c.eqleaf t (egressBytes u c.wid c.die)
      let s := if s.egressOf c.peer = [] then s.setPeer c.peer 72 32 t else s
      let s := s.setPeer c.peer 104 32 ((t + 1) % cap)
      (s.setEgress c.peer (s.egressOf c.peer ++ [⟨x.addr, u.signal, c.pkg, c.die, c.eqleaf, c.eqn, t⟩])).copyDone x.id c.peer
    else s.breakPeer c.peer 1

/-- The byte mask of a write of `n` bytes from byte `k` of a unit. -/
def byteMask (k n : Nat) : BitVec 64 := .ofNat 64 ((2 ^ n - 1) * 2 ^ k)

/-- Bytes of data put into a unit from byte `k`. -/
def unitData (d : BitVec 512) (k : Nat) (bs : List Byte) : BitVec 512 :=
  .ofNat 512 (setBits d.toNat (8 * k) (8 * bs.length) (bytesNat bs))

/-- Stamp a unit and copy it to every target of its peers (R324, R266, R338). Copies for dies of this package arrive over
the span stage; the others wait to be sent as flits. -/
def State.stampUnit (s : State) (peers : List Nat) (off addr : Nat)
    (mask : BitVec 64) (data : BitVec 512) (signal : Bool) : State :=
  let s := peers.foldl (fun s p => s.tabRead s.die.win.wmbase.toNat p 32) s
  let id := s.die.ord.cbNext
  let u : RUnit :=
    { src := s.gdie s.cur, wid := 0, off := off, mask := mask, data := data, stamp := s.gtc, seq := id,
      signal := signal, cb := id }
  let s := s.cbPush { id := id, unit := some u, addr := addr, copies := [], stamp := s.gtc }
  let s := peers.foldl (fun s p =>
    match s.peerEntry p with
    | none => (s.setBrk p).postFault (s.gdie s.cur) faultBroken [.ofNat 64 p, 3]
    | some e =>
      if !wmTarget e then s
      else if wmState e = 3 then s.dropFor p 1
      else
        let c : Copy :=
          { peer := p, pkg := wmPkg e, die := wmDie e, wid := wmWid e, eqleaf := bitsAt e 32 32, eqn := bitsAt e 64 8 }
        let s := (s.touchDie (8 * c.pkg + c.die)).modOrd fun o => { o with cb := o.cb.map fun x =>
          if x.id = id then { x with copies := x.copies ++ [c] } else x }
        if c.pkg = s.host.pkg then
          let (w, s) := s.takeWait
          let a : Arrived :=
            { a := u.stamp + s.die.ord.rfdly, phys := s.gtcAt w, issuer := u.src, seq := id,
              unit := some { u with wid := c.wid, peer := p }, onWay := true }
          if h : c.die < 8 then
            (s.onDie ⟨c.die, h⟩ fun s => s.modOrd fun o => { o with arrived := o.arrived ++ [a] }).modOrd fun o =>
              { o with cb := o.cb.map fun x => if x.id = id then
                { x with copies := x.copies.map fun k => if k.peer = p then { k with sent := true } else k } else x }
          else s
        else if wmState e = 2 then
          if s.egressRoom p c.eqleaf c.eqn (bitsAt e 104 32) then s.whenever .servicePathSequence (.send p)
          else s.breakPeer p 1
        else s.whenever .flitSend (.send p)) s
  s.modOrd fun o => { o with cb := o.cb.filter fun e => e.id != id || e.verb.isSome || e.copies != [] }

/-- The peers of a peer set as it stands (R317); of one that cannot be read, none (log 95). -/
def State.peersOf (s : State) (pset : Nat) : List Nat := ((s.peerSet pset).map Prod.fst).getD []

/-- Close a combining entry: it is stamped, for the peers that its set now names (R269, R317). -/
def State.closeCombine (s : State) (id : Nat) : State :=
  match s.die.ord.combine.find? fun e => e.id == id with
  | some e =>
    let s := s.tabRead s.die.win.psbase.toNat e.pset 64
    (s.modOrd fun o => { o with combine := o.combine.filter fun x => x.id != id }).stampUnit (s.peersOf e.pset) e.off e.addr
      e.mask e.data false
  | none => s

/-- The targets of some peers, as global die indexes. -/
def State.targetsOf (s : State) (peers : List Nat) : List Nat :=
  peers.filterMap fun p => (s.peerEntry p).bind fun e => if wmTarget e then some (8 * wmPkg e + wmDie e) else none

/-- Two sets of peers share a path: the same target (R269). -/
def State.pathsMeet (s : State) (a b : List Nat) : Bool := (s.targetsOf a).any fun g => (s.targetsOf b).contains g

/-- The open entries of the paths to some peers close, but for those that take the store (R269). -/
def State.closeMeeting (s : State) (peers : List Nat) (takes : Combine → Bool) : State :=
  (s.die.ord.combine.filter fun e => s.pathsMeet (s.peersOf e.pset) peers && !takes e).foldl
    (fun s e => s.closeCombine e.id) s

/-- A reflected store of bytes within one 64-byte unit, or a reflected `SIGNAL`, at local address `a` (R324, R269). -/
def State.reflect (s : State) (a : Nat) (bs : List Byte)
    (signal : Bool) : State :=
  let s := s.tabRead s.die.win.psbase.toNat (granPset (s.mem.entryOf a)) 64
  match s.txWindow a with
  | none => s
  | some (pset, peers, off) =>
    let u := off / 64 * 64
    let k := off % 64
    let takes := fun (e : Combine) => !signal && e.pset == pset && e.off == u && !e.barred
    let s := s.closeMeeting peers takes
    if signal then s.stampUnit peers u (a / 64 * 64) (byteMask k bs.length) (unitData 0 k bs) true
    else if s.die.ord.combine.any takes then
      let put := fun (e : Combine) =>
        if takes e then { e with mask := e.mask ||| byteMask k bs.length, data := unitData e.data k bs } else e
      s.modOrd fun o => { o with combine := o.combine.map put }
    else
      let s := match s.die.ord.combine with
        | e :: _ => if 32 ≤ s.die.ord.combine.length then s.closeCombine e.id else s
        | [] => s
      let id := s.die.ord.cmNext
      let e : Combine :=
        { id := id, pset := pset, off := u, addr := a / 64 * 64, mask := byteMask k bs.length,
          data := unitData 0 k bs, opened := s.now }
      (s.modOrd fun o => { o with combine := o.combine ++ [e], cmNext := o.cmNext + 1 }).after 16
        (.combiningEntryClose id)

/-- A pour of a word into a TXW granule, its bytes given by offset: it is stamped in its landing cycle, so it takes a
commit-buffer entry at once, and the open entries of its paths close (R266, R269). -/
def State.reflectPour (s : State) (a : Nat) (bs : List (Nat × Byte)) : State :=
  let s := s.tabRead s.die.win.psbase.toNat (granPset (s.mem.entryOf a)) 64
  match s.txWindow a with
  | none => s
  | some (_, peers, off) =>
    let k := off % 64
    let mask := bs.foldl (fun m x => m ||| byteMask (k + x.1) 1) 0
    let data := bs.foldl (fun d x => unitData d (k + x.1) [x.2]) 0
    (s.closeMeeting peers fun _ => false).stampUnit peers (off / 64 * 64) (a / 64 * 64) mask data false

/-- No open entry takes a store past a `MARK`, a `SIGNAL` or a `FENCE.RC` (R269). -/
def State.barCombine (s : State) : State :=
  s.modOrd fun o => { o with combine := o.combine.map fun e => { e with barred := true } }

end Sys2Proof.Machine
end

