-- ==== Sys2Proof/Machine/Streams.lean ====
section
/-!
DEFINITION. Streams and sluices: patterns (R196), the lane map of a stencil (R102 to R104), launches with their marks
and residency flags (R198, R199, R202, R203), reservations and presentations of pour-side streams (R201, R100, R101).
-/

namespace Sys2Proof.Machine

/-! ### Patterns (R196) -/

/-- A signed word stride of a pattern. -/
def stride (pat lo : Nat) : Int := sextNat (pat / 2 ^ lo) 16

/-- First bank, and bank count minus 1. -/
def Stream.bank0 (t : Stream) : Nat := bitsAt t.pat.toNat 13 7
def Stream.nbk (t : Stream) : Nat := bitsAt t.pat.toNat 20 7

/-- Counter limits. -/
def Stream.cnt0 (t : Stream) : Nat := bitsAt t.pat.toNat 27 13
def Stream.cnt1 (t : Stream) : Nat := bitsAt t.pat.toNat 40 13
def Stream.cnt2 (t : Stream) : Nat := bitsAt t.pat.toNat 112 16

/-- The word that the pattern's next entry addresses. -/
def Stream.word (t : Stream) : Nat :=
  let p := t.pat.toNat
  ((((bitsAt p 0 13 : Nat) : Int) + t.i0 * stride p 64 + t.i1 * stride p 80 + t.i2 * stride p 96) % 8192).toNat

/-- The pattern past its next entry; after the last one it is exhausted, or starts again with WRAP. -/
def Stream.advance (t : Stream) : Stream :=
  if t.exh then t
  else if t.i0 < t.cnt0 then { t with i0 := t.i0 + 1 }
  else if t.i1 < t.cnt1 then { t with i0 := 0, i1 := t.i1 + 1 }
  else if t.i2 < t.cnt2 then { t with i0 := 0, i1 := 0, i2 := t.i2 + 1 }
  else { t with i0 := 0, i1 := 0, i2 := 0, exh := !t.wrap }

/-- The pattern past its next `n` entries (R205). -/
def Stream.skip (t : Stream) : Nat → Stream
  | 0 => t
  | n + 1 => t.advance.skip n

/-- Bank `k` lies in a bank set, which counts modulo 128. -/
def inBanks (bank0 nbk k : Nat) : Bool := decide ((k + 128 - bank0 % 128) % 128 ≤ nbk)

/-- First sluice lane and width of a port (R194). -/
def portLane (p : Nat) : Nat :=
  match p with
  | 1 => 256
  | 2 => 512
  | 3 => 768
  | 4 => 832
  | 6 => 960
  | 9 => 256
  | 10 => 768
  | 11 => 832
  | 13 => 960
  | _ => 0

def portWidth (p : Nat) : Nat :=
  match p with
  | 3 => 64
  | 4 => 32
  | 6 => 64
  | 9 => 512
  | 10 => 64
  | 11 => 32
  | 13 => 64
  | _ => 256

/-! ### The lane map of a stencil (R102 to R104) -/

/-- The control bit of switch `w` of stage `s`, 0 or 1. -/
def switchBit (st : BitVec 9728) (s w : Nat) : Nat := b2n (st.getLsbD (512 * s + w))

/-- 0 and 1 exchanged when a switch is cross. -/
def xor1 (a b : Nat) : Nat := (a + b) % 2

/-- The output lane of network `t` at depth `d` that input `a` reaches; `k` depths lie below. -/
def routeFwd (st : BitVec 9728) : Nat → Nat → Nat → Nat → Nat
  | 0, _, t, a => xor1 a (switchBit st 9 t)
  | k + 1, d, t, a =>
    let base := t * (512 / 2 ^ d)
    let u := xor1 (a % 2) (switchBit st d (base + a / 2))
    let p := routeFwd st k (d + 1) (2 * t + u) (a / 2)
    2 * p + xor1 u (switchBit st (18 - d) (base + p))

/-- The input lane of network `t` at depth `d` whose data output `b` receives. -/
def routeBack (st : BitVec 9728) : Nat → Nat → Nat → Nat → Nat
  | 0, _, t, b => xor1 b (switchBit st 9 t)
  | k + 1, d, t, b =>
    let base := t * (512 / 2 ^ d)
    let u := xor1 (b % 2) (switchBit st (18 - d) (base + b / 2))
    let a := routeBack st k (d + 1) (2 * t + u) (b / 2)
    2 * a + xor1 u (switchBit st d (base + a))

/-- Output lane of a sluice for an input lane, and the converse. -/
def laneOut (st : BitVec 9728) (a : Nat) : Nat := if st = 0 then a else routeFwd st 9 0 0 a
def laneIn (st : BitVec 9728) (b : Nat) : Nat := if st = 0 then b else routeBack st 9 0 0 b

/-- A stencil of a bay: draw slots 0 to 127, pour slots 128 to 255; slot 0 of each is the identity (R54, R105). -/
def Bay.stencil (x : Bay) (key : Nat) : BitVec 9728 := if key % 128 = 0 then 0 else SMap.get 0 x.stn key

/-! ### Launches (R198, R199, R202, R203) -/

/-- A word that a draw reads: its lanes, residency, and the mark it gives. -/
structure DrawWord where
  bank : Nat
  lanes : List Lane
  nr : Bool
  cause : Nat
  addr : Nat
  deriving DecidableEq, Repr

/-- A client of one draw of a bay: a launching stream with its bank set, or a WR of the pump, whose banks the stencil
alone selects (R284). -/
structure DrawClient where
  lane0 : Nat
  width : Nat
  q : Option Nat
  banks : Option (Nat × Nat)
  word : Nat
  deriving DecidableEq, Repr

/-- The bank may be read for a client. -/
def DrawClient.has (c : DrawClient) (bank : Nat) : Bool :=
  match c.banks with
  | some (b0, n) => inBanks b0 n bank
  | none => true

/-- A stream launches in an issue cycle (R198). -/
def Stream.launches (t : Stream) : Bool :=
  t.bound && !isPour t.port && !t.feed && !t.exh && decide (t.queue.length + t.infl < t.depth + 1)

/-- The streams of a bay that launch, in order of port and number (R199). -/
def Bay.launching (x : Bay) : List Nat :=
  [0, 1, 2, 3, 4, 6].flatMap fun p => (List.range 32).filter fun q => (x.str q).launches && (x.str q).port == p

/-- The clients of a bay's draw in increasing order of their unit-side lanes. -/
def Bay.clients (x : Bay) (wrs : List DrawClient) : List DrawClient :=
  let l := x.launching.map fun q =>
    let t := x.str q
    ⟨portLane t.port, portWidth t.port, some q, some (t.bank0, t.nbk), t.word⟩
  (l.filter fun c => c.lane0 < 864) ++ wrs ++ l.filter fun c => 864 ≤ c.lane0

/-- The word that each bank reads: the one addressed for the lowest-numbered unit-side lane routed from the bank (R101,
R199). -/
def bankWords (st : BitVec 9728) (cl : List DrawClient) : List (Nat × Nat) :=
  cl.foldl (fun acc c => (List.range c.width).foldl (fun acc k =>
    let b := laneIn st (c.lane0 + k) / 8
    if c.has b && !acc.any (fun p => p.1 == b) then acc ++ [(b, c.word)] else acc) acc) []

/-- Read one bank word for a draw (R202, R203, R384). -/
def State.drawWord (s : State) (bay : BayIx) (bank word : Nat) : State × DrawWord :=
  let a := wordAddr s.cur.val bay.val bank word
  let (s, st, _) := s.decodeWord (a / 16) true
  let lanes := lanesOf (s.mem.wordBytes (a / 16))
  let nr := SMap.get false s.mem.nr (a / 16)
  let cause := if !s.allows a .load then 0x0D else match st with
    | .good => 0
    | .poison => 0x0A
    | .bad => 0x0B
  (s, ⟨bank, lanes, nr, cause, a⟩)

/-- Read the words of a draw one by one. -/
def State.drawWords (s : State) (bay : BayIx) : List (Nat × Nat) → State × List DrawWord
  | [] => (s, [])
  | (b, w) :: l =>
    let (s, x) := s.drawWord bay b w
    let (s, xs) := s.drawWords bay l
    (s, x :: xs)

/-- Precedence of the marks of an entry (R202). -/
def markRank (c : Nat) : Nat := if c = 0x0D then 3 else if c = 0x0B then 2 else if c = 0x0A then 1 else 0

/-- The lanes of a client, each with its word if a bank of the client's set feeds it. -/
def clientLanes (st : BitVec 9728) (c : DrawClient) (ws : List DrawWord) : List (Option (DrawWord × Nat)) :=
  (List.range c.width).map fun k =>
    let L := laneIn st (c.lane0 + k)
    if c.has (L / 8) then (ws.find? fun w => w.bank == L / 8).map (·, L % 8) else none

/-- The lane's value: an unmapped word delivers zero (R202). -/
def drawLane (x : Option (DrawWord × Nat)) : Lane :=
  match x with
  | some (w, i) => if w.cause = 0x0D then 0 else w.lanes.getD i 0
  | none => 0

/-- The marks of an entry's lanes. -/
def entryMarks (l : List (Option (DrawWord × Nat))) : List (Nat × Nat × Nat) :=
  l.zipIdx.filterMap fun x => match x.1 with
    | some (w, _) => if w.cause = 0 then none else some (x.2, w.cause, w.addr)
    | none => none

/-- The mark of an entry: the highest cause, and the first marked word's address. DEDUCED (log 14): the first word is
that of the lowest lane. -/
def entryMark (e : Entry) : Option (Nat × Nat) :=
  match e.marks with
  | [] => none
  | x :: _ => some (e.marks.foldl (fun c y => if markRank c < markRank y.2.1 then y.2.1 else c) 0, x.2.2)

/-- The entry that lanes form. -/
def entryOf (l : List (Option (DrawWord × Nat))) : Entry :=
  { lanes := l.map drawLane
    nr := l.map fun x => match x with
      | some (w, _) => w.nr
      | none => false
    marks := entryMarks l }

/-- Launch one stream: POS advances, INFL counts, and the entry arrives six timeline cycles later. -/
def State.launchOne (s : State) (bay : BayIx) (st : BitVec 9728) (ws : List DrawWord) (c : DrawClient) : State :=
  match c.q with
  | none => s
  | some q =>
    (s.modStr bay q fun t => { t.advance with infl := t.infl + 1 }).pendAt (s.ctx.tl + 5) prioFree
      (.streamEntryArrival bay q (entryOf (clientLanes st c ws)))

/-- The draw of one bay in an issue cycle: streams launch, and the data of the WRs of the cycle are drawn with them:
the 32 lanes of each WR with its two poison flags (R284, R387). -/
def State.drawBay (s : State) (dstn : Nat) (bay : BayIx) (wrs : List DrawClient) : State × List (List Lane × Bool × Bool) :=
  let x := s.bayAt bay
  let cl := x.clients wrs
  if cl = [] then (s, [])
  else
    let st := x.stencil dstn
    let (s, ws) := s.drawWords bay (bankWords st cl)
    let s := cl.foldl (fun s c => s.launchOne bay st ws c) s
    (s, wrs.map fun c =>
      let l := clientLanes st c ws
      let bad := fun (h : Nat) => ((l.drop (16 * h)).take 16).any fun x => match x with
        | some (w, _) => w.cause == 0x0A || w.cause == 0x0B
        | none => false
      (l.map drawLane, bad 0, bad 1))

/-! ### Consumption (R195, R200) -/

/-- Word 2 of an unbound-stream trap (R195). -/
def streamAux (q bay : Nat) (exh empty : Bool) : Nat := q + bay * 2 ^ 8 + b2n exh * 2 ^ 11 + b2n empty * 2 ^ 12

/-- A trap on a stream of a bay. -/
def streamTrap (cause aux : Nat) (bay : BayIx) : Trap := ⟨cause, aux, 2 ^ bay.val⟩

/-- The trap of a slot that names a stream of a bay through a port code (R195). -/
def State.nameTrap (s : State) (bay : BayIx) (q want : Nat) : Option Trap :=
  let t := (s.bayAt bay).str q
  if !t.bound || !portFits want t.port then some (streamTrap 0x0C (streamAux q bay.val (t.bound && t.exh) false) bay)
  else none

/-- A source can never fill: nothing queued and nothing in flight (R195). -/
def Stream.dry (t : Stream) : Bool := t.queue == [] && t.infl == 0

/-- The trap of a slot that reads the head of a stream; `eat` consumes it, and then a mark traps (R195, R202). -/
def State.headTrap (s : State) (bay : BayIx) (q want : Nat) (eat : Bool) : Option Trap :=
  match s.nameTrap bay q want with
  | some t => some t
  | none =>
    let t := (s.bayAt bay).str q
    if t.dry then some (streamTrap 0x0C (streamAux q bay.val t.exh (!t.exh)) bay)
    else match t.queue with
      | e :: _ => if eat then (entryMark e).map fun m => streamTrap m.1 m.2 bay else none
      | [] => none

/-- A slot waits on the head of a stream (R200). -/
def State.headWaits (s : State) (bay : BayIx) (q : Nat) : Bool :=
  let t := (s.bayAt bay).str q
  t.bound && t.queue == [] && t.infl != 0

/-- Consume the head entry. -/
def State.eatHead (s : State) (bay : BayIx) (q : Nat) : State :=
  s.modStr bay q fun t => { t with queue := t.queue.drop 1, slip := 0 }

/-- The lanes of the head entry. -/
def State.head (s : State) (bay : BayIx) (q : Nat) : List Lane :=
  match ((s.bayAt bay).str q).queue with
  | e :: _ => e.lanes
  | [] => []

/-- Consume the heads of the source streams of a slot in each bay. -/
def State.eatAll (s : State) (n : Names) : State :=
  (baysOf n.bays).foldl (fun s b => n.eat.foldl (fun s e => s.eatHead b e.1) s) s

/-! ### Production (R201) -/

/-- The first word of a reserved entry that lies in a granule closed to the context. -/
def State.pourClosed (s : State) (bay : BayIx) (t : Stream) : Option Nat :=
  ((List.range (t.nbk + 1)).map fun k => wordAddr s.cur.val bay.val ((t.bank0 + k) % 128) t.word).find?
    fun a => !(s.allows a .pour && s.txOk a)

/-- The trap of a producing slot (R195, R201). -/
def State.makeTrap (s : State) (bay : BayIx) (q want : Nat) : Option Trap :=
  match s.nameTrap bay q want with
  | some t => some t
  | none =>
    let t := (s.bayAt bay).str q
    if t.exh then some (streamTrap 0x0C (streamAux q bay.val true false) bay)
    else (s.pourClosed bay t).map fun a => streamTrap 0x0D a bay

/-- Reserve the next entry of a pour-side stream. -/
def State.reserve (s : State) (bay : BayIx) (q : Nat) : State × Resv :=
  let t := (s.bayAt bay).str q
  (s.modStr bay q Stream.advance, ⟨bay, q, t.bank0, t.nbk, t.word⟩)

/-- Add lanes to the pour that the bay presents in the present timeline cycle; it is written six cycles later under the
pour stencil of the cycle (R25). -/
def addPour (p : Pour) (at_ seq : Nat) : List Pend → List Pend
  | [] => [⟨at_, prioPour, seq, .pourBankWrite p, .none⟩]
  | y :: l =>
    if y.at_ = at_ then
      match y.instr with
      | .pourBankWrite r =>
        if r.bay = p.bay then { y with instr := .pourBankWrite { r with lanes := r.lanes ++ p.lanes } } :: l
        else y :: addPour p at_ seq l
      | _ => y :: addPour p at_ seq l
    else if at_ < y.at_ then ⟨at_, prioPour, seq, .pourBankWrite p, .none⟩ :: y :: l
    else y :: addPour p at_ seq l

/-- Present lanes in the present timeline cycle. -/
def State.presentLanes (s : State) (bay : BayIx) (ls : List PourLane) : State :=
  if ls = [] then s
  else
    let p : Pour := ⟨bay, (s.bayAt bay).stencil (128 + s.die.pstn), ls⟩
    s.modCtx fun c => { c with pend := addPour p (c.tl + 6) c.seqNo c.pend, seqNo := c.seqNo + 1 }

/-- Present a unit's result for a reserved entry; a lane without its valid bit is not presented (R100). -/
def State.present (s : State) (lane0 : Nat) (r : Resv) (lanes : List Lane) (valid : List Bool) : State :=
  s.presentLanes r.bay ((lanes.zip valid).zipIdx.filterMap fun x =>
    if x.1.2 then some { lane := lane0 + x.2, v := x.1.1, banks := some (r.bank0, r.nbk), word := r.word } else none)

end Sys2Proof.Machine
end

