-- ==== Sys2Proof/Machine/Check.lean ====
section
/-!
DEFINITION. What each acting slot is checked for when its bundle comes to issue: the waits of R69, R138, R200, R206,
R211, R214, R224, R228 and of the waiting instructions (R244 to R253, R261, R262), and the traps of R423 items 2 to 6.
-/

namespace Sys2Proof.Machine

/-- What the checks of a slot find: a wait, safe or not for a halt (R240), and the first trap. -/
structure Check where
  wait : Option Bool := none
  trap : Option Trap := none
  deriving DecidableEq, Repr

/-- The first answer of a list. -/
def firstOf {α : Type} : List (Option α) → Option α
  | [] => none
  | some a :: _ => some a
  | none :: l => firstOf l

/-- A trap when a condition holds. -/
def trapIf (b : Bool) (t : Trap) : Option Trap := if b then some t else none

/-- The lowest bay of a mask. -/
def lowBay (m : Bays) : Nat := ((List.range 8).find? fun b => m.getLsbD b).getD 0

/-! ### Registers (R69, R70, R138) -/

/-- The slot names a register that a queued load has yet to deliver (R69). -/
def Ctx.pending (c : Ctx) (n : Names) : Bool :=
  (n.rd ++ n.wr).any fun r =>
    (r.kind == .s && r.ix != 0 && c.pendS.getLsbD r.ix) || (r.kind == .h && c.pendH.getLsbD r.ix)

/-- The failed-register trap (R138): the slot reads or writes a marked register, or is a `MARK` or an `EXIT`. -/
def Ctx.failedTrap (c : Ctx) (i : Instr) : Option Trap :=
  let all := match i with
    | .mark => true
    | .exit _ => true
    | _ => false
  let n := slotNames i
  (c.failed.find? fun f => all || (n.rd ++ n.wr).any fun r =>
    r.ix == f.reg && ((r.kind == .s && !f.isH) || (r.kind == .h && f.isH))).map fun f => ⟨f.cause, f.ea, 0⟩

/-- The registers that a step in flight writes. -/
def resultRegs : Instr → List Reg
  | .timelineResultLanding (.sreg r _ _) => [rS r]
  | .timelineResultLanding (.preg r _ _) => [rP r]
  | .timelineResultLanding (.preds _) => allPreds
  | .timelineResultLanding (.hreg r _) => [rH r]
  | .timelineResultLanding (.vec b u d _ _ _) =>
    let m : Bays := 1#8 <<< b.val
    let k := match u with
      | .alu => 0
      | .fma => 1
      | .trans => 2
      | .conv => 3
    (match d with
     | .v r => [⟨.v, r, m⟩]
     | .o r => [⟨.o, r, m⟩]
     | .none => []) ++ [⟨.k, k, m⟩]
  | .timelineResultLanding (.mask b m _ _) => [⟨.m, m, 1#8 <<< b.val⟩]
  | _ => []

/-- The cycles that a slot is short on a register: reads see only results that have landed, and a write must land after
every result in flight (R70). -/
def Ctx.short (c : Ctx) (r : Reg) (lands : Option Nat) : Nat × Bays :=
  c.pend.foldl (fun acc p =>
    (resultRegs p.instr).foldl (fun acc x =>
      if (r.ix == 0 && (r.kind == .s || r.kind == .p)) || !x.meets r then acc
      else
        let t := match lands with
          | none => p.at_ + 1 - c.tl
          | some l => p.at_ + 1 - l
        if t = 0 then acc else (max acc.1 t, acc.2 ||| (x.bays &&& r.bays))) acc) (0, 0)

/-- The scoreboard trap of a slot (R70), when CHECK is 1. DESIGN CHOICE (log 83): the predicate of its guard is no
destination that it reads. -/
def Ctx.scoreTrap (c : Ctx) (i : Instr) : Option Trap :=
  let n := slotNames i
  let tr := fun (l : Option Nat) (r : Reg) =>
    let (t, bays) := c.short r l
    trapIf (t != 0) ⟨0x06, r.ix % 64 + r.kind.code * 64 + t % 256 * 2 ^ 10 + bays.toNat * 2 ^ 18, 0⟩
  if !c.check then none
  else firstOf (n.rd.map (tr none) ++ (if n.lat = 0 then [] else n.wr.map (tr (some (c.tl + n.lat - 1)))))

/-! ### Privilege (R66) -/

/-- The control register that a slot names. -/
def csrOf : Instr → Option Nat
  | .csrr _ n => some n.toNat
  | .csrw _ _ n => some n.toNat
  | .csrs _ _ n => some n.toNat
  | .csrc _ _ n => some n.toNat
  | _ => none

/-- The privilege trap of a slot: word 2 holds the number of a control register. -/
def Ctx.privTrap (c : Ctx) (i : Instr) : Option Trap :=
  trapIf (c.priv < (slotNames i).sys) ⟨0x0D, (csrOf i).getD 0, 0⟩

/-! ### Vector, scan and matrix slots -/

/-- An operand-file entry that is read while its full bit is clear (R60). -/
def State.emptyRead (s : State) (n : Names) : Option Trap :=
  (baysOf n.bays).findSome? fun b => n.rd.findSome? fun r =>
    trapIf (r.kind == .o && !(s.bayAt b).full.getLsbD r.ix) ⟨0x16, r.ix + b.val * 2 ^ 8, 2 ^ b.val⟩

/-- A stream result of the VXU or the SCU lands in a bay at the end of the wait for cycle `t` (R154). -/
def Ctx.collides (c : Ctx) (b : BayIx) (t : Nat) (scan : Bool) : Bool :=
  c.pend.any fun p => p.at_ == t && match p.instr with
    | .timelineResultLanding (.present b' 0 _ _ _ _) => !scan && b' == b
    | .timelineResultLanding (.scan b' _) => scan && b' == b
    | _ => false

/-- The trap of R154. -/
def State.portTrap (s : State) (n : Names) (scan : Bool) : Option Trap :=
  if n.make = [] then none
  else (baysOf n.bays).findSome? fun b =>
    trapIf (s.ctx.collides b (s.ctx.tl + n.lat) scan) ⟨0x01, 0, 2 ^ b.val⟩

/-- Word 2 of a format-check trap (R51). -/
def fmtAux (bay : Nat) (lane : Option Nat) : Nat :=
  bay * 2 ^ 8 + (match lane with
    | some l => l * 2 ^ 16 + 2 ^ 26
    | none => 0)

/-- The elements of one source word that a convert opcode consumes: first element and count. -/
def cvRange (opc : Nat) (o : CvOp) : Nat × Nat :=
  let ws := cvWidth o.sf
  let wt := cvWidth o.tf
  match opc with
  | 0 => (0, 32 / max ws wt)
  | 2 => (0, 32 / ws)
  | 3 => (o.b.toNat * (32 / wt), 32 / wt)
  | _ => (0, 32 / ws)

/-- A ternary 0b10 among the consumed elements of a convert slot traps when FMTCHK is 1 (R33, R51). DEDUCED (log 16):
disabled lanes consume nothing. -/
def State.cvTrap (s : State) (bays : Bays) (o : CvOp) (opc : Nat) (src : List (BitVec 8)) : Option Trap :=
  if !s.ctx.fmtchk || o.sf != 10 then none
  else
    let (j0, n) := cvRange opc o
    (baysOf bays).findSome? fun b =>
      let en := s.enabled b o.msel
      let xs := src.map (s.vField b)
      (List.range 256).findSome? fun l =>
        let bad := en.getLsbD (l / 2) && xs.any fun v => (List.range n).any fun j =>
          let e := j0 + j
          e / 8 == l % 2 && elemAt (v.getD (l / 2) 0).toNat 2 e == 2
        trapIf bad ⟨0x17, fmtAux b.val (some l), 2 ^ b.val⟩

/-- The beat port of a bay is busy with an `MX.HOLD` (R180). -/
def State.beatTrap (s : State) (bays : Bays) : Option Trap :=
  (baysOf bays).findSome? fun b => trapIf (s.ctx.tl < (s.bayAt b).mxu.holdEnd) ⟨0x01, 0, 2 ^ b.val⟩

/-- A ternary 0b10 among the weights of a step, when FMTCHK is 1 (R191). -/
def State.ternTrap (s : State) (bays : Bays) (q : Option Nat) (tsel : Nat) : Option Trap :=
  if !s.ctx.fmtchk then none
  else (baysOf bays).findSome? fun b =>
    let m := (s.bayAt b).mxu
    if m.fa = 8 && m.fb = 10 then
      let ls := match q with
        | some q => s.head b q
        | none => (List.range 256).map (SMap.get 0 m.eb)
      (List.range 256).findSome? fun j =>
        let x := (ls.getD j 0).toNat
        trapIf (bitsAt x (4 * tsel) 2 == 2 || bitsAt x (4 * tsel + 2) 2 == 2) ⟨0x17, fmtAux b.val (some (512 + j)), 2 ^ b.val⟩
    else none

/-- PM is an MX pairing (R189). -/
def mxPairing (a b : Nat) : Bool := ((a == 5 || a == 6) && (b == 5 || b == 6)) || (a == 7 && b == 7)

/-- Scale byte `i` of an entry (R189). -/
def scaleByte (ls : List Lane) (i : Nat) : Byte := .ofNat 8 (bitsAt (ls.getD (i / 2) 0).toNat (8 * (i % 2)) 8)

/-- The format checks of an `MX.SCALE` (R189, R191). DESIGN CHOICE (log 84): the mode of every bay is checked before any
scale. -/
def State.scaleTrap (s : State) (bays : Bays) (qsa qsb : Nat) : Option Trap :=
  let pm := (baysOf bays).findSome? fun b =>
    let m := (s.bayAt b).mxu
    trapIf (!mxPairing m.pma m.pmb) ⟨0x17, fmtAux (lowBay bays) none, 2 ^ b.val⟩
  let nan := (baysOf bays).findSome? fun b =>
    (List.range 512).findSome? fun i =>
      let x := if i < 256 then scaleByte (s.head b qsa) i else scaleByte (s.head b qsb) (i - 256)
      let lane := if i < 256 then 256 + i / 2 else 512 + (i - 256) / 2
      trapIf (s.ctx.fmtchk && x == 0xFF) ⟨0x17, fmtAux b.val (some lane), 2 ^ b.val⟩
  firstOf [pm, nan]

/-! ### Streams -/

/-- A slot waits on the head of a source stream (R200). -/
def State.sourceWait (s : State) (n : Names) : Option Bool :=
  if (baysOf n.bays).any fun b => (n.eat ++ n.peek).any fun e => s.headWaits b e.1 then some true else none

/-- The stream traps of a slot, bay by bay (R195, R201, R202). A transfer moves a mark with its entry. -/
def State.streamTraps (s : State) (n : Names) : Option Trap :=
  (baysOf n.bays).findSome? fun b => firstOf
    (n.eat.map (fun e => s.headTrap b e.1 e.2 n.xfer.isNone) ++ n.peek.map (fun e => s.headTrap b e.1 e.2 false) ++
      n.names.map (fun e => s.nameTrap b e.1 e.2) ++
      n.make.map fun m => if m.1.getLsbD b.val then s.makeTrap b m.2.1 m.2.2 else none)

/-- The streams that a slot consumes, by bay. -/
def Names.eats (n : Names) : List (Nat × Nat) := (baysOf n.bays).flatMap fun b => n.eat.map fun e => (b.val, e.1)

/-- The bay `rot` bays on. -/
def bayPlus (b : BayIx) (rot : Nat) : BayIx := ⟨(b.val + rot) % 8, Nat.mod_lt _ (by decide)⟩

/-- The target of a transfer is no FEED stream of a draw port: cause 0x0C names it (R206). -/
def State.xferTrap (s : State) (bays : Bays) (qd rot : Nat) : Option Trap :=
  (baysOf bays).findSome? fun b =>
    let y := bayPlus b rot
    let t := (s.bayAt y).str qd
    trapIf (!t.bound || isPour t.port || !t.feed) (streamTrap 0x0C (streamAux qd y.val (t.bound && t.exh) false) y)

/-- A target of a transfer is full after the consumptions of the bundle (R206). -/
def State.xferFull (s : State) (eaten : List (Nat × Nat)) (bays : Bays) (qd rot : Nat) : Bool :=
  (baysOf bays).any fun b =>
    let y := bayPlus b rot
    let t := (s.bayAt y).str qd
    decide (t.depth + 1 + (eaten.filter fun e => e == (y.val, qd)).length ≤ t.queue.length + t.infl)

/-- The checks of a `Q.BIND` (R197). The checks of layout, extents, id and swizzle are made with those of the handle
(R302, R303); that of the tile's size is not (DEDUCED, log 103). -/
def bindTrap (bays : Bays) (q port : Nat) (h : Handle) (a : Word) : Option Trap :=
  let b := lowBay bays
  firstOf
    [trapIf (hBad h || hShapeBad h || hSwzBad h) ⟨0x17, fmtAux b none, 2 ^ b⟩,
     trapIf (if isPour port then hMode h == 1 else hMode h == 2) ⟨0x0D, 0, 2 ^ b⟩,
     trapIf (bitsAt a.toNat 53 11 != 0) ⟨0x0C, q + b * 2 ^ 8, 2 ^ b⟩]

/-- The span-in FIFO of a bay is empty, or its head is marked (R206, R202). -/
def State.landWait (s : State) (bays : Bays) : Option Bool :=
  if (baysOf bays).any fun b => (s.bayAt b).spanIn == [] then some true else none
def State.landTrap (s : State) (bays : Bays) : Option Trap :=
  (baysOf bays).findSome? fun b => match (s.bayAt b).spanIn with
    | e :: _ => (entryMark e).map fun m => streamTrap m.1 m.2 b
    | [] => none

/-! ### Stencils, probes and engines -/

/-- A cut of a bay is in progress, or waits for the cutter (R119, R121). -/
def Ctx.cutting (c : Ctx) (bay : Nat) : Bool := (c.cut.toList ++ c.cutq).any fun j => j.bay.val == bay

/-- Stencil work of a bay is in progress (R120). -/
def Ctx.stnBusy (c : Ctx) (bay : Nat) : Bool := c.cutting bay || c.lds.any fun j => j.bay.val == bay

/-- The trap of a `STN.WAIT` (R120). DESIGN CHOICE (log 85): a failed cut is reported before failed loads, and each
failure by one execution of the instruction. -/
def State.stnTrap (s : State) (bay : BitVec 3) : Option Trap :=
  let b : BayIx := ⟨bay.toNat, bay.isLt⟩
  let y := s.bayAt b
  let st := bitsAt y.cutWord.toNat 0 8
  let rd := fun (e : Bool × Nat) => (⟨if e.1 then 0x0A else 0x0B, e.2, 2 ^ b.val⟩ : Trap)
  if y.cutNew && (st == 2 || st == 3) then some ⟨0x11, y.cutWord.toNat, 2 ^ b.val⟩
  else if y.cutNew && st == 4 then y.cutErr.map rd
  else y.ldErr.head?.map rd

/-- What a trapping `STN.WAIT` reports is reported once (R120). -/
def State.stnReport (s : State) (bay : BitVec 3) : State :=
  s.modBay ⟨bay.toNat, bay.isLt⟩ fun y =>
    let st := bitsAt y.cutWord.toNat 0 8
    if y.cutNew && (st == 2 || st == 3 || st == 4) then { y with cutNew := false } else { y with ldErr := y.ldErr.drop 1 }

/-- The leaf through which a trapping slot names rows was stored by the die, and no `TLB.SYNC` has ordered the store
(R256). -/
def State.slotStale (s : State) (i : Instr) (cause : Nat) : Bool :=
  match i with
  | .pumpDead h a =>
    cause == 0x09 && SMap.get false s.die.stored (s.leafAddr (hBase (s.ctx.rh h) + (s.rs a).toNat) / 16)
  | _ => false

/-- The record of a trap that a slot raises of its own. -/
def State.slotRec (s : State) (i : Instr) (t : Trap) (slot : Nat) : TrapRec :=
  { s.ctx.recOf t (slotBit slot) with stale := s.slotStale i t.cause }

/-- What a trap of the slot's own reports. -/
def State.slotReport (s : State) (i : Instr) : State :=
  match i with
  | .stnWait bay _ => s.stnReport bay
  | _ => s

/-- The outcome of a probe lookup (R209): its status, the slot, and whether the victim way advances. -/
def Probe.look (p : Probe) (blk : Nat) : Nat × Nat × Option (Nat × Nat) :=
  let sets := p.nslot / p.ways
  let t := if sets = 0 then 0 else blk % sets
  let at_ := fun (w : Nat) => SMap.get (0, 0) p.ent (t * p.ways + w)
  let ways := List.range p.ways
  match ways.find? fun w => (at_ w).1 == blk && (at_ w).2 == 1 with
  | some w => (0, t * p.ways + w, none)
  | none =>
    match ways.find? fun w => (at_ w).1 == blk && (at_ w).2 == 2 with
    | some w => (2, t * p.ways + w, none)
    | none =>
      if ways.all fun w => (at_ w).2 == 2 then (3, t * p.ways, none)
      else
        let w := (ways.find? fun w => (at_ w).2 == 0).getD (SMap.get 0 p.vict t)
        (1, t * p.ways + w, some (t, (w + 1) % p.ways))

/-- The probe table of a bay. -/
def State.probeAt (s : State) (bay : BitVec 3) : Probe := (s.bayAt ⟨bay.toNat, bay.isLt⟩).probe

/-- The block number of a reservoir address (R209). -/
def blockOf (a : Word) : Nat := bitsAt a.toNat 13 27

/-- The traps of a `PROBE` (R209). -/
def State.probeTrap (s : State) (bay : BitVec 3) (a : Word) : Option Trap :=
  trapIf (!(s.probeAt bay).cfg || bitsAt a.toNat 40 24 != 0) ⟨0x18, 0, 2 ^ bay.toNat⟩

/-- The fields of a `PROBE.TAG` operand (R208): bank, slots, ways, completion bank and word. -/
def tagFields (a : Word) : Nat × Nat × Nat × Nat × Nat :=
  (bitsAt a.toNat 0 7, bitsAt a.toNat 7 8 + 1, 2 ^ bitsAt a.toNat 15 2, bitsAt a.toNat 17 7, bitsAt a.toNat 24 13)

/-- The trap of a `PROBE.TAG` (R208). DESIGN CHOICE (log 86): non-zero bits [63:37] are a bad operand like the others. -/
def State.tagTrap (s : State) (bay : BitVec 3) (a : Word) : Option Trap :=
  let (pb, n, w, cb, cw) := tagFields a
  let d := s.cur.val
  let bad := bitsAt a.toNat 37 27 != 0 || bitsAt a.toNat 15 2 == 3 || n % w != 0 || decide (128 < pb + ceilDiv n 16) ||
    decide (8192 < cw + n) ||
    (List.range n).any (fun k => !s.allows (wordAddr d bay.toNat (pb + k / 16) (512 * (k % 16))) .load ||
      !s.allows (wordAddr d bay.toNat cb (cw + k)) .load)
  trapIf bad ⟨0x18, 0, 2 ^ bay.toNat⟩

/-- The engine queue is full (R211). -/
def State.engineFull (s : State) : Bool := 16 ≤ s.die.engine.length

/-! ### The pump -/

/-- Every word of a byte range lies in granules of the die that are mapped for the context (R224). -/
def State.localRange (s : State) (a len : Nat) : Bool :=
  decide (a < 2 ^ 30) && (List.range (ceilDiv (a % 16 + len) 16)).all fun k =>
    adDie a == s.cur && s.allows (seqWord a k) .load

/-- The trap of a `PUMP.LD` or `PUMP.IDLE` (R224). -/
def State.stageTrap (s : State) (a b : Word) (limit : Nat) (segment : Bool) : Option Trap :=
  if segment then none
  else firstOf [trapIf (limit < b.toNat) ⟨0x18, 0, 0⟩, trapIf (!s.localRange a.toNat b.toNat) ⟨0x0D, a.toNat, 0⟩]

/-- The rows of the HBM frame of tile `t` of a handle's tensor; none when the tile is not in HBM. The error is a cause. -/
def State.tileRows (s : State) (h : Handle) (t : Nat) : Except Nat (List (Nat × Nat)) :=
  match geomOf h with
  | none => .error 0x17
  | some (n, g) =>
    if n ≤ t ∨ s.ctx.leafN ≤ hBase h + t then .error 0x09
    else
      let l := s.leafAt (s.leafAddr (hBase h + t))
      if !leafOk s.ctx g l then .error 0x09
      else if !lfHbm l then .ok []
      else .ok ((List.range (2 ^ g.fan)).flatMap fun m => (List.range g.rows).map fun r =>
        (g.bank m, lfFrame l * g.rows + r))

/-- The trap of a `PUMP.GO` (R279, R280). -/
def State.goTrap (s : State) (row : Nat) : Option Trap :=
  match s.ctx.pump.standby with
  | none => some ⟨0x02, 2 ^ 63 + 2 ^ 62, 0⟩
  | some img =>
    match parseTable img with
    | .error e => some ⟨0x02, e, 0⟩
    | .ok t => trapIf (t.nrows ≤ row) ⟨0x02, 2 ^ 63 + row, 0⟩

/-! ### Waiting instructions -/

/-- The wait that a waiting instruction has begun. -/
def Ctx.waitOf (c : Ctx) (i : Instr) : Option Wait := c.wait.find? fun w => w.instr == i

/-- The wait of an instruction is over. -/
def Ctx.waited (c : Ctx) (i : Instr) : Bool := (c.waitOf i).any fun w => w.done

/-- The value with which a wait ended. -/
def Ctx.waitValue (c : Ctx) (i : Instr) : Word :=
  match c.waitOf i with
  | some w => .ofNat 64 w.value
  | none => 0

/-- Buffered accesses of the die to other dies of the package that are not yet committed or served. -/
def Order.verbs (o : Order) : List Verb := o.cb.filterMap (·.verb)

/-- Every load has performed and written its destination (R245). -/
def State.loadsDone (s : State) : Bool := s.ctx.ldq == [] && s.ctx.gets == []

/-- Every store and `SIGNAL` has performed (R245). -/
def State.storesDone (s : State) : Bool := s.ctx.stq == [] && s.die.ord.verbs.all fun v => v.kind == .get || v.kind == .atomic

/-- Every engine request has written its completion word (R245). -/
def State.enginesDone (s : State) : Bool :=
  s.die.engine == [] && s.die.pageq == [] && s.die.groups == [] && s.ctx.sump == [] && s.die.snaps == 0 &&
    s.ctx.cut == none && s.ctx.cutq == [] && s.die.ord.verbs.all (fun v => v.kind != .atomic)

/-- Every reflected store has committed or failed (R246). -/
def State.reflectedDone (s : State) : Bool :=
  s.ctx.stq == [] && s.die.ord.combine == [] && s.die.ord.cb.all (fun e => e.unit == none) &&
    s.die.win.egress.all (fun p => p.2 == []) && s.die.win.paths.all fun p => p.2.unacked == []

/-- The cistern words of TXW granules that a step in flight is to write, 64-byte units apart (R272): those of a result
that is to be presented, and those of a pour. -/
def State.txUnits (s : State) (i : Instr) : List Nat :=
  let tx := fun (a : Nat) => granMode (s.mem.entryOf a) == 2
  let res := fun (d : Option Resv) => match d with
    | some r => ((List.range (r.nbk + 1)).map fun k => wordAddr s.cur.val r.bay.val ((r.bank0 + k) % 128) r.word).filter tx
    | none => []
  match i with
  | .timelineResultLanding (.present _ _ _ _ d _) => res d
  | .timelineResultLanding (.scan _ j) => res j.dst
  | .mxDrainPresent _ d _ => res d
  | .pourBankWrite p =>
    ((p.lanes.map fun l => wordAddr s.cur.val p.bay.val (laneOut p.stn l.lane / 8) l.word).dedup).filter tx
  | _ => []

/-- Pours into TXW granules are in flight: a `FENCE.RC` awaits them (R246). -/
def State.txFlight (s : State) : Bool := s.ctx.pend.any fun p => s.txUnits p.instr != []

/-- Commit-buffer entries that are free for a queued access (R272): those not kept for open combining entries and for
the pours in flight. -/
def State.cbFreeFor (s : State) : Nat :=
  s.die.ord.free - (s.die.ord.combine.length + (s.ctx.pend.map fun p => (s.txUnits p.instr).length).sum)

/-- The aligned 8 bytes that a `WAIT.A` waits on (R244). -/
def waitAddr (a : Word) : Nat := bitsAt a.toNat 3 29 * 8

/-- The word of a `WAIT.A` may be read: the check of R135 that is made when the instruction first comes to issue (R244). -/
def State.waitOpen (s : State) (ea : Nat) : Bool := decide (ea < 2 ^ 30) && adDie ea == s.cur && s.allows ea .load

/-- A store of the die to the 8 bytes is still queued (R244). -/
def Ctx.storeTo (c : Ctx) (ea : Nat) : Bool :=
  c.stq.any fun o => o.kind != .mark && decide (accAddr o < ea + 8) && decide (ea < accAddr o + o.size)

/-- The condition of a `WAIT.A` (R244). -/
def waitCond (cond : Nat) (x v : Word) : Bool :=
  match cond with
  | 0 => x == v
  | 1 => x != v
  | _ => decide (v.toNat ≤ x.toNat)


/-- A shadow set of the die. -/
def Die.set (d : Die) (k : Nat) : Option ShadowSet := d.sets.find? fun x => x.id == k

/-- A set that is not allocated to the context (R251). -/
def State.setTrap (s : State) (k : Nat) : Option Trap :=
  trapIf (!(s.die.set k).any fun x => x.owner == s.ctx.ctxNo.toNat) ⟨0x0D, k + 16, 0⟩

/-- Grid row and column of a die of a package (R21). -/
def gridRow (pkg d : Nat) : Nat := 2 * (pkg / 8) + d / 4
def gridCol (pkg d : Nat) : Nat := 4 * (pkg % 8) + d % 4

/-- A die of a package lies in the launch rectangle. -/
def Ctx.inRect (c : Ctx) (pkg d : Nat) : Bool :=
  decide (c.rectRow ≤ gridRow pkg d) && decide (gridRow pkg d < c.rectRow + c.rectNr) &&
    decide (c.rectCol ≤ gridCol pkg d) && decide (gridCol pkg d < c.rectCol + c.rectNc)

/-- The dies of the launch rectangle that lie in the package. -/
def Ctx.rect (c : Ctx) (pkg : Nat) : List DieIx := (List.finRange 8).filter fun d => c.inRect pkg d.val

/-! ### Control slots and control registers -/

/-- The bundles of the segment in force. -/
def Ctx.nbun (c : Ctx) : Nat := match c.seg with | some g => g.bundles.length | none => 0

/-- Word 2 of a loop trap (R239). -/
def loopAux (lvl kind : Nat) (iter : BitVec 21) : Nat := lvl + kind * 8 + iter.toNat * 2 ^ 32

/-- The traps of a `LOOP` (R236). -/
def Ctx.loopTrap (c : Ctx) (lvl : Nat) (n : Word) (end_ hops maxt : Nat) : Option Trap :=
  let t := fun k => (⟨0x04, loopAux lvl k (c.level lvl).iter, 0⟩ : Trap)
  firstOf
    [trapIf (lvl != c.depth) (t 1),
     trapIf (c.idx + 1 == c.nbun || (hops == 0 && decide (end_ < c.idx + 1))) (t 3),
     trapIf (decide (maxt < bitsAt n.toNat 0 32)) (t 2)]

/-- The trap of a level that is not active (R239). -/
def Ctx.levelTrap (c : Ctx) (lvl : Nat) : Option Trap :=
  trapIf (c.depth ≤ lvl) ⟨0x04, loopAux lvl 4 (c.level lvl).iter, 0⟩

/-- The tested bits of a `BRV` in a bay: those set, and all of them (R232). -/
def State.brvBits (s : State) (b : BayIx) (m e : BitVec 3) : BitVec 128 × BitVec 128 :=
  let en := if e = 0 then BitVec.allOnes 128 else (s.bayAt b).mask e
  ((s.bayAt b).mask m &&& en, en)

/-- The bays that hold a tested 1, and those that hold a tested 0 (R232). -/
def State.brvBays (s : State) (bset : Bays) (m e : BitVec 3) : Nat × Nat :=
  (baysOf bset).foldl (fun acc b =>
    let (x, en) := s.brvBits b m e
    (acc.1 + (if x != 0 then 2 ^ b.val else 0), acc.2 + (if x != en then 2 ^ b.val else 0))) (0, 0)

/-- The trap of a `BRV` (R232). -/
def State.brvTrap (s : State) (bset : Bays) (m e : BitVec 3) : Option Trap :=
  let (o, z) := s.brvBays bset m e
  trapIf (o != 0 && z != 0) ⟨0x03, o + z * 2 ^ 8, o ||| z⟩

/-- The value of a control-register write (R254): 0 CSRR, 1 CSRW, 2 CSRS, 3 CSRC. -/
def csrValue (how : Nat) (old v : Word) : Word :=
  match how with
  | 1 => v
  | 2 => old ||| v
  | 3 => old &&& ~~~v
  | _ => old

/-- A write that a register's own statement forbids (R235, R274, R323, R330, R401): cause 0x02 with the number. -/
def State.csrTrap (s : State) (n how : Nat) (v : Word) : Option Trap :=
  let qctl := s.die.ord.qlog2 + s.die.ord.cbwait * 2 ^ 8
  let bad := match n with
    | 0x0C0 =>
      let w := (csrValue how (.ofNat 64 qctl) v).toNat
      bitsAt w 0 4 < 6 || 12 < bitsAt w 0 4 || bitsAt w 8 8 == 0
    | 0x100 => bitsAt (csrValue how (.ofNat 64 (s.die.err.errthr * 2 ^ 8)) v).toNat 8 8 < 2
    | 0x0CE => 10000000 < bitsAt (csrValue how (.ofNat 64 s.die.win.treal) v).toNat 0 32
    | 0x0F0 =>
      -- MODE of a port group changes only while every port of the group is gated (R330)
      let w := csrValue how (s.fab.mode.setWidth 64) v
      (List.range 2).any fun g => w.getLsbD g != s.fab.mode.getLsbD g &&
        ((s.fab.ports.toList.drop (8 * g)).take 8).any fun p => !p.gated
    | _ => 0x040 ≤ n && n ≤ 0x057 && n % 4 == 1 && (s.ctx.level ((n - 0x040) / 4)).act
  trapIf bad ⟨0x02, n, 0⟩

/-- Dies of the launch rectangle that are lost: the trap of a waiting `BAR` (R248). -/
def State.barTrap (s : State) : Option Trap :=
  ((s.ctx.rect s.host.pkg).find? fun d => s.disp.lostmap.getLsbD d.val).map fun d =>
    ⟨0x0F, gridRow s.host.pkg d.val + gridCol s.host.pkg d.val * 2 ^ 8, 0⟩

/-! ### The checks of each slot instruction -/

/-- Whether the slot needs an entry in a full queue (R138). -/
def State.queueWait (s : State) (n : Names) : Option Bool :=
  if (n.ports.contains .load && decide (16 ≤ s.ctx.ldq.length)) ||
    (n.ports.contains .store && decide (32 ≤ s.ctx.stq.length)) then some false else none

/-- Waits and traps of an instruction beyond those that follow from what it names. -/
def State.ownCheck (s : State) (eaten : List (Nat × Nat)) (i : Instr) : Check :=
  let when_ := fun (b safe : Bool) => if b then some safe else none
  match i with
  | .vcvt bays o => { trap := s.cvTrap bays o 0 [o.a] }
  | .vpack bays o => { trap := s.cvTrap bays o 2 [o.a, o.b] }
  | .vunpk bays o => { trap := s.cvTrap bays o 3 [o.a] }
  | .mxPush bays _ _ _ _ => { trap := s.beatTrap bays }
  | .mxAcc bays _ sb _ qb t =>
    { trap := firstOf [s.beatTrap bays, s.ternTrap bays (if sb then some qb.toNat else none) t.toNat] }
  | .mxShift bays _ sb qb t =>
    { trap := firstOf [s.beatTrap bays, s.ternTrap bays (if sb then some qb.toNat else none) t.toNat] }
  | .mxHold bays _ => { trap := s.beatTrap bays }
  | .mxScale bays a b => { trap := s.scaleTrap bays a.toNat b.toNat }
  | .mxSnap bays _ =>
    { trap := (baysOf bays).findSome? fun b => trapIf (s.bayAt b).mxu.snap ⟨0x01, 0, 2 ^ b.val⟩ }
  | .qBind bays q port h a _ _ _ => { trap := bindTrap bays q.toNat port.toNat (s.ctx.rh h) (s.rs a) }
  | .qXfer bays qd _ rot =>
    { wait := when_ (s.xferFull eaten bays qd.toNat rot.toNat) false, trap := s.xferTrap bays qd.toNat rot.toNat }
  | .qXferLand bays _ => { wait := s.landWait bays, trap := s.landTrap bays }
  | .stnCut _ _ _ _ _ _ _ => { wait := when_ s.ctx.cut.isSome false }
  | .stnWait bay _ => { wait := when_ (s.ctx.stnBusy bay.toNat) true, trap := s.stnTrap bay }
  | .probe bay _ _ a _ =>
    { wait := when_ (((s.probeAt bay).look (blockOf (s.rs a))).1 == 1 && s.engineFull) false,
      trap := s.probeTrap bay (s.rs a) }
  | .probeTag bay a => { trap := s.tagTrap bay (s.rs a) }
  | .copy _ _ _ _ _ _ => { wait := when_ s.engineFull false }
  | .copySt _ _ _ _ _ _ => { wait := when_ s.engineFull false }
  | .pageReq _ _ _ _ _ => { wait := when_ (decide (64 ≤ s.die.pageq.length)) false }
  | .sumpRd q _ =>
    { trap := (baysOf 0xFF).findSome? fun b =>
        let t := (s.bayAt b).str q.toNat
        if t.bound && t.port == 11 then s.makeTrap b q.toNat 11 else none }
  | .pumpLd a b => { trap := s.stageTrap (s.rs a) (s.rs b) 65536 (a == 0) }
  | .pumpIdle a b =>
    let t := s.stageTrap (s.rs a) (s.rs b) 4096 false
    { wait := when_ (t.isNone && !s.ctx.waited i) false,
      trap := firstOf [t, trapIf ((s.ctx.waitValue i).toNat != 0) ⟨0x02, (s.ctx.waitValue i).toNat - 1, 0⟩] }
  | .pumpGo a => { wait := when_ s.ctx.pump.stage.isSome false, trap := s.goTrap (bitsAt (s.rs a).toNat 0 24) }
  | .pumpDead h a =>
    { trap := match s.tileRows (s.ctx.rh h) (s.rs a).toNat with
        | .error c => some ⟨c, 0, 0⟩
        | .ok _ => trapIf (hMode (s.ctx.rh h) == 1) ⟨0x0D, 0, 0⟩ }
  | .nmFence _ => { wait := when_ (s.die.pump.nmc != []) true }
  | .waitA _ a _ _ =>
    let w := (s.ctx.waitValue i).toNat
    { wait := when_ (w == 0 && !s.ctx.waited i) true, trap := trapIf (w != 0) ⟨w, waitAddr (s.rs a), 0⟩ }
  | .fence ld st eng tl =>
    { wait := when_ ((ld && !s.loadsDone) || (st && !s.storesDone) || (eng && !s.enginesDone) ||
        (tl && s.ctx.pend != [])) true }
  | .fenceRc _ => { wait := when_ (!s.reflectedDone || s.txFlight) true }
  | .publish _ a =>
    let t := s.setTrap (bitsAt (s.rs a).toNat 0 4)
    { wait := when_ (!s.ctx.waited i && t.isNone) true, trap := if s.ctx.waited i then none else t }
  | .shadowFree a => { trap := s.setTrap (bitsAt (s.rs a).toNat 0 4) }
  | .qwait _ _ => { wait := when_ (!s.ctx.waited i) true }
  | .bar _ =>
    { wait := when_ (!s.ctx.waited i && s.barTrap.isNone) true, trap := if s.ctx.waited i then none else s.barTrap }
  | .realign _ => { wait := when_ (!s.ctx.waited i) true }
  | .goWait _ => { wait := when_ (!(s.ctx.token && decide (s.ctx.t0.toNat ≤ s.gtc))) true }
  | .tlbSync _ => { wait := when_ (!s.storesDone) true }
  | .domsw a => { wait := when_ ((s.rs a).setWidth 16 != s.ctx.domid && !s.ctx.waited i) true }
  | .loop lvl a e h m => { trap := s.ctx.loopTrap lvl.toNat (s.rs a) e.toNat h.toNat m.toNat }
  | .lbrk lvl => { trap := s.ctx.levelTrap lvl.toNat }
  | .lcont lvl => { trap := s.ctx.levelTrap lvl.toNat }
  | .brv _ bset m e _ => { trap := s.brvTrap bset m e }
  | .tret _ _ => { trap := trapIf (!s.ctx.inH) ⟨0x0D, 0, 0⟩ }
  | .csrw _ a n => { trap := s.csrTrap n.toNat 1 (s.rs a) }
  | .csrs _ a n => { trap := s.csrTrap n.toNat 2 (s.rs a) }
  | .csrc _ a n => { trap := s.csrTrap n.toNat 3 (s.rs a) }
  | .dbrk code => { trap := trapIf (s.ctx.dbgen && !s.ctx.noDbrk) ⟨0x15, code.toNat, 0⟩ }
  | _ => {}

/-- The VXU slots and the SCU slots that produce a stream entry at a latency (R154). -/
def Names.timed (n : Names) : Option Bool :=
  if n.ports.contains .scu then some true
  else if n.ports.any fun p => p == .vAlu || p == .vFma || p == .vTrans || p == .vConv then some false
  else none

/-- The waits of an acting slot, each with whether it is safe for a halt (R240). -/
def State.slotWaits (s : State) (eaten : List (Nat × Nat)) (i : Instr) : List Bool :=
  let n := slotNames i
  [if s.ctx.pending n then some false else none, s.queueWait n, s.sourceWait n, (s.ownCheck eaten i).wait].filterMap id

/-- The traps that an acting slot raises at issue or while it executes (R423 item 6). DESIGN CHOICE (log 87): of several
traps of one slot, those of its streams go first, then an empty operand-file entry, then the slot's own: an occupied
beat port (R180) before a format check. -/
def State.slotTrap (s : State) (eaten : List (Nat × Nat)) (i : Instr) : Option Trap :=
  let n := slotNames i
  firstOf [s.streamTraps n, s.emptyRead n, (s.ownCheck eaten i).trap, n.timed.bind (s.portTrap n)]

/-! ### Waits that begin when a bundle first comes to issue -/

/-- The wait of an instruction begins, once the registers that it reads are not pending (R69). Boundaries after its GTC are
counted as they come (R247). -/
def State.startWait (s : State) (i : Instr) : State :=
  if (s.ctx.wait.any fun w => w.instr == i) || s.ctx.pending { slotNames i with wr := [] } then s
  else
    let push := fun (s : State) (w : Wait) => s.modCtx fun c => { c with wait := c.wait ++ [w] }
    match i with
    | .waitA _ a _ _ =>
      push s { instr := i, gtc := s.gtc, value := if s.waitOpen (waitAddr (s.rs a)) then 0 else 0x0D }
    | .fenceRc _ => push s.barCombine { instr := i, gtc := s.gtc }
    | .publish _ _ => push s { instr := i, gtc := s.gtc }
    | .qwait _ n => push s { instr := i, gtc := s.gtc, left := n.toNat + 1 }
    | .bar _ => push s { instr := i, gtc := s.gtc }
    | .realign _ =>
      if s.host.npkg ≤ 1 ∨ !(List.range 32).any fun q => q != s.host.pkg && s.lit q then
        push (s.modDie fun d => { d with offsets := [] }) { instr := i, gtc := s.gtc, done := true }
      else
        let qs := (List.range 32).filter fun q => q != s.host.pkg && s.lit q
        push (qs.foldl (fun s q => s.whenever .flitSend (.send (768 + q))) (s.modDie fun d => { d with offsets := [] }))
          { instr := i, gtc := s.gtc }
    | .domsw a =>
      if (s.rs a).setWidth 16 = s.ctx.domid then s
      else
        let (w, s) := s.takeWait
        push s { instr := i, gtc := s.gtc, left := min w 1024, value := (s.rs a).toNat % 2 ^ 16 }
    | .pumpIdle a b =>
      if (s.stageTrap (s.rs a) (s.rs b) 4096 false).isSome then s else
      push (s.modCtx fun c => { c with pump := { c.pump with
        stageIdle := some { addr := some (s.rs a).toNat, len := (s.rs b).toNat } } }) { instr := i, gtc := s.gtc }
    | _ => s

/-- A `WAIT.A` whose wait has begun reads its word in this cycle, once every earlier store of the die to it has performed
and the side port is free (R244, R26): the cause of a word that cannot be used, or whether the condition holds. -/
def State.waitRead (s : State) (i : Instr) : State :=
  match i with
  | .waitA _ a v cond =>
    let ea := waitAddr (s.rs a)
    let set_ := fun (s : State) (f : Wait → Wait) =>
      s.modCtx fun c => { c with wait := c.wait.map fun w => if w.instr == i then f w else w }
    match s.ctx.waitOf i with
    | none => s
    | some w =>
      if w.value = 0x0D then s
      else if s.ctx.storeTo ea || s.sideTaken [ea / 16] then set_ s fun w => { w with done := false }
      else
        let (s, st, _) := (s.takeSide [ea / 16]).decodeWord (ea / 16) false
        match st.cause with
        | some c => set_ s fun w => { w with value := c }
        | none =>
          let ok := waitCond cond.toNat (.ofNat 64 (s.mem.num ea 8)) (s.rs v)
          set_ s fun w => { w with value := 0, done := ok }
  | _ => s

/-! ### Running a slot -/

/-- Run an acting slot. In the issue cycle of its bundle, whose checks have passed, it takes effect. Alone, it is
checked first: a trap is delivered, a slot that waits comes again in the next cycle. -/
def slotRun (i : Instr) (s : State) (eff : State → State) : Host.Outcome State Fault Refusal :=
  if s.die.issued then .next (eff s)
  else
    let s := (s.startWait i).waitRead i
    let eaten := (slotNames i).eats
    match s.slotWaits eaten i with
    | _ :: _ => .next (s.after 1 i s.msg)
    | [] =>
      match firstOf [s.ctx.privTrap i, s.ctx.scoreTrap i, s.ctx.failedTrap i] with
      | some t => .next (s.slotRaise t)
      | none =>
        match s.slotTrap eaten i with
        | some t => .next ((s.slotReport i).raise (s.slotRec i t s.slot))
        | none => .next ((eff s).modCtx fun c => { c with wait := [] })

end Sys2Proof.Machine
end

