-- ==== Sys2Proof/Machine/Control.lean ====
section
/-!
DEFINITION. The control slot (R229 to R242, R260): branches, the hardware loops and their back-edge tests, `EXIT` and
`TRET`. The slot acts after the other slots of its bundle; its effects hold from the end of the issue cycle on.
-/

namespace Sys2Proof.Machine

/-! ### Targets -/

/-- Make a bundle the next one: the control slot acts. -/
def State.goto (s : State) (t : Target) : State :=
  s.modDie fun d => { d with ctl := true, ctx := { d.ctx with target := some t } }

/-- Address of the chained next segment; 0: none. -/
def Ctx.nextVa (c : Ctx) : Nat := match c.seg with
  | some g => g.next
  | none => 0

/-- Segment and index of the bundle that follows in program order. -/
def Ctx.following (c : Ctx) : Nat × Nat := if c.idx + 1 = c.nbun then (c.nextVa, 0) else (c.segVa, c.idx + 1)

/-- A branch target: the bundle that follows in program order is where execution resumes if it faults (R258). -/
def Ctx.branchTo (c : Ctx) (va idx hops : Nat) : Target := { va := va, idx := idx, hops := hops, fall := some c.following }

/-! ### Loop levels (R235 to R239) -/

/-- Virtual address of the segment that BSEG names. -/
def Level.segVa (l : Level) : Nat := l.bseg.toNat * 128

/-- The level after a back-edge test, and its outcome: 0 falls through, 1 branches back, 2 traps (R237). -/
def Level.test (l : Level) : Level × Nat :=
  let iter := l.iter + 1
  let n := match l.stCount with
    | some x => x
    | none => l.count - 1
  let hops := l.stHops.getD l.hops
  let l' : Level :=
    { l with
      iter := iter, begin := l.stBegin.getD l.begin, bseg := l.stBseg.getD l.bseg, endx := l.stEnd.getD l.endx, hops := hops,
      stCount := none, stBegin := none, stBseg := none, stEnd := none, stHops := none }
  if n = 0 then ({ l' with act := false }, 0)
  else if l.maxt ≤ iter then ({ l' with count := n }, 2)
  else ({ l' with count := n, rem := hops }, 1)

/-- A back-edge test of level `k`: the context, and the target when the test branches back or traps. The trap of kind 0
is to be delivered once the bundle has committed; a branch back makes the boundary safe (R240). -/
def Ctx.backEdge (c : Ctx) (k : Nat) : Ctx × Option Target × Option TrapRec :=
  let (l, out) := (c.level k).test
  let c' := c.setLevel k l
  let t : Target := { va := l.segVa, idx := l.begin.toNat }
  match out with
  | 0 => (c', none, none)
  | 1 => ({ c' with safeB := c'.depth == k + 1 }, some t, none)
  | _ =>
    (c', some t, some
      { cause := 0x04, idx := c.idx, va := c.segVa, aux := loopAux k 0 l.iter, rIdx := l.begin.toNat, rVa := l.segVa })

/-- The back-edge tests of a bundle that commits, from level `k - 1` down; the first that does not fall through ends
them. -/
def Ctx.backEdges (c : Ctx) : Nat → Ctx × Option Target × Option TrapRec
  | 0 => (c, none, none)
  | k + 1 =>
    let l := c.level k
    if l.act && l.endx.toNat == c.idx && l.rem == 0 then
      match c.backEdge k with
      | (c, none, _) => c.backEdges k
      | x => x
    else c.backEdges k

/-- A chain switch lowers REM of every active level (R237). -/
def Ctx.chainSwitch (c : Ctx) : Ctx :=
  { c with loops := c.loops.map fun l => if l.act && l.rem != 0 then { l with rem := l.rem - 1 } else l }

/-- Deactivate the levels from `k` on. -/
def Ctx.dropLevels (c : Ctx) (k : Nat) : Ctx :=
  { c with loops := .ofFn fun i : Fin 6 => if k ≤ i.val then { c.loops.get i with act := false } else c.loops.get i }

/-- END + 1 of a segment some links on (R236, R239). -/
def Ctx.past (c : Ctx) (hops end_ : Nat) : Target := { c.branchTo c.segVa (end_ + 1) hops with chain := true }

/-- A trap to be delivered at the end of the issue cycle, its bundle having committed. -/
def State.afterCommit (s : State) (r : TrapRec) : State :=
  s.modCtx fun c => { c with trap := c.trap <|> some r }

/-! ### The slots -/

/-- `BR` (R231). -/
def execBr (tgt : BitVec 8) (s : State) : Host.Outcome State Fault Refusal :=
  slotRun (.br tgt) s fun s0 => s0.goto (s0.ctx.branchTo s0.ctx.segVa tgt.toNat 0)

/-- `BRV` (R232): taken when every tested bit, inverted under NEG, is 1 and there is one. -/
def execBrv (tgt bset : BitVec 8) (m e : BitVec 3) (neg : Bool) (s : State) : Host.Outcome State Fault Refusal :=
  slotRun (.brv tgt bset m e neg) s fun s0 =>
    let (o, z) := s0.brvBays bset m e
    if (if neg then o == 0 && z != 0 else o != 0 && z == 0) then s0.goto (s0.ctx.branchTo s0.ctx.segVa tgt.toNat 0) else s0

/-- `JNEXT` (R233). -/
def execJnext (s : State) : Host.Outcome State Fault Refusal :=
  slotRun .jnext s fun s0 => s0.goto (s0.ctx.branchTo s0.ctx.segVa 0 1)

/-- Start to expand a segment into the inactive half. The time is open. -/
def State.startExpand (s : State) (va : Nat) : State :=
  (s.modCtx fun c => { c with half := .expanding va, code := [] }).whenever (.segmentExpansionDone va)

/-- The inactive half holds a segment, or its expansion is under way. -/
def Half.holds (h : Half) (va : Nat) : Bool :=
  match h with
  | .ready g => g.va == va
  | .expanding v => v == va
  | .empty => false

/-- A segment is named as a target: its expansion begins at once, unless the inactive half has it (R27). -/
def State.nameSegment (s : State) (va : Nat) : State :=
  if va = s.ctx.segVa ∨ s.ctx.half.holds va then s
  else if va % 128 ≠ 0 then s.modCtx fun c => { c with half := .empty }
  else s.startExpand va

/-- `JSEG` (R234): the target takes the place of the chained next segment in the inactive half (R27). -/
def execJseg (a : BitVec 6) (tgt : BitVec 8) (s : State) : Host.Outcome State Fault Refusal :=
  slotRun (.jseg a tgt) s fun s0 =>
    let va := (s0.rs a).toNat
    (s0.nameSegment va).goto (s0.ctx.branchTo va tgt.toNat 0)

/-- `LOOP` (R236). -/
def execLoop (lvl : BitVec 3) (a : BitVec 6) (end_ : BitVec 8) (hops : BitVec 2) (maxt : BitVec 21) (s : State) :
    Host.Outcome State Fault Refusal :=
  slotRun (.loop lvl a end_ hops maxt) s fun s0 =>
    let c := s0.ctx
    let n := (s0.rs a).setWidth 32
    if n = 0 then s0.goto (c.past hops.toNat end_.toNat)
    else
      let l : Level :=
        { count := n, maxt := maxt, iter := 0, begin := .ofNat 8 (c.idx + 1), bseg := .ofNat 56 (c.segVa / 128),
          endx := end_, hops := hops, rem := hops, act := true }
      (s0.modCtx fun c => c.setLevel lvl.toNat l).goto { va := c.segVa, idx := c.idx + 1, chain := true }

/-- `LBRK` (R239). -/
def execLbrk (lvl : BitVec 3) (s : State) : Host.Outcome State Fault Refusal :=
  slotRun (.lbrk lvl) s fun s0 =>
    let l := s0.ctx.level lvl.toNat
    (s0.modCtx fun c => c.dropLevels lvl.toNat).goto (s0.ctx.past l.rem.toNat l.endx.toNat)

/-- `LCONT` (R239). DESIGN CHOICE (log 92): the record of a test that traps names the bundle of the `LCONT`, which raised it,
and not the END bundle. -/
def execLcont (lvl : BitVec 3) (s : State) : Host.Outcome State Fault Refusal :=
  slotRun (.lcont lvl) s fun s0 =>
    let c := s0.ctx
    let l := c.level lvl.toNat
    match (c.dropLevels (lvl.toNat + 1)).backEdge lvl.toNat with
    | (c', none, _) => (s0.modCtx fun _ => c').goto (c.past l.rem.toNat l.endx.toNat)
    | (c', some t, none) => (s0.modCtx fun _ => c').goto t
    | (c', some t, some r) => ((s0.modCtx fun _ => c').goto t).afterCommit r

/-- `EXIT` (R242): the wait for the end of the kernel begins after the bundle. -/
def execExit (code : BitVec 16) (s : State) : Host.Outcome State Fault Refusal :=
  slotRun (.exit code) s fun s0 =>
    s0.modDie fun d => { d with ctl := true, ctx := { d.ctx with exit := some code, exiting := true } }

/-- `TRET` (R260). -/
def execTret (skip nodbrk : Bool) (s : State) : Host.Outcome State Fault Refusal :=
  slotRun (.tret skip nodbrk) s fun s0 =>
    (s0.tret skip nodbrk).modDie fun d => { d with ctl := true }

end Sys2Proof.Machine
end

