-- ==== Sys2Proof/Machine/Csr.lean ====
section
/-!
DEFINITION. Control registers (R254, R255): the value that each reads, and what a write does to each. A write acts at the
end of its cycle, before the results that land then (R51).
-/

namespace Sys2Proof.Machine

/-! ### Reading -/

/-- Register `k` of a loop level (R235). -/
def Level.read (l : Level) (k : Nat) : Nat :=
  match k with
  | 0 => (match l.stCount with
      | some x => x.toNat + 2 ^ 32
      | none => l.count.toNat)
  | 1 => l.maxt.toNat + l.iter.toNat * 2 ^ 32
  | 2 => l.begin.toNat + l.bseg.toNat * 2 ^ 8
  | _ => l.endx.toNat + l.hops.toNat * 2 ^ 8 + l.rem.toNat * 2 ^ 10 + b2n l.act * 2 ^ 12

/-- The registers that belong to the context (R37, R50, R70, R172, R217, R235, R241, R258, R370). -/
def Ctx.csrRead (c : Ctx) (n : Nat) : Nat :=
  if 0x020 ≤ n ∧ n ≤ 0x027 then
    let m := (c.bayAt ⟨n % 8, Nat.mod_lt _ (by decide)⟩).mxu
    m.stepA.toNat + m.stepB.toNat * 2 ^ 32
  else if 0x040 ≤ n ∧ n ≤ 0x057 then (c.level ((n - 0x040) / 4)).read (n % 4)
  else if 0x060 ≤ n ∧ n ≤ 0x063 then (c.trec.toList.getD (n - 0x060) 0).toNat
  else if 0x066 ≤ n ∧ n ≤ 0x069 then (c.tscr.toList.getD (n - 0x066) 0).toNat
  else match n with
    | 0x010 => c.rm.toNat + b2n c.fmtchk * 4
    | 0x011 => flagBits c.fpstat
    | 0x012 => b2n c.check
    | 0x013 => c.depth + min c.safecnt 1023 * 2 ^ 16
    | 0x030 => c.win.toNat
    | 0x031 => c.sumpst.toNat
    | 0x064 => c.tepc.toNat
    | 0x065 => c.ppl.toNat + b2n c.inH * 4 + b2n c.exw * 8
    | 0x06A => c.tvec.toNat
    | 0x06B => b2n c.dbgen
    | 0x06C => c.domid.toNat
    | 0x140 => c.ctxNo.toNat + c.queue.toNat * 2 ^ 16
    | 0x141 => b2n c.preq
    | 0x142 => c.launchId.toNat
    | 0x143 => b2n c.token + b2n c.confirmed * 2
    | 0x144 => c.t0.toNat
    | 0x145 => c.spanBase.toNat + c.spanN % 2 ^ 13 * 2 ^ 32
    | 0x147 => c.walk.node % 2 ^ 16 + c.walk.whiles.length % 8 * 2 ^ 16
    | _ => 0

/-- Four 16-bit timing registers of the pump (R288). -/
def Pump.timing (p : Pump) (k : Nat) : Nat :=
  let t := fun (i : Nat) => p.t.toList.getD (4 * k + i) 0
  t 0 + t 1 * 2 ^ 16 + t 2 * 2 ^ 32 + t 3 * 2 ^ 48

/-- The pump registers (R288). -/
def Pump.csrRead (p : Pump) (n : Nat) : Nat :=
  match n with
  | 0x080 => p.idleThresh + p.refpost * 2 ^ 16 + 48 * 2 ^ 20
  | 0x085 => p.trefw
  | 0x086 => p.debtPeak
  | _ => p.timing (n - 0x081)

/-- The registers of errors, repair and the limiter (R401). -/
def Err.csrRead (e : Err) (n : Nat) : Nat :=
  match n with
  | 0x100 => b2n e.nmtrap + b2n e.autoret * 2 + e.errthr * 2 ^ 8
  | 0x101 => e.errwin
  | 0x102 => e.elbase.toNat
  | 0x103 => e.head + e.tail * 2 ^ 16 + b2n e.ovf * 2 ^ 32 + min e.dropped (2 ^ 24 - 1) * 2 ^ 40
  | 0x104 => e.chsel
  | 0x105 => SMap.get 0 e.ce e.chsel + SMap.get 0 e.ue e.chsel * 2 ^ 32
  | 0x106 => e.rcBank + e.rcBay * 2 ^ 7 + b2n e.rcBusy * 2 ^ 10 + e.rcNext % 2 ^ 13 * 2 ^ 11 + e.rebuilt % 2 ^ 8 * 2 ^ 24 +
      b2n e.lostBk * 2 ^ 32
  | 0x107 => e.freezeCnt.toNat
  | 0x108 => e.rcFrz.toNat
  | 0x109 => e.limit + b2n e.limEn * 2 ^ 24
  | 0x10A => e.overCnt + e.sum % 2 ^ 16 * 2 ^ 32
  | _ => e.scrub

/-- The span slot of the present die-clock cycle (R353). -/
def State.spanNow (s : State) (n : Nat) : Nat := if n = 0 then 0 else (2 * s.gtc + b2n s.half) % n

/-- A port register (R323). -/
def Port.read (p : Port) : Nat := p.lock.toNat + b2n p.srclost * 2 ^ 16 + b2n p.gate * 2 ^ 17 + b2n p.gated * 2 ^ 18

/-- Port `k`. -/
def Fabric.port (f : Fabric) (k : Nat) : Port := f.ports[k % 16]'(Nat.mod_lt _ (by decide))

/-- Replace port `k`. -/
def Fabric.setPort (f : Fabric) (k : Nat) (p : Port) : Fabric :=
  { f with ports := f.ports.set (k % 16) p (Nat.mod_lt _ (by decide)) }

/-- The value of a control register before the bundle (R255). -/
def State.csrRead (s : State) (n : Nat) : Word :=
  let o := s.die.ord
  let w := s.die.win
  .ofNat 64 (match n with
    | 0x0C0 => o.qlog2 + o.cbwait * 2 ^ 8 + o.qnow * 2 ^ 16
    | 0x0C1 => o.free + o.peak * 2 ^ 16
    | 0x0C2 => o.late + o.mldly * 2 ^ 32 + o.rfdly * 2 ^ 48
    | 0x0C8 => w.wmbase.toNat
    | 0x0C9 => w.psbase.toNat
    | 0x0CA => w.rwbase.toNat
    | 0x0CB => b2n w.brk + w.firstBrk.toNat * 2 ^ 8 + s.ctx.dropc * 2 ^ 32
    | 0x0CC => w.rxdisc
    | 0x0CD => s.fab.dflight % 2 ^ 16 + s.fab.slack % 2 ^ 16 * 2 ^ 16
    | 0x0CE => w.treal + b2n s.fab.unsync * 2 ^ 32
    | 0x0CF => s.fab.lastra
    | 0x0F0 => s.fab.mode.toNat
    | 0x0F1 => s.fab.slot % 2 ^ 16 + s.fab.rot % 2 ^ 32 * 2 ^ 16 + s.fab.deads % 2 ^ 16 * 2 ^ 48
    | 0x10B => s.disp.lostmap.toNat
    | 0x146 => s.spanNow s.ctx.spanN + s.ctx.spEmpty * 2 ^ 16
    | _ =>
      if 0x080 ≤ n ∧ n ≤ 0x086 then s.die.pump.csrRead n
      else if 0x0E0 ≤ n ∧ n ≤ 0x0EF then (s.fab.port (n - 0x0E0)).read
      else if 0x100 ≤ n ∧ n ≤ 0x10C then s.die.err.csrRead n
      else if 0x149 ≤ n ∧ n ≤ 0x14C then bitsAt (s.disp.ctxAt s.ctx.ctxNo.toNat).touch.toNat (64 * (n - 0x149)) 64
      else s.ctx.csrRead n)

/-! ### Writing -/

/-- A W1C field under a write: 1 CSRW and 2 CSRS clear bits; 3 CSRC leaves it (R254). -/
def w1c (how : Nat) (v : Word) (lo w : Nat) : Bool := how != 3 && bitsAt v.toNat lo w != 0

/-- A register of a loop level takes a value: at once, or staged when the level is active (R235). -/
def Level.write (l : Level) (k : Nat) (v : Word) : Level :=
  let count := v.setWidth 32
  let begin := v.setWidth 8
  let bseg := (v >>> 8).setWidth 56
  let hops := (v >>> 8).setWidth 2
  match k, l.act with
  | 0, true => { l with stCount := some count }
  | 0, false => { l with count := count }
  | 1, true => l
  | 1, false => { l with maxt := v.setWidth 21 }
  | 2, true => { l with stBegin := some begin, stBseg := some bseg }
  | 2, false => { l with begin := begin, bseg := bseg }
  | _, true => { l with stEnd := some begin, stHops := some hops }
  | _, false => { l with endx := begin, hops := hops }

/-- `LOOP_LEVEL_WRITE` (R235): `v` is the value that the fields take. -/
def execLoopLevelWrite (csr : BitVec 12) (v : Word) (s : State) : Host.Outcome State Fault Refusal :=
  let k := csr.toNat - 0x040
  .next (s.modCtx fun c => c.setLevel (k / 4) ((c.level (k / 4)).write (k % 4) v))

/-- A write to a register of the context. -/
def Ctx.csrWrite (c : Ctx) (n how : Nat) (v new : Word) : Ctx :=
  let b := fun (i : Nat) => how != 3 && v.getLsbD i
  match n with
  | 0x010 => { c with rm := new.setWidth 2, fmtchk := new.getLsbD 2 }
  | 0x011 => { c with fpstat :=
      { iv := c.fpstat.iv && !b 0, of := c.fpstat.of && !b 1, uf := c.fpstat.uf && !b 2, nx := c.fpstat.nx && !b 3,
        sa := c.fpstat.sa && !b 4 } }
  | 0x012 => { c with check := new.getLsbD 0 }
  | 0x030 => { c with win := new.setWidth 2 }
  | 0x031 => { c with sumpst := if how = 3 then c.sumpst else c.sumpst &&& ~~~(v.setWidth 3) }
  | 0x064 => { c with tepc := new }
  | 0x065 => { c with ppl := new.setWidth 2 }
  | 0x066 => { c with tscr := c.tscr.set 0 new }
  | 0x067 => { c with tscr := c.tscr.set 1 new }
  | 0x068 => { c with tscr := c.tscr.set 2 new }
  | 0x069 => { c with tscr := c.tscr.set 3 new }
  | 0x06A => { c with tvec := new }
  | 0x06B => { c with dbgen := new.getLsbD 0 }
  | _ => c

/-- Set timing registers from the one with index `k` on. -/
def Pump.setTiming (p : Pump) (k n : Nat) (v : Word) : Pump :=
  { p with t := .ofFn fun i : Fin 15 =>
      if 4 * k ≤ i.val ∧ i.val < 4 * k + n then bitsAt v.toNat (16 * (i.val - 4 * k)) 16 else p.t.get i }

/-- A write to a pump register (R288). -/
def Pump.csrWrite (p : Pump) (n how : Nat) (v new : Word) : Pump :=
  match n with
  | 0x080 => { p with idleThresh := max 16 (bitsAt new.toNat 0 16), refpost := bitsAt new.toNat 16 4 }
  | 0x081 => p.setTiming 0 4 new
  | 0x082 => p.setTiming 1 4 new
  | 0x083 => p.setTiming 2 4 new
  | 0x084 => p.setTiming 3 3 new
  | 0x085 => { p with trefw := bitsAt new.toNat 0 32 }
  | 0x086 => if w1c how v 0 4 then { p with debtPeak := 0 } else p
  | _ => p

/-- A write to an error, repair or limiter register (R401). -/
def Err.csrWrite (e : Err) (n how : Nat) (v new : Word) : Err :=
  let x := new.toNat
  match n with
  | 0x100 => { e with nmtrap := new.getLsbD 0, autoret := new.getLsbD 1, errthr := bitsAt x 8 8 }
  | 0x101 => { e with errwin := x }
  | 0x102 => { e with elbase := new.setWidth 32 }
  | 0x103 =>
    let e := { e with head := bitsAt x 0 9 }
    if w1c how v 32 1 then { e with ovf := false, dropped := 0 } else e
  | 0x104 => { e with chsel := bitsAt x 0 7 }
  | 0x107 => { e with freezeCnt := new }
  | 0x108 => { e with rcFrz := new }
  | 0x109 => { e with limit := bitsAt x 0 24, limEn := new.getLsbD 24 }
  | 0x10A => if w1c how v 0 32 then { e with overCnt := 0 } else e
  | 0x10C => { e with scrub := max 64 (bitsAt x 0 16) }
  | _ => e

/-- A write to an ordering register (R274, R275): QNOW follows QLOG2 at the next multiple of 4,096. -/
def Order.csrWrite (o : Order) (n how : Nat) (v new : Word) : Order :=
  match n with
  | 0x0C0 => { o with qlog2 := bitsAt new.toNat 0 4, cbwait := bitsAt new.toNat 8 8 }
  | 0x0C1 => if w1c how v 16 12 then { o with peak := 0 } else o
  | 0x0C2 => if w1c how v 0 32 then { o with late := 0 } else o
  | _ => o

/-- A write to a window register (R323). -/
def Win.csrWrite (w : Win) (n how : Nat) (v new : Word) : Win :=
  match n with
  | 0x0C8 => { w with wmbase := new.setWidth 32 }
  | 0x0C9 => { w with psbase := new.setWidth 32 }
  | 0x0CA => { w with rwbase := new.setWidth 32 }
  | 0x0CB => if w1c how v 0 1 then { w with brk := false } else w
  | 0x0CC => if w1c how v 0 32 then { w with rxdisc := 0 } else w
  | 0x0CE => { w with treal := bitsAt new.toNat 0 32 }
  | _ => w

/-- `REGISTER_WRITE` (R254): a write of a control register other than a loop level takes effect. A GATE or MODE bit
that changes acts on its port or port group (R330, R342). -/
def State.csrWrite (s : State) (n how : Nat) (v : Word) : State :=
  let new := csrValue how (s.csrRead n) v
  if 0x080 ≤ n ∧ n ≤ 0x086 then s.modPump fun p => p.csrWrite n how v new
  else if 0x0C0 ≤ n ∧ n ≤ 0x0C2 then s.modOrd fun o => o.csrWrite n how v new
  else if 0x0C8 ≤ n ∧ n ≤ 0x0CE then s.modDie fun d => { d with win := d.win.csrWrite n how v new }
  else if 0x0E0 ≤ n ∧ n ≤ 0x0EF then
    if new.getLsbD 17 != (s.fab.port (n - 0x0E0)).gate then
      s.push [.instr (.portGateWrite (n - 0x0E0) (new.getLsbD 17)) .none] else s
  else if n = 0x0F0 then
    if new.setWidth 2 != s.fab.mode then s.push [.instr (.fabctlModeWrite new) .none] else s
  else if 0x100 ≤ n ∧ n ≤ 0x10C then s.modErr fun e => e.csrWrite n how v new
  else s.modCtx fun c => c.csrWrite n how v new

/-- `REGISTER_WRITE` (R254). -/
def execRegisterWrite (csr : BitVec 12) (how : BitVec 2) (v : Word) (s : State) : Host.Outcome State Fault Refusal :=
  .next (s.csrWrite csr.toNat how.toNat v)

/-! ### The slots (R254) -/

/-- What a CSR slot does: the old value at latency 1, and the write at the end of the cycle. -/
def State.csrSlot (s : State) (d : BitVec 6) (csr : BitVec 12) (how : Nat) (v : Word) : State :=
  let n := csr.toNat
  let old := s.csrRead n
  let s := s.wsLater 1 d old
  if how = 0 then s
  else if 0x040 ≤ n ∧ n ≤ 0x057 then s.pendAt s.ctx.tl prioCsr (.loopLevelWrite csr (csrValue how old v))
  else s.pendAt s.ctx.tl prioCsr (.registerWrite csr (.ofNat 2 how) v)

/-- `CSRR` (R254). -/
def execCsrr (d : BitVec 6) (csr : BitVec 12) (s : State) : Host.Outcome State Fault Refusal :=
  slotRun (.csrr d csr) s fun s0 => s0.csrSlot d csr 0 0

/-- `CSRW` (R254). -/
def execCsrw (d a : BitVec 6) (csr : BitVec 12) (s : State) : Host.Outcome State Fault Refusal :=
  slotRun (.csrw d a csr) s fun s0 => s0.csrSlot d csr 1 (s0.rs a)

/-- `CSRS` (R254). -/
def execCsrs (d a : BitVec 6) (csr : BitVec 12) (s : State) : Host.Outcome State Fault Refusal :=
  slotRun (.csrs d a csr) s fun s0 => s0.csrSlot d csr 2 (s0.rs a)

/-- `CSRC` (R254). -/
def execCsrc (d a : BitVec 6) (csr : BitVec 12) (s : State) : Host.Outcome State Fault Refusal :=
  slotRun (.csrc d a csr) s fun s0 => s0.csrSlot d csr 3 (s0.rs a)

end Sys2Proof.Machine
end

