-- ==== Sys2Proof/Machine/Pump.lean ====
section
/-!
DEFINITION. Pump commands (R222, R223, R281 to R286, R293, R309), the data of RDs and WRs, and the pump slots (R224,
R279, R280, R312).
-/

namespace Sys2Proof.Machine

/-! ### Shared operations -/

/-- Swizzle of the active table; 0 without one. -/
def Ctx.tabSwz (c : Ctx) : Nat := match c.pump.active with
  | some t => t.swz
  | none => 0

/-- The commands of the active table's row in the present cycle, in position order. -/
def State.rowCmds (s : State) : List Instr :=
  match s.ctx.pump.active with
  | none => []
  | some t =>
    let (ws, hs) := t.rowAt s.ctx.pump.row
    (pairHalves ws hs).filterMap fun x => match decodePump x.1 x.2 with
      | .ok .pumpSkip => none
      | .ok i => some i
      | .error _ => none

/-- The check of one command that stands alone: the cause and word 2 of its trap (R286, R287). -/
def State.cmdTrap (s : State) (i : Instr) : Option Trap :=
  let b := (cmdOf i).2
  let r : RowSt := ⟨s.die.pump.bank, s.ctx.pump.hist, []⟩
  let aux := fun (d k : Nat) => pumpAux s.ctx.pump.row d k 0 false 0 false
  if !legal s.cur.val i then some ⟨0x02, aux b 0, 0⟩
  else match s.cmdTrans r s.ctx.tabSwz i with
    | .error c => some ⟨c, aux b 0, 0⟩
    | .ok _ => (s.rowConstraint r false i).map fun x => ⟨0x08, aux x.2 x.1, 0⟩

/-- Run a command. In a row of the table, which has passed its checks, it takes effect. Alone, it is checked first. -/
def cmdRun (i : Instr) (s : State) (eff : State → State) : Host.Outcome State Fault Refusal :=
  let (c, b) := cmdOf i
  if s.die.rows then .next ((eff s).noteCmd c b)
  else match s.cmdTrap i with
    | some t => .next (s.raise (s.ctx.recOf t 0))
    | none => .next ((eff s).noteCmd c b)

/-- Set what a bank holds open. -/
def State.setBank (s : State) (b : Nat) (o : OpenRow) : State :=
  s.modPump fun p => { p with bank := SMap.put .closed p.bank b o }

/-- A write of an open physical row begins: a dead row becomes live (R293), and the access is counted (R312). -/
def State.beginWrite (s : State) (b col : Nat) : State :=
  match s.die.pump.bankAt b with
  | .row r l h q m dead _ doomed =>
    let s := if dead then s.reviveRow b r else s
    (s.setBank b (.row r l h q m false true doomed)).countAccess b r col q m l
  | _ => s

/-! ### Commands -/

/-- `ACT` (R308, R309). -/
def execAct (b : BankId) (rowcol : BitVec 18) (s : State) : Host.Outcome State Fault Refusal :=
  cmdRun (.act b rowcol) s fun s =>
    match s.translate true (bankNum b) rowcol.toNat s.ctx.tabSwz with
    | .ok t => s.setBank (bankNum b) (s.die.pump.opened (bankNum b) t)
    | .error _ => s

/-- `PRE` (R293). -/
def execPre (b : BankId) (s : State) : Host.Outcome State Fault Refusal :=
  cmdRun (.pre b) s fun s => s.closeBank (bankNum b)

/-- Close every bank of a pseudo-channel. -/
def State.closeAll (s : State) (pc : Nat) : State := (List.range 16).foldl (fun s k => s.closeBank (16 * pc + k)) s

/-- `PREA` (R293). -/
def execPrea (pc : BitVec 6) (s : State) : Host.Outcome State Fault Refusal :=
  cmdRun (.prea pc) s fun s => s.closeAll pc.toNat

/-- `REFR` (R291, R292): the debt falls. -/
def execRefr (b : BankId) (rowcol : BitVec 18) (s : State) : Host.Outcome State Fault Refusal :=
  cmdRun (.refr b rowcol) s fun s => s.modPump fun p => p.payDebt (bankNum b)

/-- `PUMP_SKIP` (R223). -/
def execPumpSkip (s : State) : Host.Outcome State Fault Refusal := .next s

/-- A column command takes its number: the base die performs those of one pseudo-channel in the order of their rows
(R227). -/
def State.takeCol (s : State) : State × Nat :=
  (s.modPump fun p => { p with colSeq := p.colSeq + 1 }, s.die.pump.colSeq)

/-- `RD` (R283, R285, R309): its data returns to the buffer in real time, and is presented 48 timeline cycles after its
row. -/
def execRd (b : BankId) (col : BitVec 5) (caddr : BitVec 32) (s : State) : Host.Outcome State Fault Refusal :=
  cmdRun (.rd b col caddr) s fun s =>
    let bay := adBay caddr.toNat
    let due := s.ctx.rtl + 48
    let k := (s.ctx.pump.ret.filter fun x => x.due == due && x.bay == bay).length
    let d : RdData :=
      { bay := bay, k := k, word := adWord caddr.toNat, due := due, bank := b, row := 0, col := col.toNat, data := 0,
        pz := (false, false), nr := false, ctx := s.ctx.ctxNo.toNat }
    let keep := fun (s : State) (d : RdData) => s.modCtx fun c => { c with pump := { c.pump with ret := c.pump.ret ++ [d] } }
    match s.die.pump.bankAt (bankNum b) with
    | .row r l _ q m _ _ _ =>
      let (s, n) := s.takeCol
      let d := { d with row := r, seq := n }
      let (w, s) := s.takeWait
      (((keep s d).countAccess (bankNum b) r col.toNat q m l).modPump fun p => { p with rds := p.rds ++ [d] }).after
        (min w 47) .rdDataReturn (.rdData d)
    | .void _ _ _ => keep s { d with nr := true }
    | _ => keep s d

/-- A client of the draw for a WR: lanes 864 + 32 k (R284). -/
def wrClient (k : Nat) (caddr : Nat) : DrawClient := ⟨864 + 32 * k, 32, none, none, adWord caddr⟩

/-- The data of a WR from the lanes drawn for it. -/
def wrDataOf (b : BankId) (col : BitVec 5) (caddr : BitVec 32) (x : List Lane × Bool × Bool) : WrData :=
  { bank := b, col := col.toNat, caddr := caddr.toNat, data := .ofNat 512 (bytesNat (bytesOf x.1)), pz := x.2 }

/-- Draw the data of a WR that stands alone, through the identity. -/
def State.drawAlone (s : State) (b : BankId) (col : BitVec 5) (caddr : BitVec 32) : State × WrData :=
  let c := wrClient 0 caddr.toNat
  let (s, ws) := s.drawWords (adBay caddr.toNat) (bankWords 0 [c])
  let l := clientLanes 0 c ws
  let bad := fun (h : Nat) => ((l.drop (16 * h)).take 16).any fun x => match x with
    | some (w, _) => w.cause == 0x0A || w.cause == 0x0B
    | none => false
  (s, wrDataOf b col caddr (l.map drawLane, bad 0, bad 1))

/-- `WR` (R284, R309): the drawn data reaches the stack six timeline cycles after its row. -/
def execWr (b : BankId) (col : BitVec 5) (caddr : BitVec 32) (s : State) : Host.Outcome State Fault Refusal :=
  cmdRun (.wr b col caddr) s fun s =>
    let (s, d) := match s.msg with
      | .wrData d => (s, d)
      | _ => s.drawAlone b col caddr
    match s.die.pump.bankAt (bankNum b) with
    | .row r l _ _ _ _ _ _ =>
      let (s, n) := s.takeCol
      let s := s.modPump fun p => { p with wrs := p.wrs ++ [(n, b.pc.toNat, s.ctx.ctxNo.toNat)] }
      (s.beginWrite (bankNum b) col.toNat).pendAt (s.ctx.tl + 6) prioPour .pumpWrSend
        (.wrData { d with row := r, seq := n, leaf := l })
    | .void l _ _ => s.loseWrite l
    | .deadTile l _ _ => s.loseWrite l
    | .closed => s

/-- The lanes of an RD (R283). -/
def rdLanes (d : RdData) : List PourLane :=
  (lanesOf (natBytes d.data.toNat 64)).zipIdx.map fun x =>
    { lane := 864 + 32 * d.k + x.2, v := x.1, banks := none, word := d.word,
      pz := if x.2 < 16 then d.pz.1 else d.pz.2, nr := d.nr }

/-- `PUMP_RD_PRESENT` (R283): the RDs due in the present cycle are presented. -/
def execPumpRdPresent (s : State) : Host.Outcome State Fault Refusal :=
  let l := s.ctx.pump.ret.filter fun d => d.due ≤ s.ctx.rtl
  let s := s.modCtx fun c => { c with pump := { c.pump with ret := c.pump.ret.filter fun d => decide (c.rtl < d.due) } }
  .next (l.foldl (fun s d => s.presentLanes d.bay (rdLanes d)) s)

/-! ### Pump slots (R224) -/

/-- `PUMP.LD` (R224): staging begins, and an image not yet started is discarded. DESIGN CHOICE (log 93): A = 0 in a segment
without a pump-table block stages an image of no bytes. -/
def execPumpLd (a b : BitVec 6) (s : State) : Host.Outcome State Fault Refusal :=
  slotRun (.pumpLd a b) s fun s0 =>
    let blk := match s0.ctx.seg with
      | some g => g.ptab
      | none => []
    let j : StageJob :=
      if a = 0 then { addr := none, len := blk.length, block := blk }
      else { addr := some (s0.rs a).toNat, len := (s0.rs b).toNat }
    s0.modCtx fun c => { c with pump := { c.pump with standby := none, stage := some j } }

/-- `PUMP.IDLE` (R224, R289): it issues once its image is staged; `PUMP_STAGE_COMPLETE` has put it in place. -/
def execPumpIdle (a b : BitVec 6) (s : State) : Host.Outcome State Fault Refusal :=
  slotRun (.pumpIdle a b) s fun s0 => s0

/-- `PUMP.GO` (R279, R280): the standby table is active from the next timeline cycle on. -/
def execPumpGo (a : BitVec 6) (s : State) : Host.Outcome State Fault Refusal :=
  slotRun (.pumpGo a) s fun s0 =>
    match s0.ctx.pump.standby with
    | none => s0
    | some img =>
      match parseTable img with
      | .error _ => s0
      | .ok t => s0.modCtx fun c => { c with pump := { c.pump with
          standby := none, next := some (t, bitsAt (s0.rs a).toNat 0 24) } }

/-- `PUMP.DEAD` (R224, R316): commands in rows from the next timeline cycle on see the rows dead. -/
def execPumpDead (h : BitVec 4) (a : BitVec 6) (s : State) : Host.Outcome State Fault Refusal :=
  slotRun (.pumpDead h a) s fun s0 =>
    match s0.tileRows (s0.ctx.rh h) (s0.rs a).toNat with
    | .ok l => s0.modCtx fun c => { c with pump := { c.pump with kill := c.pump.kill ++ l } }
    | .error _ => s0

/-- The value of `PUMP.STAT` (R224). -/
def State.pumpWord (s : State) : Nat :=
  let c := s.ctx.pump
  let p := s.die.pump
  c.row % 2 ^ 24 + b2n c.active.isSome * 2 ^ 24 + b2n c.standby.isSome * 2 ^ 25 + b2n p.idle.isSome * 2 ^ 26 +
    b2n s.die.engErr * 2 ^ 27 + p.runs % 2 ^ 32 * 2 ^ 32

/-- `PUMP.STAT` (R224). -/
def execPumpStat (d : BitVec 6) (s : State) : Host.Outcome State Fault Refusal :=
  slotRun (.pumpStat d) s fun s0 => s0.wsLater 1 d (.ofNat 64 s0.pumpWord)

/-- `PUMP.ACTR` (R224, R312). -/
def execPumpActr (d a : BitVec 6) (clr : Bool) (s : State) : Host.Outcome State Fault Refusal :=
  slotRun (.pumpActr d a clr) s fun s0 =>
    let k := bitsAt (s0.rs a).toNat 16 20
    let s := s0.wsLater 1 d (.ofNat 64 (SMap.get 0 s0.die.pump.acnt k))
    if clr then s.modPump fun p => { p with acnt := SMap.put 0 p.acnt k 0, noted := SMap.put false p.noted k false } else s

/-! ### Staging (R224) -/

/-- One word of a staging job. -/
def State.stageWord (s : State) (j : StageJob) : List Byte :=
  match j.addr with
  | none => (j.block.drop j.bytes.length).take 16
  | some a =>
    let n := j.bytes.length + a % 16
    ((rdBytes s.mem.cistern (seqWord a (n / 16)) 16).drop (n % 16)).take (j.len - j.bytes.length)

/-- The staging jobs read the word of this die-clock cycle; a job that has read its last word completes. -/
def State.stageStep (s : State) : State :=
  let go := fun (s : State) (j : StageJob) => { j with bytes := j.bytes ++ s.stageWord j }
  let s := match s.ctx.pump.stage with
    | none => s
    | some j =>
      let j := go s j
      let s := s.modCtx fun c => { c with pump := { c.pump with stage := some j } }
      if j.len ≤ j.bytes.length then s.push [.instr .pumpStageComplete (.stage false)] else s
  match s.ctx.pump.stageIdle with
  | none => s
  | some j =>
    let j := go s j
    let s := s.modCtx fun c => { c with pump := { c.pump with stageIdle := some j } }
    if j.len ≤ j.bytes.length then s.push [.instr .pumpStageComplete (.stage true)] else s

/-- The first fault of an idle image: a table fault, or a command that no idle image may hold (R289). -/
def idleFault (img : List Byte) : Option Nat :=
  match parseTable img with
  | .error e => some e
  | .ok t => if t.idleOk then none else some 64

/-- The waits of a `PUMP.IDLE` end; the value is 0, or 1 more than the offset of the image's first fault. -/
def Ctx.endIdleWait (c : Ctx) (v : Nat) : Ctx :=
  { c with wait := c.wait.map fun w => match w.instr with
      | .pumpIdle _ _ => { w with done := true, value := v }
      | _ => w }

/-- `PUMP_STAGE_COMPLETE` (R224, R280, R289). -/
def execPumpStageComplete (s : State) : Host.Outcome State Fault Refusal :=
  match s.msg with
  | .stage false =>
    match s.ctx.pump.stage with
    | some j => .next (s.modCtx fun c => { c with pump := { c.pump with stage := none, standby := some j.bytes } })
    | none => .next s
  | .stage true =>
    match s.ctx.pump.stageIdle with
    | some j =>
      let s := s.modCtx fun c => { c with pump := { c.pump with stageIdle := none } }
      match idleFault j.bytes, parseTable j.bytes with
      | none, .ok t => .next ((s.modPump fun p => { p with idleTab := some t }).modCtx fun c => c.endIdleWait 0)
      | some e, _ => .next (s.modCtx fun c => c.endIdleWait (e + 1))
      | none, .error e => .next (s.modCtx fun c => c.endIdleWait (e + 1))
    | none => .next s
  | _ => .next s

/-- What the end of a die-clock cycle does to the pump: rows declared dead, and a table started in it. -/
def State.pumpSettle (s : State) : State :=
  let s := s.ctx.pump.kill.foldl (fun s x => s.killRow x.1 x.2) s
  s.modCtx fun c => { c with pump := { c.pump with
    kill := []
    next := none
    active := match c.pump.next with
      | some n => some n.1
      | none => c.pump.active
    row := match c.pump.next with
      | some n => n.2
      | none => c.pump.row } }

/-- The row counter advances past the row of the present cycle; a table that does not wrap ends after its last row. -/
def PumpCtx.advance (p : PumpCtx) : PumpCtx :=
  match p.active with
  | none => p
  | some t =>
    if p.row + 1 < t.nrows then { p with row := p.row + 1 }
    else if t.wrap then { p with row := t.looprow } else { p with active := none }

end Sys2Proof.Machine
end

