-- ==== Sys2Proof/Machine/NearMem.lean ====
section
/-!
DEFINITION. Near-memory commands (R225 to R228, R388, R389, R406, R407) and the data of RDs as the base die delivers it.
-/

namespace Sys2Proof.Machine

/-! ### Arithmetic (R226) -/

/-- The new code of an element: `op` 0 FADE, 1 AXPY, 2 ADD, 3 SCALE. Overflow gives an infinity; no flag is kept. -/
def nmcNew (op : Nat) (w x a b : Nat) : Nat :=
  let f := fp32
  let v := unpack f
  let used := match op with
    | 0 => [w, x, a, b]
    | 1 => [w, x, a]
    | 2 => [w, x]
    | _ => [w, a]
  match firstNan f used with
  | some r => r.1
  | none =>
    (finish f .rne (match op with
      | 0 => (mulFV (v b) (v w)).bind fun p => (sumFV .rne [v x, p]).bind fun t => (mulFV (v a) t).bind fun u =>
          sumFV .rne [v w, negFV u]
      | 1 => (mulFV (v a) (v x)).bind fun p => sumFV .rne [v w, p]
      | 2 => sumFV .rne [v w, v x]
      | _ => mulFV (v a) (v w))).1

/-- The 32 bytes of a unit after a command; `xs` are the 32 bytes of its source. -/
def nmcUnit (j : NmcJob) (ws xs : List Byte) : List Byte :=
  (List.range 8).flatMap fun k =>
    let e := fun (l : List Byte) => bytesNat ((l.drop (4 * k)).take 4)
    natBytes (if j.op = 4 then j.a.toNat else nmcNew j.op (e ws) (e xs) j.a.toNat j.b.toNat) 4

/-! ### Performing a command (R227, R388, R406) -/

/-- The command uses source data. -/
def nmcReads (j : NmcJob) : Bool := j.op ≤ 2

/-- The source bytes of unit `i` of a command, and whether one of its two words is poisoned or uncorrectable. -/
def State.nmcSourceUnit (s : State) (j : NmcJob) (i : Nat) : State × List Byte × Bool :=
  if !nmcReads j then (s, [], false)
  else
    let wa := fun (k : Nat) => seqWord (j.caddr / 32 * 32) (2 * i + k) / 16
    let (s, p, _) := s.decodeWord (wa 0) false
    let (s, q, _) := s.decodeWord (wa 1) false
    (s, s.mem.wordBytes (wa 0) ++ s.mem.wordBytes (wa 1), p != .good || q != .good)

/-- A unit that a command finds uncorrectable or poisoned, or that has a bad source, is left unchanged and poisoned, and
counts as a near-memory error of the issuing context (R388, R389). -/
def State.nmcError (s : State) (j : NmcJob) (u : Nat) : State :=
  let b := bankNum j.bank
  let k := unitKey s.cur.val b j.row u
  let w := unitWhere b j.row u
  let s := s.modMem fun m => { m with hbmPz := SMap.put false m.hbmPz k true, hbmErr := SMap.put .ok m.hbmErr k .ok }
  let s := s.event (b / 16) kNm w
  let trap := s.die.err.nmtrap
  s.modOwner j.ctx fun c => { c with
    nmErr := c.nmErr + 1
    nmFirst := c.nmFirst <|> some w
    due := if trap then c.due ++ [{ cause := 0x19, aux := w }] else c.due }

/-- Perform one unit of a command. -/
def State.nmcDoUnit (s : State) (j : NmcJob) (i : Nat) : State :=
  let b := bankNum j.bank
  let u := j.col + i
  let k := unitKey s.cur.val b j.row u
  if j.op = 4 then (s.writeUnit b j.row u (nmcUnit j [] []) false).dirty j.leaf b j.row u
  else
    let (s, xs, bad) := s.nmcSourceUnit j i
    if bad || SMap.get false s.mem.hbmPz k || SMap.get .ok s.mem.hbmErr k == .multi then s.nmcError j u
    else
      let (s, ws, _) := s.readUnit b j.row u
      (s.writeUnit b j.row u (nmcUnit j ws xs) false).dirty j.leaf b j.row u

/-- Perform a command on its units in increasing order; it is then complete. -/
def State.nmcPerform (s : State) (j : NmcJob) : State :=
  ((List.range j.count).foldl (fun s i => s.nmcDoUnit j i) s).modPump fun p => { p with nmc := p.nmc.filter (· != j) }

/-- Perform an RD: its two units enter the return buffer of its context as they stand (R283, R285, R388). -/
def State.rdPerform (s : State) (d : RdData) : State :=
  let b := bankNum d.bank
  let (s, x, p, q) :=
    if s.die.pump.isDead b d.row then (s, List.replicate 64 0, false, false)
    else
      let (s, x, p) := s.readUnit b d.row d.col
      let (s, y, q) := s.readUnit b d.row (d.col + 1)
      (s, x ++ y, p, q)
  (s.modOwner d.ctx fun c => { c with pump := { c.pump with ret := c.pump.ret.map fun e =>
    if e.due = d.due ∧ e.bay = d.bay ∧ e.k = d.k then { e with data := .ofNat 512 (bytesNat x), pz := (p, q) } else e } }).modPump
    fun p => { p with rds := p.rds.filter (· != d) }

/-- Perform the first RD or near-memory command of a pseudo-channel whose number is below `n`. -/
def State.baseFirst (s : State) (pc n : Nat) : State :=
  let r := s.die.pump.rds.find? fun d => d.bank.pc.toNat == pc && decide (d.seq < n)
  let j := s.die.pump.nmc.find? fun j => j.bank.pc.toNat == pc && decide (j.seq < n)
  match r, j with
  | some d, some j => if d.seq < j.seq then s.rdPerform d else s.nmcPerform j
  | some d, none => s.rdPerform d
  | none, some j => s.nmcPerform j
  | none, none => s

/-- Perform the RDs and near-memory commands of a pseudo-channel that come before a number, in the order of their rows
(R227). -/
def State.baseUpTo (s : State) (pc n : Nat) : State :=
  (List.range (s.die.pump.rds.length + s.die.pump.nmc.length)).foldl (fun s _ => s.baseFirst pc n) s

/-- A WR of a pseudo-channel whose row came before a number has not reached the stack (R227). -/
def Pump.blocked (p : Pump) (pc n : Nat) : Bool := p.wrs.any fun w => w.2.1 == pc && decide (w.1 < n)

/-- The pump of a die waits for the data of a WR before it performs a near-memory command. -/
def Pump.nmcBlocked (p : Pump) (j : NmcJob) : Bool := p.blocked j.bank.pc.toNat j.seq

/-- `NMC_COMPLETION` (R227, R407): the command is performed, after those of its channel that precede it. -/
def execNmcCompletion (s : State) : Host.Outcome State Fault Refusal :=
  match s.msg with
  | .nmc j =>
    if !s.die.pump.nmc.contains j then .next s
    else if s.die.pump.nmcBlocked j then .next (s.after 1 .nmcCompletion (.nmc j))
    else .next (s.baseUpTo j.bank.pc.toNat (j.seq + 1))
  | _ => .next s

/-- `PUMP_WR_SEND` (R284, R227): two whole units are written, after the commands of the channel that precede the WR. -/
def execPumpWrSend (s : State) : Host.Outcome State Fault Refusal :=
  match s.msg with
  | .wrData d =>
    let b := bankNum d.bank
    let bs := natBytes d.data.toNat 64
    let s := (s.baseUpTo d.bank.pc.toNat d.seq).modPump fun p => { p with wrs := p.wrs.filter fun w => w.1 != d.seq }
    .next ((((s.writeUnit b d.row d.col (bs.take 32) d.pz.1).writeUnit b d.row (d.col + 1) (bs.drop 32) d.pz.2).dirty d.leaf
      b d.row d.col).dirty d.leaf b d.row (d.col + 1))
  | _ => .next s

/-! ### The commands -/

/-- A near-memory command of a row (R225 to R227): it begins, and completes within tNM. -/
def nmcRun (i : Instr) (op : Nat) (n : NmcOp) (s : State) : Host.Outcome State Fault Refusal :=
  cmdRun i s fun s =>
    let b := bankNum n.bank
    match s.die.pump.bankAt b with
    | .row r l _ _ _ _ _ _ =>
      let (s, k) := s.takeCol
      let j : NmcJob :=
        { op := op, bank := n.bank, row := r, col := n.col.toNat, count := n.count.toNat + 1, caddr := n.caddr.toNat,
          a := n.a, b := n.b, ctx := s.ctx.ctxNo.toNat, seq := k, leaf := l }
      let (w, s) := (s.beginWrite b n.col.toNat).takeWait
      (s.modPump fun p => { p with nmc := p.nmc ++ [j] }).after (max 1 (min w (s.die.pump.reg 15))) .nmcCompletion (.nmc j)
    | .void l _ _ => s.loseWrite l
    | .deadTile l _ _ => s.loseWrite l
    | .closed => s

/-- `NMC_FADE` (R226). -/
def execNmcFade (n : NmcOp) (s : State) : Host.Outcome State Fault Refusal := nmcRun (.nmcFade n) 0 n s

/-- `NMC_AXPY` (R226). -/
def execNmcAxpy (n : NmcOp) (s : State) : Host.Outcome State Fault Refusal := nmcRun (.nmcAxpy n) 1 n s

/-- `NMC_ADD` (R226). -/
def execNmcAdd (n : NmcOp) (s : State) : Host.Outcome State Fault Refusal := nmcRun (.nmcAdd n) 2 n s

/-- `NMC_SCALE` (R226). -/
def execNmcScale (n : NmcOp) (s : State) : Host.Outcome State Fault Refusal := nmcRun (.nmcScale n) 3 n s

/-- `NMC_FILL` (R226). -/
def execNmcFill (n : NmcOp) (s : State) : Host.Outcome State Fault Refusal := nmcRun (.nmcFill n) 4 n s

/-! ### The data of an RD (R283, R227) -/

/-- `RD_DATA_RETURN` (R283, R285, R227): the data of an RD returns, after the commands of its channel that precede it. -/
def execRdDataReturn (s : State) : Host.Outcome State Fault Refusal :=
  match s.msg with
  | .rdData d =>
    if !s.die.pump.rds.contains d then .next s
    else if s.die.pump.blocked d.bank.pc.toNat d.seq then .next (s.after 1 .rdDataReturn (.rdData d))
    else .next (s.baseUpTo d.bank.pc.toNat (d.seq + 1))
  | _ => .next s

/-! ### The slots (R228) -/

/-- `NM.FENCE` (R228). -/
def execNmFence (d : BitVec 6) (s : State) : Host.Outcome State Fault Refusal :=
  slotRun (.nmFence d) s fun s0 =>
    (s0.wsLater 1 d (.ofNat 64 s0.ctx.nmErr)).modCtx fun c => { c with nmErr := 0, nmFirst := none }

/-- `NM.STAT` (R228). Where no error has occurred, the first of them is a free value (DESIGN CHOICE, log 100). -/
def execNmStat (d : BitVec 6) (sel : BitVec 2) (s : State) : Host.Outcome State Fault Refusal :=
  slotRun (.nmStat d sel) s fun s0 =>
    let count := s0.die.pump.nmc.length % 2 ^ 16 + s0.ctx.nmErr % 2 ^ 16 * 2 ^ 32
    let open_ := (Config.freeWord s0.free).toNat % 2 ^ 33
    let v := if sel = 0 then count else s0.ctx.nmFirst.getD open_
    let s1 := s0.wsLater 1 d (.ofNat 64 v)
    if sel = 0 ∨ s0.ctx.nmFirst.isSome then s1 else { s1 with free := s0.free + 1 }

end Sys2Proof.Machine
end

