-- ==== Sys2Proof/Machine/Idle.lean ====
section
/-!
DEFINITION. The idle sequence and refresh (R278, R280, R289 to R292). All of it is counted in die-clock cycles.
-/

namespace Sys2Proof.Machine

/-! ### Commands of an idle row (R290) -/

/-- A command may issue in the present cycle: it meets constraints 1 to 15 against every earlier command, and the bank
state that it needs. -/
def State.idleMeets (s : State) (i : Instr) : Bool :=
  let p := s.die.pump
  let (c, b) := cmdOf i
  (p.firstBroken p.hist s.now c b).isNone && !stateBroken (p.bankAt b) c

/-- Record a command of the idle sequence. -/
def State.noteIdle (s : State) (i : Instr) : State :=
  let (c, b) := cmdOf i
  s.modPump fun p => { p with hist := ⟨c, b, s.now⟩ :: p.hist.filter fun x => decide (s.now < x.at_ + 65536) }

/-- The next row from `r` on that is not dead, wrapping at 65,536; after a whole turn, `r`. -/
def Pump.liveRow (p : Pump) (b : Nat) : Nat → Nat → Nat
  | 0, r => r
  | n + 1, r => if p.isDead b r then p.liveRow b n ((r + 1) % 65536) else r

/-- An idle REFR: the bank's idle pointer advances (R290), and its debt falls (R291). -/
def State.idleRefr (s : State) (b : Nat) : State :=
  s.modPump fun p =>
    let r := SMap.get 0 p.idlePtr b
    { p.payDebt b with idlePtr := SMap.put 0 p.idlePtr b (p.liveRow b 65536 ((r + 1) % 65536)) }

/-- The effect of a command of the idle image. -/
def State.idleDo (s : State) (i : Instr) : State :=
  let s := s.noteIdle i
  match i with
  | .pre b => s.closeBank (bankNum b)
  | .prea pc => s.closeAll pc.toNat
  | .refr b _ => s.idleRefr (bankNum b)
  | _ => s

/-- Issue the commands of a row in order, up to the first that must be held; the answer is what is left. -/
def State.idleWords (s : State) : List Nat → State × List Nat
  | [] => (s, [])
  | w :: l =>
    match decodePump w none with
    | .ok .pumpSkip => s.idleWords l
    | .ok i => if s.idleMeets i then (s.idleDo i).idleWords l else (s, w :: l)
    | .error _ => s.idleWords l

/-- How many of the words of an idle row would issue in the present cycle. -/
def State.idleIssues (s : State) : List Nat → Nat
  | [] => 0
  | w :: l =>
    match decodePump w none with
    | .ok .pumpSkip => s.idleIssues l
    | .ok i => if s.idleMeets i then (s.idleDo i).idleIssues l + 1 else 0
    | .error _ => s.idleIssues l

/-- Change the idle run. -/
def State.modIdle (s : State) (f : IdleRun → IdleRun) : State := s.modPump fun p => { p with idle := p.idle.map f }

/-- The words of an idle row. -/
def Pump.idleRow (p : Pump) (r : Nat) : List Nat := match p.idleTab with
  | some t => (t.rowAt r).1
  | none => []

/-- The idle row after a row, wrapping under the image's header; past the end of an image that does not wrap rows are
empty. -/
def Pump.idleNext (p : Pump) (r : Nat) : Nat := match p.idleTab with
  | some t => if r + 1 < t.nrows then r + 1 else if t.wrap then t.looprow else t.nrows
  | none => 0

/-- `IDLE_ROW_ISSUE` (R290): the commands of the row that may issue do; a row that is done ends the run when a bundle is
ready. -/
def execIdleRowIssue (s : State) : Host.Outcome State Fault Refusal :=
  match s.die.pump.idle with
  | some r =>
    if r.phase != .run then .next s
    else
      let (s, l) := s.idleWords r.left
      if l ≠ [] then .next (s.modIdle fun r => { r with left := l })
      else if r.ready then .next ((s.modIdle fun r => { r with left := [] }).push [.instr .idleRunEnd .none])
      else
        let n := s.die.pump.idleNext r.row
        .next (s.modIdle fun x => { x with row := n, left := s.die.pump.idleRow n })
  | none => .next s

/-! ### Entry, reopening and resumption -/

/-- Keep the pointers legal and begin a run (R289): the open banks are recorded. -/
def execIdleSequenceEntry (s : State) : Host.Outcome State Fault Refusal :=
  if s.die.pump.idle.isSome ∨ s.die.pump.idleTab.isNone then .next s
  else
    let s := s.modCtx fun c => { c with pump := { c.pump with openRec := s.die.pump.bank } }
    .next (s.modPump fun p => { p with idle := some { row := 0, left := p.idleRow 0, start := s.now } })

/-- A recorded bank as it opens again. -/
def Pump.reopened (p : Pump) (b : Nat) : OpenRow → OpenRow
  | .row r l h q m _ _ _ => .row r l h q m (p.isDead b r) false false
  | o => o

/-- `IDLE_RUN_END` (R290): the recorded banks that are closed open again, one ACT at a time in order of PC, BG and BK,
each held until it meets its constraints. -/
def execIdleRunEnd (s : State) : Host.Outcome State Fault Refusal :=
  match s.die.pump.idle with
  | some r =>
    let todo := match r.phase with
      | .reopen l => l
      | _ => s.ctx.pump.openRec.filter fun x => s.die.pump.bankAt x.1 == .closed
    match todo with
    | [] => .next (s.modIdle fun r => { r with phase := .settle })
    | (b, o) :: l =>
      let i : Instr := .act ⟨.ofNat 6 (b / 16), .ofNat 2 (b / 4), .ofNat 2 b⟩ 0
      if s.idleMeets i then
        let s := (s.noteIdle i).setBank b (s.die.pump.reopened b o)
        .next (s.modIdle fun r => { r with phase := .reopen l })
      else .next (s.modIdle fun r => { r with phase := .reopen todo })
  | none => .next s

/-- Commands that the idle sequence issues in the present cycle (R399). -/
def State.idleCount (s : State) : Nat :=
  match s.die.pump.idle with
  | some r => (match r.phase with
      | .run => s.idleIssues r.left
      | .reopen ((b, _) :: _) => b2n (s.idleMeets (.act ⟨.ofNat 6 (b / 16), .ofNat 2 (b / 4), .ofNat 2 b⟩ 0))
      | _ => 0)
  | none => 0

/-- Every command of the run is at least MAXC cycles old. -/
def State.runSettled (s : State) (r : IdleRun) : Bool :=
  s.die.pump.hist.all fun x => decide (x.at_ < r.start) || decide (x.at_ + s.die.pump.maxc ≤ s.now)

/-- `TABLE_RESUME` (R290): the run is complete. -/
def execTableResume (s : State) : Host.Outcome State Fault Refusal :=
  .next ((s.modPump fun p => { p with idle := none, runs := (p.runs + 1) % 2 ^ 32, held := 0 }).modCtx fun c =>
    { c with pump := { c.pump with openRec := [] } })

/-! ### Refresh debt (R291) -/

/-- `REFRESH_DEBT_ACCRUAL` (R291): every bank's debt rises by 1. -/
def execRefreshDebtAccrual (s : State) : Host.Outcome State Fault Refusal :=
  .next (s.modPump fun p =>
    let p := { p with debt := p.debt + 1, accr := 0 }
    { p with debtPeak := max p.debtPeak (min p.maxDebt.toNat 15) })

/-- Die-clock cycles between two accruals. -/
def Pump.accrual (p : Pump) : Nat := max 1 (p.trefw / 65536)

/-! ### The pump's share of a die-clock cycle -/

/-- The pump enters the idle sequence in this cycle (R278, R280, R289). -/
def State.idleEnters (s : State) : Bool :=
  let p := s.die.pump
  p.idle.isNone && p.idleTab.isSome && !s.die.rows &&
    (decide (p.idleThresh ≤ p.held) || decide ((p.refpost : Int) ≤ p.maxDebt) || s.ctx.pump.active.isNone || s.die.halting)

/-- Count the cycle, and take the pump's steps beside the timeline. -/
def State.idleStep (s : State) : State :=
  let s := s.modPump fun p => { p with held := if s.die.rows then 0 else p.held + 1, accr := p.accr + 1 }
  let p := s.die.pump
  let own := match p.idle with
    | some r => (match r.phase with
        | .run => [Work.instr .idleRowIssue .none]
        | .reopen _ => [Work.instr .idleRunEnd .none]
        | .settle => if s.runSettled r then [Work.instr .tableResume .none] else [])
    | none => if s.idleEnters then [Work.instr .idleSequenceEntry .none] else []
  s.push ((if p.accrual ≤ p.accr then [Work.instr .refreshDebtAccrual .none] else []) ++ own)

/-- A timeline cycle cannot take place: the table waits for the end of an idle run (R290). -/
def State.pumpBlocks (s : State) : Bool := s.ctx.pump.active.isSome && s.die.pump.idle.isSome && !s.ctx.inH

/-- A bundle, or a HOLD cycle, is ready for the pump. -/
def State.pumpReady (s : State) : State := s.modIdle fun r => { r with ready := true }

end Sys2Proof.Machine
end

