-- ==== Sys2Proof/Machine/Fetch.lean ====
section
/-!
DEFINITION. Segments (R27, R28, R73 to R76, R305): translation of segment pages, the checks of a segment, its expansion,
and the loading of its stencils.
-/

namespace Sys2Proof.Machine

/-! ### CRC-32C (R73) -/

/-- One bit of the reflected polynomial. -/
def crcStep (poly c : BitVec 32) : BitVec 32 := if c.getLsbD 0 then (c >>> (1 : Nat)) ^^^ poly else c >>> (1 : Nat)

/-- One byte. -/
def crcByte (poly c : BitVec 32) (b : Byte) : BitVec 32 :=
  (List.range 8).foldl (fun c _ => crcStep poly c) (c ^^^ b.setWidth 32)

/-- The CRC of some bytes. -/
def crc32With (poly : BitVec 32) (l : List Byte) : BitVec 32 := l.foldl (crcByte poly) 0xFFFFFFFF#32 ^^^ 0xFFFFFFFF#32

/-- CRC-32C of some bytes (R73). -/
def crc32c (l : List Byte) : BitVec 32 := crc32With 0x82F63B78#32 l

/-! ### Pages (R305) -/

/-- The geometry of a segment page: 8 KiB, swizzle 0, the tensor id of segment pages (R261). -/
def pageGeom : Geom := ⟨0, 0, 0⟩

/-- Leaf of a segment page through the die's translation cache, which `TLB.SYNC` empties; none when it fails. -/
def State.pageLeaf (s : State) (p : Nat) : State × Option Nat :=
  let i := s.ctx.codeBase + p
  if s.ctx.leafN ≤ i then (s, none)
  else
    let l := s.cachedWord i
    (s.cacheLeaf i, if leafOk s.ctx pageGeom l && lfValid l then some l else none)

/-- The leaf of a segment page was stored by the die and no `TLB.SYNC` has ordered it (R256). -/
def State.pageStale (s : State) (p : Nat) : Bool :=
  SMap.get false s.die.stored (s.leafAddr (s.ctx.codeBase + p) / 16)

/-- The 64 bytes at a virtual address, a multiple of 64, and whether they are poisoned; none when translation fails. -/
def State.codeRead (s : State) (va : Nat) : State × Option (List Byte × Bool) :=
  match s.pageLeaf (va / 8192) with
  | (s, none) => (s, none)
  | (s, some l) =>
    let (s, bs, p, q) := s.readChunk pageGeom (lfTier l) (lfFrame l) (va % 8192)
    (s, some (bs, p || q))

/-- What the prefetch engine finds at an address: no translation, a bank that the service path may not yet reach (R313), or
64 bytes with their poison. -/
inductive Chunk where
  | lost
  | wait
  | got (bs : List Byte) (poison : Bool)
  deriving DecidableEq, Repr

/-- The 64 bytes at a virtual address for the prefetch engine, which keeps what it has read for the expansion under way. -/
def State.codeChunk (s : State) (va : Nat) : State × Chunk :=
  match s.ctx.code.find? fun x => x.1 == va with
  | some x => (s, .got x.2.1 x.2.2)
  | none =>
    match s.pageLeaf (va / 8192) with
    | (s, none) => (s, .lost)
    | (s, some l) =>
      let b := pageGeom.chunkBank (va % 8192)
      if lfTier l = 0 ∧ s.svcReady b 1 false = false then (s, .wait)
      else
        let s := if lfTier l = 0 then s.svcBegin b 1 false else s
        let (s, bs, p, q) := s.readChunk pageGeom (lfTier l) (lfFrame l) (va % 8192)
        (s.modCtx fun c => { c with code := c.code ++ [(va, bs, p || q)] }, .got bs (p || q))

/-- The image of a segment as far as it has been read, from offset 0. -/
structure SegRead where
  bytes : List Byte := []
  poison : Bool := false
  /-- Offset at which translation failed. -/
  lost : Option Nat := none
  /-- The next chunk waits for the service path. -/
  wait : Bool := false
  deriving DecidableEq, Repr

/-- Reading goes no further: sub-cause and offset of a fault, sub-cause 0 for a wait. -/
def SegRead.stop (r : SegRead) : Option (Nat × Nat) :=
  if r.wait then some (0, 0) else r.lost.map fun o => (0x01, o)

/-- Read `n` more chunks. -/
def State.readMore (s : State) (va : Nat) : Nat → SegRead → State × SegRead
  | 0, r => (s, r)
  | n + 1, r =>
    if r.stop.isSome then (s, r)
    else match s.codeChunk (va + r.bytes.length) with
      | (s, .lost) => (s, { r with lost := some r.bytes.length })
      | (s, .wait) => (s, { r with wait := true })
      | (s, .got bs p) => s.readMore va n { r with bytes := r.bytes ++ bs, poison := r.poison || p }

/-- Read up to an offset. -/
def State.readTo (s : State) (va off : Nat) (r : SegRead) : State × SegRead :=
  s.readMore va (ceilDiv off 64 - r.bytes.length / 64) r

/-- The 64-bit word at an offset. -/
def SegRead.word (r : SegRead) (off : Nat) : Nat := bytesNat ((r.bytes.drop off).take 8)

/-! ### The header (R73) -/

/-- The first header fault of sub-cause 0x02, by offset: a misaligned NEXT is one of them (log 49). DESIGN CHOICE (log 88):
so are STNOFF and BUNOFF below 64, and a STNOFF that is not 0 when NSTN is 0. -/
def SegRead.badHeader (r : SegRead) : Option Nat :=
  let w := fun k => r.word (8 * k)
  let nstn := bitsAt (w 2) 16 8
  [((0 : Nat), bitsAt (w 0) 0 32 != 0x4753524A || bitsAt (w 0) 32 8 != 1 || bitsAt (w 0) 40 24 != 0),
   (8, w 1 % 128 != 0),
   (16, bitsAt (w 2) 9 7 != 0 || bitsAt (w 2) 24 8 != 0),
   (24, if nstn = 0 then w 3 != 0 else w 3 % 64 != 0 || decide (w 3 < 64)),
   (32, w 4 % 8 != 0 || decide (w 4 < 64)),
   (40, bitsAt (w 5) 32 32 != 0), (48, w 6 != 0), (56, w 7 != 0)].findSome? fun x => if x.2 then some x.1 else none

def SegRead.nbun (r : SegRead) : Nat := bitsAt (r.word 16) 0 9
def SegRead.nstn (r : SegRead) : Nat := bitsAt (r.word 16) 16 8
def SegRead.ptBytes (r : SegRead) : Nat := bitsAt (r.word 16) 32 32
def SegRead.stnOff (r : SegRead) : Nat := r.word 24
def SegRead.bunOff (r : SegRead) : Nat := r.word 32

/-- The first fault of sub-cause 0x04. DESIGN CHOICE (log 88): NSTN of 255 is one. -/
def SegRead.badBounds (r : SegRead) : Option Nat :=
  if r.nbun = 0 ∨ 256 < r.nbun ∨ 254 < r.nstn then some 16
  else if r.nstn ≠ 0 ∧ r.bunOff < r.stnOff + 1280 * r.nstn then some r.stnOff
  else none

/-! ### The bundle stream (R75) -/

/-- The words of a bundle as expanded: absent slots are zero, PRES is all ones. -/
def expandBundle (hd : Nat) (ws : List Nat) : List Nat :=
  setBits hd 1 15 (2 ^ 15 - 1) :: ((List.range 15).map fun k =>
    if bitAt hd (k + 1) then ws.getD (((List.range k).filter fun j => bitAt hd (j + 1)).length) 0 else 0)

/-- Read `n` bundles from an offset: each with its offset, and the end of the stream. -/
def State.readBundles (s : State) (va : Nat) : Nat → Nat → SegRead → List (Nat × List Nat) →
    State × SegRead × List (Nat × List Nat) × Nat
  | 0, off, r, l => (s, r, l, off)
  | n + 1, off, r, l =>
    let (s, r) := s.readTo va (off + 8) r
    if r.stop.isSome then (s, r, l, off)
    else
      let hd := r.word off
      let k := ((List.range 15).filter fun j => bitAt hd (j + 1)).length
      let (s, r) := s.readTo va (off + 8 + 8 * k) r
      if r.stop.isSome then (s, r, l, off)
      else
        let ws := (List.range k).map fun j => r.word (off + 8 + 8 * j)
        s.readBundles va n (off + 8 + 8 * k) r (l ++ [(off, expandBundle hd ws)])

/-- LAST of a bundle. -/
def isLast (ws : List Nat) : Bool := bitAt (ws.getD 0 0) 44

/-- Offset of the first bundle whose LAST is against R75. -/
def badLast (l : List (Nat × List Nat)) : Option Nat :=
  (l.zipIdx.find? fun x => isLast x.1.2 != (x.2 + 1 == l.length)).map fun x => x.1.1

/-! ### The stencil block (R74) -/

/-- An entry of the stencil block: slot as in `Bay.stn`, bay mask, contents, whether it passes the check of sub-cause
0x05, and its offset. -/
structure StnEntry where
  key : Nat
  bays : Bays
  st : BitVec 9728
  ok : Bool
  off : Nat
  deriving DecidableEq, Repr

/-- Entry `i`. -/
def SegRead.stnEntry (r : SegRead) (i : Nat) : StnEntry :=
  let off := r.stnOff + 1280 * i
  let tag := (r.bytes.drop off).take 64
  let b0 := (tag.getD 0 0).toNat
  { key := b0, bays := tag.getD 1 0, st := .ofNat 9728 (bytesNat ((r.bytes.drop (off + 64)).take 1216))
    ok := b0 % 128 != 0 && tag.getD 1 0 != 0 && (tag.drop 2).all (· == 0), off := off }

/-! ### Validation (R76) -/

/-- Read and check a segment up to its CRC: the segment, with the first fault found (sub-cause 0: the service path is
awaited), and its stencil entries. DESIGN
CHOICE (log 89): an entry whose load is skipped counts as loaded by the segment's block (R28). -/
def State.readSegment (s : State) (va : Nat) : State × Segment × List StnEntry :=
  let fail := fun (s : State) (sub off : Nat) => (s, ({ va := va, bad := some (sub, off) } : Segment), ([] : List StnEntry))
  let (s, r) := s.readTo va 64 {}
  match r.stop, r.badHeader with
  | some x, _ => fail s x.1 x.2
  | none, some o => fail s 0x02 o
  | none, none =>
    let (s, r, bs, end_) := s.readBundles va r.nbun r.bunOff r []
    let pt := ceilDiv end_ 64 * 64
    let (s, r) := if r.stop.isSome then (s, r) else s.readTo va (pt + r.ptBytes) r
    match r.stop, r.badBounds with
    | some x, _ => fail s x.1 x.2
    | none, some o => fail s 0x04 o
    | none, none =>
      let crc := crc32c ((r.bytes.drop 64).take (pt + r.ptBytes - 64))
      if r.poison || crc.toNat != bitsAt (r.word 40) 0 32 then fail s 0x03 64
      else
        let es := (List.range r.nstn).map r.stnEntry
        let own := es.flatMap fun e => (baysOf e.bays).map fun b => (b.val, e.key)
        (s, { va := va, next := r.word 8, bundles := bs.map Prod.snd, ptab := (r.bytes.drop pt).take r.ptBytes, own := own,
              bad := (badLast bs).map fun o => (0x07, o) }, es)

/-! ### Slots in use (R28) -/

/-- DSTN and PSTN of a bundle. -/
def dstnOf (ws : List Nat) : Nat := bitsAt (ws.getD 0 0) 53 7
def pstnOf (ws : List Nat) : Nat := bitsAt (ws.getD 0 0) 46 7

/-- A slot word is a `STN.LD` or `STN.CUT` that names a stencil slot of a bay. -/
def stnNames (w bay key : Nat) : Bool :=
  match decodeSlot w with
  | .ok (.stnLd bays dir slot _) => bays.getLsbD bay && 128 * b2n dir + slot.toNat == key
  | .ok (.stnCut b dir slot _ _ _ _) => b.toNat == bay && 128 * b2n dir + slot.toNat == key
  | _ => false

/-- A stencil slot of a bay is in use by the current segment. -/
def Ctx.stnInUse (c : Ctx) (bay key : Nat) : Bool :=
  match c.seg with
  | none => false
  | some g => g.own.contains (bay, key) || g.bundles.any fun ws =>
      dstnOf ws == key || 128 + pstnOf ws == key || (ws.drop 1).any fun w => stnNames w bay key

/-- Load one entry: the contents differ from those of a slot in use (R28, R76). -/
def State.loadEntry (s : State) (e : StnEntry) : State × Bool :=
  (baysOf e.bays).foldl (fun acc b =>
    let (s, bad) := acc
    if s.ctx.stnInUse b.val e.key then (s, bad || (s.bayAt b).stencil e.key != e.st)
    else (s.modBay b fun x => { x with stn := SMap.put 0 x.stn e.key e.st }, bad)) (s, false)

/-- Check and load the entries in block order: the first fault. -/
def State.loadEntries (s : State) : List StnEntry → State × Option (Nat × Nat)
  | [] => (s, none)
  | e :: l =>
    if !e.ok then
      let (s, _) := s.loadEntries l
      (s, some (0x05, e.off))
    else
      let (s, bad) := s.loadEntry e
      let (s, f) := s.loadEntries l
      (s, if bad then some (0x06, e.off) else f)

/-- A cut into a slot that an entry loads is in progress: the engine waits (R107). -/
def State.cutInWay (s : State) (es : List StnEntry) : Bool :=
  (s.ctx.cut.toList ++ s.ctx.cutq).any fun j => es.any fun e => e.ok && e.key == 128 * b2n j.dir + j.slot && e.bays.getLsbD j.bay.val

/-! ### Expansion (R27) -/

/-- The current segment of a restored context is expanded again; its stencil stores stand (R364). One that fails its checks
is held as a target that faults. -/
def State.resumeSegment (s : State) (g : Segment) : State :=
  match g.bad with
  | some _ =>
    s.modCtx fun c => { c with
      restored := false, seg := none, half := .ready g, target := c.target <|> some { va := g.va, idx := c.idx } }
  | none =>
    let s := s.modCtx fun c => { c with restored := false, seg := some g, half := .empty }
    if g.next = 0 then s else s.startExpand g.next

/-- `SEGMENT_EXPANSION_DONE` (R27, R28, R76): the segment stands in the inactive half, and its stencils are loaded. While
the service path is awaited, or a cut into one of the slots runs, it comes again in the next cycle. -/
def execSegmentExpansionDone (va : Nat) (s : State) : Host.Outcome State Fault Refusal :=
  if s.ctx.half ≠ .expanding va then .next s
  else
    let (s, g, es) := s.readSegment va
    if g.bad = some (0, 0) then .next (s.after 1 (.segmentExpansionDone va))
    else if s.ctx.restored then .next (s.resumeSegment g)
    else if s.cutInWay es then .next (s.after 1 (.segmentExpansionDone va))
    else
      let (s, f) := s.loadEntries es
      .next (s.modCtx fun c => { c with half := .ready { g with bad := f <|> g.bad } })

end Sys2Proof.Machine
end

