-- ==== Sys2Proof/Machine/Engine.lean ====
section
/-!
DEFINITION. Probe tables, copy engines and page requests (R207 to R214, R316).
-/

namespace Sys2Proof.Machine

/-! ### Copies (R211, R212) -/

/-- A reservoir word lies in the range that a request's context may name (R315). -/
def resAllowed (r : CopyReq) (a : Nat) : Bool := decide (r.rbase ≤ a) && decide (a + 16 ≤ r.rbase + r.rlen)

/-- The address of word `i` of a reservoir range; the low four bits are ignored. -/
def resWord (a : Word) (i : Nat) : Nat := a.toNat % 2 ^ 40 / 16 * 16 + 16 * i

/-- Write 16 bytes of the reservoir with their poison (R212). -/
def State.putRes (s : State) (a : Nat) (bs : List Byte) (pz : Bool) : State :=
  s.modMem fun m => { m with res := wrBytes m.res a bs, resPz := SMap.put false m.resPz (a / 16) pz }

/-- The source of a request is the reservoir. -/
def fromRes (r : CopyReq) : Bool := r.form == 2 || (r.form == 0 && r.srcA.getLsbD 63)

/-- The reservoir address of a request has non-zero bits [62:40] (R212). -/
def resBad (r : CopyReq) : Bool :=
  if r.form = 1 then bitsAt r.dst.toNat 40 23 != 0 else fromRes r && bitsAt r.srcA.toNat 40 23 != 0

/-- Word `i` of the source and destination of a request may be used (R212). -/
def State.copyAllowed (s : State) (r : CopyReq) (i : Nat) : Bool :=
  (if fromRes r then resAllowed r (resWord r.srcA i) else s.engReads r.domid (seqWord r.srcA.toNat i)) &&
    (if r.form = 1 then resAllowed r (resWord r.dst i) else s.engMayWrite r.domid (seqWord r.dst.toNat i))

/-- The first request of the die's engine queue as it stands. -/
def State.modHead (s : State) (f : CopyReq → CopyReq) : State :=
  s.modDie fun d => { d with engine := match d.engine with
    | [] => []
    | r :: l => f r :: l }

/-- An access of the request at the head that needs the side port waits for it, or is made (R26, R384, R392): the next
attempt is some cycles later. -/
def State.copySide (s : State) (r : CopyReq) (all reads : List Nat) (f : State → State) : State × Nat :=
  match s.sideDelay r.ready all reads with
  | some (n, slow) => (if slow then s.modHead fun r => { r with ready := s.now + n } else s, n)
  | none => (f (s.takeSide all), 1)

/-- The source word of a request is read: its bytes, and whether it was poisoned or uncorrectable (R212, R387). -/
def State.copyRead (s : State) (r : CopyReq) : State × Nat :=
  let keep := fun (s : State) (bs : List Byte) (bad : Bool) =>
    s.modHead fun r => { r with got := some (bs, bad), st := if bad then 2 else r.st, ready := 0 }
  if fromRes r then
    let a := resWord r.srcA r.pos
    (keep s (rdBytes s.mem.res a 16) (SMap.get false s.mem.resPz (a / 16)), 1)
  else
    let w := seqWord r.srcA.toNat r.pos / 16
    s.copySide r [w] [w] fun s =>
      let (s, st, _) := s.decodeWord w false
      keep s (s.mem.wordBytes w) (st != .good)

/-- The destination word of a request is written, in the shadow of its granule if that has one; a bad source word poisons
it. -/
def State.copyWrite (s : State) (r : CopyReq) (bs : List Byte) (bad : Bool) : State × Nat :=
  let next := fun (s : State) => s.modHead fun r => { r with got := none, pos := r.pos + 1, ready := 0 }
  if r.form = 1 then (next (s.putRes (resWord r.dst r.pos) bs bad), 1)
  else
    let d := seqWord r.dst.toNat r.pos
    if s.engDrops d then (next s, 1)
    else
      let a := s.engAddr d
      s.copySide r [a / 16] [] fun s =>
        let s := s.putBytes a bs
        next (if bad then s.poison (a / 16) else s)

/-- What a request does next: an access, with the cycles to the one after it, or its end with a status. Words are copied in
increasing order, each read and then written; a word that may not be used ends the request, and what is written stays
written (R211, R212). -/
def State.copyNext (s : State) (r : CopyReq) : (State × Nat) ⊕ Nat :=
  if r.len = 0 ∨ 2 ^ 20 < r.len ∨ resBad r then .inr 4
  else match r.got with
    | some (bs, bad) => .inl (s.copyWrite r bs bad)
    | none =>
      if r.len ≤ r.pos then .inr r.st
      else if s.copyAllowed r r.pos then .inl (s.copyRead r)
      else .inr 3

/-- A fill whose entry still awaits it makes the entry valid when its completion word is written (R209). -/
def State.fillDone (s : State) (r : CopyReq) : State :=
  if !s.completes r.domid r.caddr then s
  else s.modBay r.bay fun x =>
    let e := SMap.get (0, 0) x.probe.ent r.slot
    if x.probe.gen = r.gen ∧ e = (blockOf r.srcA, 2) then
      { x with probe := { x.probe with ent := SMap.put (0, 0) x.probe.ent r.slot (e.1, 1) } }
    else x

/-- The request at the head of the queue ends with a status: its completion word is written through the side port (R213),
and what follows it is done. -/
def State.copyEnd (s : State) (e : Instr) (r : CopyReq) (st : Nat) (f : State → State) : State :=
  if s.completes r.domid r.caddr && s.sideTaken [r.caddr / 16] then s.after 1 e (.copy r)
  else
    let s := s.modDie fun d => { d with engine := d.engine.drop 1 }
    f ((s.takeSide [r.caddr / 16]).complete r.domid r.caddr r.cval st)

/-- Serve a request: its next access, once it is the head of the queue (R211). It comes again until it has ended. -/
def State.engineServe (s : State) (e : Instr) (q : CopyReq) (f : CopyReq → State → State) : State :=
  match s.die.engine with
  | r :: l =>
    if r.id = q.id then
      s.dropping r.drop fun s => match s.copyNext r with
        | .inl (s, n) => s.after n e (.copy q)
        | .inr st => s.copyEnd e r st (f r)
    else if l.any fun x => x.id == q.id then s.after 1 e (.copy q)
    else s
  | [] => s

/-- `COPY_COMPLETION` (R211 to R213): the accesses of the request, one in a cycle, and its completion word. -/
def execCopyCompletion (s : State) : Host.Outcome State Fault Refusal :=
  match s.msg with
  | .copy r => .next (s.engineServe .copyCompletion r fun _ s => s)
  | _ => .next s

/-- `PROBE_FILL_COMPLETION` (R209): those of a probe fill, whose entry is then valid. -/
def execProbeFillCompletion (s : State) : Host.Outcome State Fault Refusal :=
  match s.msg with
  | .copy r => .next (s.engineServe .probeFillCompletion r fun r s => s.fillDone r)
  | _ => .next s

/-! ### Page requests (R214, R316) -/

/-- The requests for a leaf complete with a status. -/
def State.pageDone (s : State) (leaf status : Nat) : State :=
  let l := s.die.pageq.filter fun x => x.1 == leaf
  l.foldl (fun s x => s.complete x.2.2.2 x.2.1 x.2.2.1 status)
    (s.modDie fun d => { d with pageq := d.pageq.filter fun x => x.1 != leaf })

/-- `PAGE_REQUEST_REFUSAL` (R214): the driver refuses a request. -/
def execPageRequestRefusal (n : Nat) (s : State) : Host.Outcome State Fault Refusal :=
  match s.die.pageq[n]? with
  | some x =>
    .next ((s.modDie fun d => { d with pageq := d.pageq.eraseIdx n }).complete x.2.2.2 x.2.1 x.2.2.1 3)
  | none => .next s

/-! ### The slots -/

/-- Queue a request at the copy engine under a number of its own; it begins after a time that the spec leaves open. -/
def State.engineQueue (s : State) (e : Instr) (r : CopyReq) : State :=
  let r := { r with id := s.die.engNext }
  (s.modDie fun d => { d with engine := d.engine ++ [r], engNext := d.engNext + 1 }).whenever e (.copy r)

/-- The request of a copy slot. -/
def State.copyReq (s : State) (form : Nat) (b a n c v : BitVec 6) : CopyReq :=
  { form := form, die := s.cur, dst := s.rs b, srcA := s.rs a, len := bitsAt (s.rs n).toNat 0 21,
    caddr := (s.rs c).toNat, cval := s.rs v, domid := s.ctx.domid.toNat, rbase := s.ctx.rbase, rlen := s.ctx.rlen,
    bay := 0, slot := 0, gen := 0 }

/-- `COPY` (R211). -/
def execCopy (bay : BitVec 3) (b a n c v : BitVec 6) (s : State) : Host.Outcome State Fault Refusal :=
  slotRun (.copy bay b a n c v) s fun s0 => s0.engineQueue .copyCompletion (s0.copyReq 0 b a n c v)

/-- `COPY.ST` (R211). -/
def execCopySt (bay : BitVec 3) (b a n c v : BitVec 6) (s : State) : Host.Outcome State Fault Refusal :=
  slotRun (.copySt bay b a n c v) s fun s0 => s0.engineQueue .copyCompletion (s0.copyReq 1 b a n c v)

/-- `PAGE.REQ` (R214). -/
def execPageReq (bay : BitVec 3) (h : BitVec 4) (a c v : BitVec 6) (s : State) : Host.Outcome State Fault Refusal :=
  slotRun (.pageReq bay h a c v) s fun s0 =>
    let leaf := hBase (s0.ctx.rh h) + (s0.rs a).toNat
    s0.modDie fun d => { d with pageq := d.pageq ++ [(leaf, (s0.rs c).toNat, s0.rs v, s0.ctx.domid.toNat)] }

/-- `PROBE` (R209). -/
def execProbe (bay : BitVec 3) (pd : BitVec 4) (d a v : BitVec 6) (s : State) : Host.Outcome State Fault Refusal :=
  slotRun (.probe bay pd d a v) s fun s0 =>
    let b : BayIx := ⟨bay.toNat, bay.isLt⟩
    let p := s0.probeAt bay
    let blk := blockOf (s0.rs a)
    let (st, slot, vict) := p.look blk
    let s := (s0.wpLater 2 pd (st == 0)).wsLater 2 d (.ofNat 64 (slot % 256 + st * 2 ^ 8))
    if st ≠ 1 then s
    else
      let p := { p with
        ent := SMap.put (0, 0) p.ent slot (blk, 2)
        vict := match vict with
          | some x => SMap.put 0 p.vict x.1 x.2
          | none => p.vict }
      let k := s0.cur.val
      let r : CopyReq :=
        { form := 2, die := s0.cur, dst := .ofNat 64 (wordAddr k b.val (p.pbank + slot / 16) (512 * (slot % 16))),
          srcA := .ofNat 64 (blk * 8192), len := 512, caddr := wordAddr k b.val p.cbank (p.cword + slot),
          cval := s0.rs v, domid := s0.ctx.domid.toNat, rbase := s0.ctx.rbase, rlen := s0.ctx.rlen, bay := b,
          slot := slot, gen := p.gen }
      (s.modBay b fun x => { x with probe := p }).engineQueue .probeFillCompletion r

/-- `PROBE.INV` (R210). -/
def execProbeInv (bay : BitVec 3) (a : BitVec 6) (s : State) : Host.Outcome State Fault Refusal :=
  slotRun (.probeInv bay a) s fun s0 =>
    let blk := blockOf (s0.rs a)
    s0.modBay ⟨bay.toNat, bay.isLt⟩ fun x =>
      { x with probe := { x.probe with ent := x.probe.ent.filter fun e => e.2.1 != blk || e.2.2 == 0 } }

/-- `PROBE.TAG` (R208). -/
def execProbeTag (bay : BitVec 3) (a : BitVec 6) (s : State) : Host.Outcome State Fault Refusal :=
  slotRun (.probeTag bay a) s fun s0 =>
    let (pb, n, w, cb, cw) := tagFields (s0.rs a)
    s0.modBay ⟨bay.toNat, bay.isLt⟩ fun x =>
      { x with probe := { cfg := true, pbank := pb, nslot := n, ways := w, cbank := cb, cword := cw,
                          gen := x.probe.gen + 1 } }

end Sys2Proof.Machine
end

