-- ==== Sys2Proof/Machine/Scalar.lean ====
section
/-!
DEFINITION. Scalar, predicate and handle slots (R126 to R133, R147, R148), and the queued forms, which enter the load and
store queues (R134, R137 to R145).
-/

namespace Sys2Proof.Machine

/-! ### Shared operations -/

/-- An integer slot writes a scalar register with latency 1 (R126, R127). -/
def aluSlot (i : Instr) (d : BitVec 6) (v : State → Word) (s : State) : Host.Outcome State Fault Refusal :=
  slotRun i s fun s => s.wsLater 1 d (v s)

/-- A multiply slot writes a scalar register with latency 3 (R128). -/
def mulSlot (i : Instr) (d : BitVec 6) (v : State → Word) (s : State) : Host.Outcome State Fault Refusal :=
  slotRun i s fun s => s.wsLater 3 d (v s)

/-- A compare slot writes two predicates with latency 1 (R129). -/
def cmpSlot (i : Instr) (pd pn : BitVec 4) (t : State → Bool) (s : State) : Host.Outcome State Fault Refusal :=
  slotRun i s fun s => (s.wpLater 1 pd (t s)).wpLater 1 pn (!t s)

/-- A predicate slot writes one predicate with latency 1 (R130). -/
def predSlot (i : Instr) (o : POp) (f : Bool → Bool → Bool) (s : State) : Host.Outcome State Fault Refusal :=
  slotRun i s fun s => s.wpLater 1 o.pd (f (s.ctx.rp o.pa != o.na) (s.ctx.rp o.pb != o.nb))

/-- The format that PREC selects (R131). -/
def precFmt (prec : Bool) : FFmt := if prec then fp64 else fp32

/-- The operand that PREC selects of a register (R131). -/
def State.fpReg (s : State) (prec : Bool) (r : BitVec 6) : Nat := if prec then (s.rs r).toNat else bitsAt (s.rs r).toNat 0 32

/-- A scalar floating-point slot writes a scalar register and flags with latency 4 (R131). -/
def fpSlot (i : Instr) (d : BitVec 6) (v : State → Nat × Flags) (s : State) : Host.Outcome State Fault Refusal :=
  slotRun i s fun s => s.wsLater 4 d (.ofNat 64 (v s).1) (v s).2

/-- The conditions of `FCMP` (R132). -/
def fcondOf (c : BitVec 3) : FCond :=
  match c.toNat with
  | 0 => .eq
  | 1 => .lt
  | 2 => .le
  | _ => .un

/-- The effective address of a scalar access (R134). -/
def effAddr (base : Word) (off : BitVec 24) : Nat := (base + off.signExtend 64).toNat % 2 ^ 32

/-- Enter an access in the load queue; the event of its performance comes after a time that the spec leaves open. -/
def State.toLoadQueue (s : State) (kind : MemKind) (dst ea size : Nat) (uns : Bool) : State :=
  let o : MemOp :=
    { kind := kind, dst := dst, ea := ea, size := size, uns := uns, data := 0, seq := s.ctx.seqNo,
      handler := s.ctx.inH, lvl := s.ctx.priv }
  (s.modCtx fun c => { c with ldq := c.ldq ++ [o], seqNo := c.seqNo + 1 }).whenever .queuedLoadPerform

/-- Enter an access in the store queue. -/
def State.toStoreQueue (s : State) (kind : MemKind) (ea size data : Nat) : State :=
  let o : MemOp :=
    { kind := kind, dst := 0, ea := ea, size := size, uns := false, data := data, seq := s.ctx.seqNo,
      handler := s.ctx.inH, lvl := s.ctx.priv }
  (s.modCtx fun c => { c with stq := c.stq ++ [o], seqNo := c.seqNo + 1 }).whenever .queuedStorePerform

/-- A scalar destination becomes pending (R69); a destination s0 never does (R137). -/
def State.pendScalar (s : State) (d : BitVec 6) : State :=
  if d = 0 then s else s.modCtx fun c => { c with pendS := c.pendS ||| (1#64 <<< d.toNat) }

/-- A load slot (R137, R143, R145). -/
def loadSlot (i : Instr) (kind : MemKind) (o : MOp) (s : State) : Host.Outcome State Fault Refusal :=
  slotRun i s fun s =>
    (s.toLoadQueue kind o.d.toNat (effAddr (s.rs o.a) o.off) (2 ^ o.size.toNat) o.u).pendScalar o.d

/-- The field of a handle that a code names: its place and width (R147). -/
def handleField (f : BitVec 5) : Nat × Nat :=
  match f.toNat with
  | 0 => (240, 16)
  | 1 => (236, 4)
  | 2 => (232, 4)
  | 3 => (226, 6)
  | 4 => (224, 2)
  | 17 => (48, 32)
  | 18 => (32, 16)
  | 19 => (0, 32)
  | n => if n ≤ 8 then (160 + 16 * (n - 5), 16) else if n ≤ 12 then (144 + 4 * (n - 9), 4) else (80 + 16 * (n - 13), 16)

/-- `h` with a field replaced by the low bits of a value (R148). -/
def setField (h : Handle) (f : BitVec 5) (v : Word) : Handle :=
  let (lo, w) := handleField f
  .ofNat 256 (setBits h.toNat lo w v.toNat)

/-- A field of a handle, zero-extended (R148). -/
def getField (h : Handle) (f : BitVec 5) : Word :=
  let (lo, w) := handleField f
  .ofNat 64 (bitsAt h.toNat lo w)

/-- Count of one bits. -/
def popCount (x : Word) : Nat := ((List.range 64).filter fun i => x.getLsbD i).length

/-- Count of leading zero bits. -/
def leadingZeros (x : Word) : Nat := if x = 0 then 64 else 63 - Nat.log2 x.toNat

/-! ### The slots -/

/-- `ADD` (R126). -/
def execAdd (d a b : BitVec 6) (s : State) : Host.Outcome State Fault Refusal :=
  aluSlot (.add d a b) d (fun s => s.rs a + s.rs b) s

/-- `SUB` (R126). -/
def execSub (d a b : BitVec 6) (s : State) : Host.Outcome State Fault Refusal :=
  aluSlot (.sub d a b) d (fun s => s.rs a - s.rs b) s

/-- `AND` (R126). -/
def execAnd (d a b : BitVec 6) (s : State) : Host.Outcome State Fault Refusal :=
  aluSlot (.and d a b) d (fun s => s.rs a &&& s.rs b) s

/-- `OR` (R126). -/
def execOr (d a b : BitVec 6) (s : State) : Host.Outcome State Fault Refusal :=
  aluSlot (.or d a b) d (fun s => s.rs a ||| s.rs b) s

/-- `XOR` (R126). -/
def execXor (d a b : BitVec 6) (s : State) : Host.Outcome State Fault Refusal :=
  aluSlot (.xor d a b) d (fun s => s.rs a ^^^ s.rs b) s

/-- `ANDN` (R126). -/
def execAndn (d a b : BitVec 6) (s : State) : Host.Outcome State Fault Refusal :=
  aluSlot (.andn d a b) d (fun s => s.rs a &&& ~~~s.rs b) s

/-- `SHL` (R126). -/
def execShl (d a b : BitVec 6) (s : State) : Host.Outcome State Fault Refusal :=
  aluSlot (.shl d a b) d (fun s => s.rs a <<< ((s.rs b).toNat % 64)) s

/-- `SHR` (R126). -/
def execShr (d a b : BitVec 6) (s : State) : Host.Outcome State Fault Refusal :=
  aluSlot (.shr d a b) d (fun s => s.rs a >>> ((s.rs b).toNat % 64)) s

/-- `SAR` (R126). -/
def execSar (d a b : BitVec 6) (s : State) : Host.Outcome State Fault Refusal :=
  aluSlot (.sar d a b) d (fun s => (s.rs a).sshiftRight ((s.rs b).toNat % 64)) s

/-- `MIN` (R126). -/
def execMin (d a b : BitVec 6) (s : State) : Host.Outcome State Fault Refusal :=
  aluSlot (.min d a b) d (fun s => if (s.rs b).slt (s.rs a) then s.rs b else s.rs a) s

/-- `MAX` (R126). -/
def execMax (d a b : BitVec 6) (s : State) : Host.Outcome State Fault Refusal :=
  aluSlot (.max d a b) d (fun s => if (s.rs a).slt (s.rs b) then s.rs b else s.rs a) s

/-- `MINU` (R126). -/
def execMinu (d a b : BitVec 6) (s : State) : Host.Outcome State Fault Refusal :=
  aluSlot (.minu d a b) d (fun s => if (s.rs b).ult (s.rs a) then s.rs b else s.rs a) s

/-- `MAXU` (R126). -/
def execMaxu (d a b : BitVec 6) (s : State) : Host.Outcome State Fault Refusal :=
  aluSlot (.maxu d a b) d (fun s => if (s.rs a).ult (s.rs b) then s.rs b else s.rs a) s

/-- `CLZ` (R126). -/
def execClz (d a : BitVec 6) (s : State) : Host.Outcome State Fault Refusal :=
  aluSlot (.clz d a) d (fun s => .ofNat 64 (leadingZeros (s.rs a))) s

/-- `POPC` (R126). -/
def execPopc (d a : BitVec 6) (s : State) : Host.Outcome State Fault Refusal :=
  aluSlot (.popc d a) d (fun s => .ofNat 64 (popCount (s.rs a))) s

/-- `SEL` (R126). -/
def execSel (d a b : BitVec 6) (p : BitVec 4) (s : State) : Host.Outcome State Fault Refusal :=
  aluSlot (.sel d a b p) d (fun s => if s.ctx.rp p then s.rs a else s.rs b) s

/-- `ADDI` (R127). -/
def execAddi (d a : BitVec 6) (imm : BitVec 28) (s : State) : Host.Outcome State Fault Refusal :=
  aluSlot (.addi d a imm) d (fun s => s.rs a + imm.signExtend 64) s

/-- `ANDI` (R127). -/
def execAndi (d a : BitVec 6) (imm : BitVec 28) (s : State) : Host.Outcome State Fault Refusal :=
  aluSlot (.andi d a imm) d (fun s => s.rs a &&& imm.signExtend 64) s

/-- `ORI` (R127). -/
def execOri (d a : BitVec 6) (imm : BitVec 28) (s : State) : Host.Outcome State Fault Refusal :=
  aluSlot (.ori d a imm) d (fun s => s.rs a ||| imm.signExtend 64) s

/-- `XORI` (R127). -/
def execXori (d a : BitVec 6) (imm : BitVec 28) (s : State) : Host.Outcome State Fault Refusal :=
  aluSlot (.xori d a imm) d (fun s => s.rs a ^^^ imm.signExtend 64) s

/-- `SHLI` (R127). -/
def execShli (d a imm : BitVec 6) (s : State) : Host.Outcome State Fault Refusal :=
  aluSlot (.shli d a imm) d (fun s => s.rs a <<< imm.toNat) s

/-- `SHRI` (R127). -/
def execShri (d a imm : BitVec 6) (s : State) : Host.Outcome State Fault Refusal :=
  aluSlot (.shri d a imm) d (fun s => s.rs a >>> imm.toNat) s

/-- `SARI` (R127). -/
def execSari (d a imm : BitVec 6) (s : State) : Host.Outcome State Fault Refusal :=
  aluSlot (.sari d a imm) d (fun s => (s.rs a).sshiftRight imm.toNat) s

/-- `MOVI` (R127). -/
def execMovi (d : BitVec 6) (imm : BitVec 28) (s : State) : Host.Outcome State Fault Refusal :=
  aluSlot (.movi d imm) d (fun _ => imm.signExtend 64) s

/-- `MOVHI` (R127). -/
def execMovhi (d a : BitVec 6) (q : BitVec 2) (imm : BitVec 16) (s : State) : Host.Outcome State Fault Refusal :=
  aluSlot (.movhi d a q imm) d (fun s => .ofNat 64 (setBits (s.rs a).toNat (16 * q.toNat) 16 imm.toNat)) s

/-- `MUL` (R128). -/
def execMul (d a b : BitVec 6) (s : State) : Host.Outcome State Fault Refusal :=
  mulSlot (.mul d a b) d (fun s => s.rs a * s.rs b) s

/-- `MULH` (R128). -/
def execMulh (d a b : BitVec 6) (s : State) : Host.Outcome State Fault Refusal :=
  mulSlot (.mulh d a b) d (fun s => .ofInt 64 ((s.rs a).toInt * (s.rs b).toInt / 2 ^ 64)) s

/-- `MULHU` (R128). -/
def execMulhu (d a b : BitVec 6) (s : State) : Host.Outcome State Fault Refusal :=
  mulSlot (.mulhu d a b) d (fun s => .ofNat 64 ((s.rs a).toNat * (s.rs b).toNat / 2 ^ 64)) s

/-- `CMP.EQ` (R129). -/
def execCmpEq (pd : BitVec 4) (a b : BitVec 6) (pn : BitVec 4) (s : State) : Host.Outcome State Fault Refusal :=
  cmpSlot (.cmpEq pd a b pn) pd pn (fun s => s.rs a == s.rs b) s

/-- `CMP.NE` (R129). -/
def execCmpNe (pd : BitVec 4) (a b : BitVec 6) (pn : BitVec 4) (s : State) : Host.Outcome State Fault Refusal :=
  cmpSlot (.cmpNe pd a b pn) pd pn (fun s => s.rs a != s.rs b) s

/-- `CMP.LT` (R129). -/
def execCmpLt (pd : BitVec 4) (a b : BitVec 6) (pn : BitVec 4) (s : State) : Host.Outcome State Fault Refusal :=
  cmpSlot (.cmpLt pd a b pn) pd pn (fun s => (s.rs a).slt (s.rs b)) s

/-- `CMP.LTU` (R129). -/
def execCmpLtu (pd : BitVec 4) (a b : BitVec 6) (pn : BitVec 4) (s : State) : Host.Outcome State Fault Refusal :=
  cmpSlot (.cmpLtu pd a b pn) pd pn (fun s => (s.rs a).ult (s.rs b)) s

/-- `CMP.LE` (R129). -/
def execCmpLe (pd : BitVec 4) (a b : BitVec 6) (pn : BitVec 4) (s : State) : Host.Outcome State Fault Refusal :=
  cmpSlot (.cmpLe pd a b pn) pd pn (fun s => (s.rs a).sle (s.rs b)) s

/-- `CMP.LEU` (R129). -/
def execCmpLeu (pd : BitVec 4) (a b : BitVec 6) (pn : BitVec 4) (s : State) : Host.Outcome State Fault Refusal :=
  cmpSlot (.cmpLeu pd a b pn) pd pn (fun s => (s.rs a).ule (s.rs b)) s

/-- `CMPI.EQ` (R129). -/
def execCmpiEq (pd : BitVec 4) (a : BitVec 6) (pn : BitVec 4) (imm : BitVec 24) (s : State) : Host.Outcome State Fault Refusal :=
  cmpSlot (.cmpiEq pd a pn imm) pd pn (fun s => s.rs a == imm.signExtend 64) s

/-- `CMPI.LT` (R129). -/
def execCmpiLt (pd : BitVec 4) (a : BitVec 6) (pn : BitVec 4) (imm : BitVec 24) (s : State) : Host.Outcome State Fault Refusal :=
  cmpSlot (.cmpiLt pd a pn imm) pd pn (fun s => (s.rs a).slt (imm.signExtend 64)) s

/-- `PAND` (R130). -/
def execPand (o : POp) (s : State) : Host.Outcome State Fault Refusal :=
  predSlot (.pand o) o (fun a b => a && b) s

/-- `POR` (R130). -/
def execPor (o : POp) (s : State) : Host.Outcome State Fault Refusal :=
  predSlot (.por o) o (fun a b => a || b) s

/-- `PXOR` (R130). -/
def execPxor (o : POp) (s : State) : Host.Outcome State Fault Refusal :=
  predSlot (.pxor o) o (fun a b => a != b) s

/-- `PANDN` (R130). -/
def execPandn (o : POp) (s : State) : Host.Outcome State Fault Refusal :=
  predSlot (.pandn o) o (fun a b => a && !b) s

/-- `PMOVS` with DIR 0 (R130): p0 reads as 1. -/
def execPmovsToScalar (d : BitVec 6) (s : State) : Host.Outcome State Fault Refusal :=
  aluSlot (.pmovsToScalar d) d (fun s => (s.ctx.p ||| 1).setWidth 64) s

/-- `PMOVS` with DIR 1 (R130). -/
def execPmovsFromScalar (a : BitVec 6) (s : State) : Host.Outcome State Fault Refusal :=
  slotRun (.pmovsFromScalar a) s fun s => s.later 1 (.preds ((s.rs a).setWidth 16))

/-- `FADD` (R131). -/
def execFadd (o : FOp) (s : State) : Host.Outcome State Fault Refusal :=
  fpSlot (.fadd o) o.d (fun s =>
    fpAdd (precFmt o.prec) (s.rmode o.rnd.toNat) (s.fpReg o.prec o.a) (s.fpReg o.prec o.b)) s

/-- `FSUB` (R131). -/
def execFsub (o : FOp) (s : State) : Host.Outcome State Fault Refusal :=
  fpSlot (.fsub o) o.d (fun s =>
    fpSub (precFmt o.prec) (s.rmode o.rnd.toNat) (s.fpReg o.prec o.a) (s.fpReg o.prec o.b)) s

/-- `FMUL` (R131). -/
def execFmul (o : FOp) (s : State) : Host.Outcome State Fault Refusal :=
  fpSlot (.fmul o) o.d (fun s =>
    fpMul (precFmt o.prec) (s.rmode o.rnd.toNat) (s.fpReg o.prec o.a) (s.fpReg o.prec o.b)) s

/-- `FFMA` (R131). -/
def execFfma (o : FOp) (s : State) : Host.Outcome State Fault Refusal :=
  fpSlot (.ffma o) o.d (fun s =>
    fpFma (precFmt o.prec) (s.rmode o.rnd.toNat) false false (s.fpReg o.prec o.a) (s.fpReg o.prec o.b) (s.fpReg o.prec o.c)) s

/-- `FMIN` (R131). -/
def execFmin (o : FOp) (s : State) : Host.Outcome State Fault Refusal :=
  fpSlot (.fmin o) o.d (fun s =>
    fpMinMax (precFmt o.prec) false (s.fpReg o.prec o.a) (s.fpReg o.prec o.b)) s

/-- `FMAX` (R131). -/
def execFmax (o : FOp) (s : State) : Host.Outcome State Fault Refusal :=
  fpSlot (.fmax o) o.d (fun s =>
    fpMinMax (precFmt o.prec) true (s.fpReg o.prec o.a) (s.fpReg o.prec o.b)) s

/-- `FCMP` (R132). -/
def execFcmp (o : FOp) (s : State) : Host.Outcome State Fault Refusal :=
  slotRun (.fcmp o) s fun s =>
    let (t, iv) := fpCmp (precFmt o.prec) (fcondOf o.cond) (s.fpReg o.prec o.a) (s.fpReg o.prec o.b)
    s.wpLater 2 (o.d.setWidth 4) t { iv := iv }

/-- `FCVT` (R133): an INT32 result is sign-extended. -/
def execFcvt (o : FOp) (s : State) : Host.Outcome State Fault Refusal :=
  fpSlot (.fcvt o) o.d (fun s =>
    let x := if o.sf = 11 then (s.rs o.a).toNat else bitsAt (s.rs o.a).toNat 0 32
    let (y, f) := cvt o.sf.toNat o.tf.toNat (s.rmode o.rnd.toNat) o.sat x
    (if o.tf = 9 then ((BitVec.ofNat 32 y).signExtend 64).toNat else y, f)) s

/-- `LD` enters the load queue (R137). -/
def execLd (o : MOp) (s : State) : Host.Outcome State Fault Refusal :=
  loadSlot (.ld o) .ld o s

/-- `LDS` enters the load queue (R143). -/
def execLds (o : MOp) (s : State) : Host.Outcome State Fault Refusal :=
  loadSlot (.lds o) .lds o s

/-- `CHK` enters the load queue; its destination is pending until its lookup (R145). -/
def execChk (o : MOp) (s : State) : Host.Outcome State Fault Refusal :=
  loadSlot (.chk o) .chk o s

/-- `ST` enters the store queue with the low bytes of s[V] (R137). -/
def execSt (o : MOp) (s : State) : Host.Outcome State Fault Refusal :=
  slotRun (.st o) s fun s =>
    let n := 2 ^ o.size.toNat
    s.toStoreQueue .st (effAddr (s.rs o.a) o.off) n ((s.rs o.d).toNat % 2 ^ (8 * n))

/-- `SIGNAL` enters the store queue (R141). -/
def execSignal (v a : BitVec 6) (off : BitVec 24) (s : State) : Host.Outcome State Fault Refusal :=
  slotRun (.signal v a off) s fun s => s.toStoreQueue .signal (effAddr (s.rs a) off) 8 (s.rs v).toNat

/-- `MARK` places a marker in each queue (R142). -/
def execMark (s : State) : Host.Outcome State Fault Refusal :=
  slotRun .mark s fun s =>
    (s.toLoadQueue .mark 0 0 1 false).toStoreQueue .mark 0 1 0

/-- `HLD` enters the load queue as an access of 32 bytes (R148). -/
def execHld (h : BitVec 4) (a : BitVec 6) (off : BitVec 24) (s : State) : Host.Outcome State Fault Refusal :=
  slotRun (.hld h a off) s fun s =>
    (s.toLoadQueue .hld h.toNat (effAddr (s.rs a) off) 32 false).modCtx fun c =>
      { c with pendH := c.pendH ||| (1#16 <<< h.toNat) }

/-- `HST` enters the store queue as an access of 32 bytes (R148). -/
def execHst (h : BitVec 4) (a : BitVec 6) (off : BitVec 24) (s : State) : Host.Outcome State Fault Refusal :=
  slotRun (.hst h a off) s fun s => s.toStoreQueue .hst (effAddr (s.rs a) off) 32 (s.ctx.rh h).toNat

/-- `HSET` (R148). -/
def execHset (hd ha : BitVec 4) (b : BitVec 6) (field : BitVec 5) (s : State) : Host.Outcome State Fault Refusal :=
  slotRun (.hset hd ha b field) s fun s => s.later 1 (.hreg hd (setField (s.ctx.rh ha) field (s.rs b)))

/-- `HGET` (R148). -/
def execHget (d : BitVec 6) (ha : BitVec 4) (field : BitVec 5) (s : State) : Host.Outcome State Fault Refusal :=
  aluSlot (.hget d ha field) d (fun s => getField (s.ctx.rh ha) field) s

/-- `HMOV` (R148). -/
def execHmov (hd ha : BitVec 4) (s : State) : Host.Outcome State Fault Refusal :=
  slotRun (.hmov hd ha) s fun s => s.later 1 (.hreg hd (s.ctx.rh ha))

end Sys2Proof.Machine
end

