-- ==== Sys2Proof/Machine/Order.lean ====
section
/-!
DEFINITION. The scalar queues (R134 to R145), the message link with its commit buffer (R136, R266, R271, R272), and the
stores of software into the window map (R319, R340).
-/

namespace Sys2Proof.Machine

/-! ### Checks (R135) -/

/-- The checks of R135 that need no read: the cause of a failure. A cross-die access is checked against the target die's
table (R310). The table of a lost die is gone with it, so the loss is tested first: every access that names the die
fails with cause 0x0F (R403). DEDUCED (log 81). -/
def State.accessCause (s : State) (o : MemOp) (store : Bool) : Option Nat :=
  let e := s.mem.entryOf o.ea
  let open_ := granAllows e s.ctx.domid.toNat o.lvl (if store then .store else .load) && (!store || s.txOk o.ea)
  if 2 ^ 30 ≤ o.ea then some 0x0D
  else if s.disp.lostmap.getLsbD (adDie o.ea).val then some 0x0F
  else if !open_ then some 0x0D
  else none

/-- Decode the words of an access: its worst state (R384). -/
def State.readStates (s : State) : List Nat → State × Option Nat
  | [] => (s, none)
  | w :: l =>
    let (s, st, _) := s.decodeWord w false
    let (s, c) := s.readStates l
    (s, match st.cause, c with
      | some 0x0B, _ => some 0x0B
      | _, some 0x0B => some 0x0B
      | some x, _ => some x
      | none, y => y)

/-- The bytes of an access as a number. -/
def Mem.opData (m : Mem) (o : MemOp) : Nat := m.num (accAddr o) o.size

/-! ### Loads (R137, R138, R143, R145) -/

/-- The destination of an access is no longer pending. -/
def State.unpend (s : State) (o : MemOp) : State :=
  s.modCtx fun c =>
    if o.kind = .hld then { c with pendH := c.pendH &&& ~~~(1#16 <<< o.dst) }
    else { c with pendS := c.pendS &&& ~~~(1#64 <<< o.dst) }

/-- A trap with a cause falls due on the next bundle to issue (R138, R422). -/
def State.dueTrap (s : State) (cause aux : Nat) (handler : Bool) : State :=
  s.modCtx fun c => { c with due := c.due ++ [{ cause := cause, aux := aux, handler := handler }] }

/-- A result in flight without its write of a scalar register; its flags stay. -/
def Pend.without (d : Nat) (p : Pend) : Pend :=
  match p.instr with
  | .timelineResultLanding (.sreg r _ f) =>
    if r.toNat = d then { p with instr := .timelineResultLanding (.sreg 0 0 f) } else p
  | _ => p

/-- A load was issued after every result still in flight for its destination (R69): those that land in the present
timeline cycle leave the load's value in place (R68). -/
def State.overtake (s : State) (o : MemOp) : State :=
  if o.kind = .hld ∨ !s.die.adv then s
  else s.modCtx fun c => { c with pend := c.pend.map fun p => if p.at_ ≤ c.tl then p.without o.dst else p }

/-- Write the destination of a load; a write of s[D] by any instruction but `CHK` removes its hoist entry (R144). -/
def State.loadDst (s : State) (o : MemOp) (v : Nat) : State :=
  let x : Word := .ofNat 64 (if o.uns || o.size == 8 then v else (sextNat v (8 * o.size) % 2 ^ 64).toNat)
  (s.overtake o).modCtx fun c =>
    match o.kind with
    | .hld => c.wh (.ofNat 4 o.dst) (.ofNat 256 v)
    | .chk => c.ws (.ofNat 6 o.dst) x
    | _ => (c.unhoist (.ofNat 6 o.dst)).ws (.ofNat 6 o.dst) x

/-- Make a hoist-table entry (R143). -/
def State.hoistAdd (s : State) (o : MemOp) : State :=
  if o.dst = 0 then s
  else s.modCtx fun c =>
    let l := c.hoist.filter fun e => e.d != o.dst
    let l := if 16 ≤ l.length then l.drop 1 else l
    { c with hoist := l ++ [⟨o.dst, o.ea, Nat.log2 o.size⟩] }

/-- A load has failed a check: R138; `LDS` writes zero instead (R143). -/
def State.loadFail (s : State) (o : MemOp) (cause : Nat) : State :=
  let s := s.unpend o
  let isH := o.kind == .hld
  if o.kind = .lds then s.loadDst o 0
  else if !isH && o.dst == 0 then s.dueTrap cause o.ea o.handler
  else s.modCtx fun c =>
    { c with failed := (c.failed.filter fun f => !(f.isH == isH && f.reg == o.dst)) ++ [⟨isH, o.dst, cause, o.ea⟩] }

/-- A load has its value; a local `LDS` makes a hoist-table entry. -/
def State.loadValue (s : State) (o : MemOp) (v : Nat) (isLocal : Bool) : State :=
  let s := (s.unpend o).loadDst o v
  if o.kind = .lds ∧ isLocal then s.hoistAdd o else s

/-! ### The message link (R136, R266) -/

/-- The step of a verb's physical arrival. -/
def verbArrivalStep : VerbKind → Instr
  | .get => .getVerbArrival
  | .store => .remoteStoreVerbArrival
  | .signal => .signalVerbArrival
  | .atomic => .atomicVerbArrival

/-- Enter a verb in the commit buffer with its stamp, and send it. -/
def State.sendVerb (s : State) (kind : VerbKind) (o : MemOp) (dom sop sfmt : Nat) (vals : List Word32) : State :=
  let id := s.die.ord.cbNext
  let v : Verb :=
    { kind := kind, src := s.cur, seq := id, stamp := s.gtc, domid := dom, op := o, sop := sop,
      sfmt := sfmt, vals := vals }
  let s := s.touchDie (s.gdie (adDie o.ea))
  let (w, s) := (s.cbPush { id := id, verb := some v, stamp := s.gtc }).takeWait
  s.at (s.now + w) (adDie o.ea) (verbArrivalStep kind) (.verb v)

/-- A verb of this package is still awaited: its entry stands in its issuer's commit buffer. -/
def State.verbLive (s : State) (v : Verb) : Bool :=
  (s.dieAt v.src).ord.cb.any fun e => e.verb == some v

/-- Count a late access (R271). -/
def State.countLate (s : State) (a : Nat) : State :=
  if a < s.gtc then s.modOrd fun o => { o with late := min (o.late + 1) (2 ^ 32 - 1) } else s

/-- A verb reaches its target: it waits there for its boundary (R266, R271). -/
def State.verbArrive (s : State) (v : Verb) : State :=
  if s.verbLive v then
    let a := v.stamp + (s.dieAt v.src).ord.mldly
    (s.countLate a).modOrd fun o => { o with arrived := o.arrived ++
      [{ a := a, phys := s.gtc, issuer := s.gdie v.src, seq := v.seq, verb := some v }] }
  else s

/-- What the four arrival steps share. -/
def verbArrival (s : State) : Host.Outcome State Fault Refusal :=
  match s.msg with
  | .verb v => .next (s.verbArrive v)
  | _ => .next s

/-- `GET_VERB_ARRIVAL` (R136, R266). -/
def execGetVerbArrival (s : State) : Host.Outcome State Fault Refusal := verbArrival s

/-- `REMOTE_STORE_VERB_ARRIVAL` (R136, R266). -/
def execRemoteStoreVerbArrival (s : State) : Host.Outcome State Fault Refusal := verbArrival s

/-- `SIGNAL_VERB_ARRIVAL` (R141, R266). -/
def execSignalVerbArrival (s : State) : Host.Outcome State Fault Refusal := verbArrival s

/-- `ATOMIC_VERB_ARRIVAL` (R219, R266). -/
def execAtomicVerbArrival (s : State) : Host.Outcome State Fault Refusal := verbArrival s

/-- `GET_RESPONSE` (R136): the value or the failure of a get comes back. -/
def execGetResponse (s : State) : Host.Outcome State Fault Refusal :=
  match s.msg with
  | .response seq data err =>
    match s.ctx.gets.find? fun o => o.data == seq with
    | some o =>
      let s := s.modCtx fun c => { c with gets := c.gets.filter fun o => o.data != seq }
      match err with
      | some e => .next (s.loadFail o e.1)
      | none => .next (s.loadValue o data false)
    | none => .next s
  | _ => .next s

/-! ### The load queue (R138, R140, R142) -/

/-- A store ahead of a number is not yet performed. -/
def State.storesBefore (s : State) (n : Nat) : Bool :=
  (s.ctx.stq.any fun o => o.kind != .mark && decide (o.seq < n)) ||
    s.die.ord.verbs.any fun v => (v.kind == .store || v.kind == .signal) && decide (v.op.seq < n)

/-- A load ahead of a number is not yet performed. -/
def State.loadsBefore (s : State) (n : Nat) : Bool :=
  (s.ctx.ldq.any fun o => o.kind != .mark && decide (o.seq < n)) || s.ctx.gets.any fun o => decide (o.seq < n)

/-- An earlier store to bytes of a load is still queued. -/
def Ctx.storeAhead (c : Ctx) (o : MemOp) : Bool :=
  c.stq.any fun t => t.kind != .mark && decide (t.seq < o.seq) && decide (accAddr t < accAddr o + o.size) &&
    decide (accAddr o < accAddr t + t.size)

/-- Perform the local load at the head of the queue, once the side port is free for it. -/
def State.localLoad (s : State) (o : MemOp) (rest : List MemOp) : State :=
  if granMode (s.mem.entryOf o.ea) = 2 ∧ s.ctx.storeAhead o then s.after 1 .queuedLoadPerform
  else match s.sideDelay o.ready (opWords o) (opWords o) with
    | some (n, slow) =>
      (if slow then s.modCtx fun c => { c with ldq := { o with ready := s.now + n } :: rest } else s).after n
        .queuedLoadPerform
    | none =>
      let (s, c) := (s.takeSide (opWords o)).readStates (opWords o)
      let s := s.modCtx fun c => { c with ldq := rest }
      match c with
      | some c => s.loadFail o c
      | none => s.loadValue o (s.mem.opData o) true

/-- Serve the head of the load queue: it performs, leaves as a get, or waits and comes again in the next cycle. -/
def State.loadHead (s : State) : State :=
  match s.ctx.ldq with
  | [] => s
  | o :: rest =>
    let retry := s.after 1 .queuedLoadPerform
    let pop := fun (s : State) => s.modCtx fun c => { c with ldq := rest }
    let tag := fun (e : Hoist) => e.d == o.dst && e.ea == o.ea && 2 ^ e.size == o.size
    if o.kind = .mark then (if s.storesBefore o.seq then retry else pop s)
    else if o.kind = .chk ∧ s.ctx.gets ≠ [] then retry
    else if o.kind = .chk ∧ s.ctx.hoist.any tag then
      ((pop s).unpend o).modCtx fun c => { c with hoist := c.hoist.filter fun e => !tag e }
    else
      match s.accessCause o false with
      | some c => (pop s).loadFail o c
      | none =>
        if adDie o.ea = s.cur then s.localLoad o rest
        else if s.cbFreeFor = 0 then retry
        else
          -- a get in flight is known by its commit-buffer entry
          let g := { o with data := s.die.ord.cbNext }
          ((pop s).modCtx fun c => { c with gets := c.gets ++ [g] }).sendVerb .get g s.ctx.domid.toNat 0 0 []

/-- `QUEUED_LOAD_PERFORM` (R135 to R145). -/
def execQueuedLoadPerform (s : State) : Host.Outcome State Fault Refusal := .next s.loadHead

/-! ### Software stores into the window map (R319, R340) -/

/-- The fields of a window-map entry after a software store: those that the device writes stay, and STATE follows R340.
The answers: the entry, whether the peer breaks, and whether a new path epoch starts. -/
def mapStore (old new : Nat) (state : Bool) : Nat × Bool × Bool :=
  let e := setBits (setBits new 21 4 (bitsAt old 21 4)) 72 96 (bitsAt old 72 96)
  if !state then (e, false, false)
  else
    let was := wmState old
    match wmState new with
    | 0 => (e, false, false)
    | 1 => if was = 0 ∨ was = 3 then (setBits e 21 4 0, false, true) else (setBits e 18 2 was, false, false)
    | 2 => (setBits e 18 2 was, false, false)
    | _ => (setBits e 18 2 was, was != 3, false)

/-- The peers whose window-map entries the bytes `[a, a + n)` touch. -/
def State.peersAt (s : State) (a n : Nat) : List Nat :=
  (List.range 256).filter fun p => (List.range 32).any fun k =>
    let x := tabAddr s.die.win.wmbase.toNat (32 * p + k)
    decide (a ≤ x) && decide (x < a + n)

/-- A local store of software: a store into the window map follows R340. -/
def State.softStore (s : State) (a : Nat) (bs : List Byte) : State :=
  if granMode (s.mem.entryOf a) ≠ 6 then s.putBytes a bs
  else
    let olds := (s.peersAt a bs.length).map fun p => (p, s.peerEntry p)
    let s := s.putBytes a bs
    olds.foldl (fun s x =>
      match x.2, s.peerEntry x.1 with
      | some old, some new =>
        let st := tabAddr s.die.win.wmbase.toNat (32 * x.1 + 2)
        let (e, brk, epoch) := mapStore old new (decide (a ≤ st) && decide (st < a + bs.length))
        let s := s.tabWrite s.die.win.wmbase.toNat (32 * x.1) (natBytes e 32)
        let s := if brk then s.breakPeer x.1 3 else s
        if epoch then s.startEpoch x.1 e else s
      | _, _ => s) s

/-! ### The store queue -/

/-- The bytes that a store writes. -/
def opBytes (o : MemOp) : List Byte := natBytes o.data o.size

/-- A store or a `SIGNAL` performs on the current die (R139): the bytes it names; a TXW granule reflects it. -/
def State.storeAt (s : State) (o : MemOp) : State :=
  let s := s.softStore (accAddr o) (opBytes o)
  if granMode (s.mem.entryOf o.ea) = 2 then s.reflect (accAddr o) (opBytes o) (o.kind == .signal) else s

/-- A store of the die into a TABLE granule is remembered until a `TLB.SYNC` (R256, R261). -/
def State.markStored (s : State) (o : MemOp) : State :=
  if granMode (s.mem.entryOf o.ea) ≠ 6 then s
  else (opWords o).foldl (fun s w => s.modDie fun d => { d with stored := SMap.put false d.stored w true }) s

/-- A message-link store or `SIGNAL` of the die has not committed. -/
def State.linkBusy (s : State) : Bool := s.die.ord.verbs.any fun v => v.kind == .store || v.kind == .signal

/-- The words that a store reads before it writes: those of which it writes a part (R386). -/
def opReads (o : MemOp) : List Nat := if o.size < 16 then opWords o else []

/-- Perform the local store at the head of the queue, once the side port is free for it. -/
def State.localStore (s : State) (o : MemOp) (rest : List MemOp) : State :=
  match s.sideDelay o.ready (opWords o) (opReads o) with
  | some (n, slow) =>
    (if slow then s.modCtx fun c => { c with stq := { o with ready := s.now + n } :: rest } else s).after n
      .queuedStorePerform
  | none => (((s.takeSide (opWords o)).modCtx fun c => { c with stq := rest }).markStored o).storeAt o

/-- Serve the head of the store queue. No open combining entry takes a store past a `SIGNAL`, wherever it goes (R269). -/
def State.storeHead (s : State) : State :=
  match s.ctx.stq with
  | [] => s
  | o :: rest =>
    let retry := s.after 1 .queuedStorePerform
    let pop := fun (s : State) => s.modCtx fun c => { c with stq := rest }
    if o.kind = .mark then (if s.loadsBefore o.seq then retry else (pop s).barCombine)
    else if o.kind = .signal ∧ s.linkBusy then retry
    else
      match s.accessCause o true with
      | some c => (pop s).dueTrap c o.ea o.handler
      | none =>
        let s := if o.kind = .signal then s.barCombine else s
        if adDie o.ea = s.cur then
          if granMode (s.mem.entryOf o.ea) = 2 ∧ s.cbFreeFor = 0 then retry
          else s.localStore o rest
        else if s.cbFreeFor = 0 then retry
        else (pop s).sendVerb (if o.kind = .signal then .signal else .store) o s.ctx.domid.toNat 0 0 []

/-- `QUEUED_STORE_PERFORM` (R135 to R142). -/
def execQueuedStorePerform (s : State) : Host.Outcome State Fault Refusal := .next s.storeHead

/-- `COMBINING_ENTRY_CLOSE` (R269): 16 die-clock cycles have passed since the entry opened. -/
def execCombiningEntryClose (id : Nat) (s : State) : Host.Outcome State Fault Refusal := .next (s.closeCombine id)

/-- `DIE_COMMIT_ACK` (R246): a copy for a die of the package has committed, or failed, at its target. -/
def execDieCommitAck (s : State) : Host.Outcome State Fault Refusal :=
  match s.msg with
  | .ack cb peer ok =>
    let live := s.die.ord.cb.any fun e => e.id == cb && e.copies.any fun c => c.peer == peer
    .next (if ok then s.copyDone cb peer else if live then s.breakPeer peer 3 else s)
  | _ => .next s

/-! ### Updates of the sump (R218) -/

/-- The new pattern of a target: opcode 0 ADD, 1 MAX, 2 MIN, 3 CNT; format 0 or 9. -/
def sumpNew (op fmt : Nat) (x : Word32) (vs : List Word32) : Word32 :=
  if op = 3 then x + .ofNat 32 vs.length
  else if fmt = 9 then
    match op with
    | 0 => vs.foldl (· + ·) x
    | 1 => vs.foldl (fun m v => if m.toInt < v.toInt then v else m) x
    | _ => vs.foldl (fun m v => if v.toInt < m.toInt then v else m) x
  else
    let l := (x :: vs).map BitVec.toNat
    match firstNan fp32 l with
    | some y => .ofNat 32 y.1
    | none =>
      match op with
      | 0 => .ofNat 32 (finish fp32 .rne (sumFV .rne (l.map (unpack fp32)))).1
      | 1 => .ofNat 32 (vs.foldl (fun m v => (fpMinMax fp32 true m v.toNat).1) x.toNat)
      | _ => .ofNat 32 (vs.foldl (fun m v => (fpMinMax fp32 false m v.toNat).1) x.toNat)

/-- Set bits of SUMPST of a die of the package. -/
def State.sumpFlag (s : State) (d : DieIx) (bits : BitVec 3) : State :=
  s.onDie d fun s => s.modCtx fun c => { c with sumpst := c.sumpst ||| bits }

/-- Update one cistern word as an engine of `src` in a domain (R218, R311, R250). -/
def State.sumpWord (s : State) (src : DieIx) (dom op fmt a : Nat) (vs : List Word32) : State :=
  if !s.engMayWrite dom a then s.sumpFlag src 4
  else if s.engDrops a then s
  else
    let x := s.engAddr a / 4 * 4
    let (s, st, _) := s.decodeWord (x / 16) false
    if st = .good then s.putBytes x (natBytes (sumpNew op fmt (.ofNat 32 (s.mem.num x 4)) vs).toNat 4)
    else (s.poison (x / 16)).sumpFlag src 2

end Sys2Proof.Machine
end

