-- ==== Sys2Proof/Machine/Sump.lean ====
section
/-!
DEFINITION. Sump groups (R215 to R219) and routing counters (R220, R221).
-/

namespace Sys2Proof.Machine

/-! ### Groups (R218) -/

/-- Elements of the merge window (R217). -/
def Ctx.window (c : Ctx) : Nat := match c.win.toNat with
  | 0 => 16
  | 1 => 32
  | _ => 64

/-- Put a closed group in its place: by closing cycle, then by bay (R218). -/
def insertGroup (g : SumpGroup) : List SumpGroup → List SumpGroup
  | [] => [g]
  | x :: l =>
    if g.closed < x.closed ∨ (g.closed = x.closed ∧ g.bay < x.bay) then g :: x :: l else x :: insertGroup g l

/-- A group closes: the die applies it after a time that the spec leaves open. -/
def State.closeGroup (s : State) (g : SumpGroup) : State :=
  let g := { g with closed := s.now }
  (s.modDie fun d => { d with groups := insertGroup g d.groups }).whenever .sumpGroupApply (.group g)

/-- Close the open groups of the bays that a test names (R218). -/
def State.closeGroups (s : State) (p : BayIx → Bool) : State :=
  let l := s.ctx.sump.filter fun g => p g.bay
  l.foldl (fun s g => s.closeGroup g) (s.modCtx fun c => { c with sump := c.sump.filter fun g => !p g.bay })

/-- An update slot in one bay joins the open group of its bay, or closes it and opens one; a full group closes. -/
def State.joinGroup (s : State) (b : BayIx) (op fmt : Nat) (vals : List (Nat × Word32)) : State :=
  let fits := fun (g : SumpGroup) => g.bay == b && g.sop == op && g.fmt == fmt
  let (s, g) : State × SumpGroup := match s.ctx.sump.find? fits with
    | some g => (s, { g with vals := g.vals ++ vals, slots := g.slots + 1 })
    | none => (s.closeGroups fun y => y == b,
        { bay := b, sop := op, fmt := fmt, vals := vals, slots := 1, dom := s.ctx.domid.toNat })
  let s := s.modCtx fun c => { c with sump := c.sump.filter fun x => x.bay != b }
  if s.ctx.window ≤ 16 * g.slots then s.closeGroup g else s.modCtx fun c => { c with sump := c.sump ++ [g] }

/-! ### Targets (R215) -/

/-- What an index element names. -/
inductive SumpTarget where
  | word (addr : Nat)
  | counter (n : Nat)
  | nothing
  | bad
  deriving DecidableEq, Repr

/-- The target of an index element. -/
def sumpTarget (x : Word32) : SumpTarget :=
  match bitsAt x.toNat 30 2 with
  | 0 => .word (bitsAt x.toNat 2 28 * 4)
  | 2 => .counter (bitsAt x.toNat 0 8)
  | _ => if x = 0xFFFFFFFF#32 then .nothing else .bad

/-- Index and value pairs of an update slot in a bay; `SUMP.CNT` has no values. -/
def State.sumpPairs (s : State) (b : BayIx) (qi : BitVec 5) (qv : Option (BitVec 5)) : List (Word32 × Word32) :=
  let is := words32 (s.head b qi.toNat)
  match qv with
  | some q => is.zip (words32 (s.head b q.toNat))
  | none => is.map (·, 0)

/-- The pairs that name a kind of target. -/
def pairsOf (f : SumpTarget → Option Nat) (l : List (Word32 × Word32)) : List (Nat × Word32) :=
  l.filterMap fun x => (f (sumpTarget x.1)).map (·, x.2)

/-- An update slot (R216): its cistern updates join a group, and its counter updates land four cycles later. -/
def sumpSlot (i : Instr) (op fmt : Nat) (bays : Bays) (qi : BitVec 5) (qv : Option (BitVec 5)) (s : State) :
    Host.Outcome State Fault Refusal :=
  slotRun i s fun s0 =>
    let s := (baysOf bays).foldl (fun s b =>
      let l := s0.sumpPairs b qi qv
      let words := pairsOf (fun t => match t with
        | .word a => some a
        | _ => none) l
      let ctrs := pairsOf (fun t => match t with
        | .counter n => some n
        | _ => none) l
      let s := s.joinGroup b op fmt words
      let s := if l.any fun x => sumpTarget x.1 == .bad then s.sumpFlag s.cur 1 else s
      if ctrs = [] then s
      else s.pendAt (s0.ctx.tl + 4) (20 + b.val) (.routingCounterUpdate { sop := op, fmt := fmt, vals := ctrs })) s0
    s.eatAll (slotNames i)

/-- `SUMP.ADD` (R216). -/
def execSumpAdd (bays : Bays) (qi qv : BitVec 5) (fmt : BitVec 4) (s : State) : Host.Outcome State Fault Refusal :=
  sumpSlot (.sumpAdd bays qi qv fmt) 0 fmt.toNat bays qi (some qv) s

/-- `SUMP.MAX` (R216). -/
def execSumpMax (bays : Bays) (qi qv : BitVec 5) (fmt : BitVec 4) (s : State) : Host.Outcome State Fault Refusal :=
  sumpSlot (.sumpMax bays qi qv fmt) 1 fmt.toNat bays qi (some qv) s

/-- `SUMP.MIN` (R216). -/
def execSumpMin (bays : Bays) (qi qv : BitVec 5) (fmt : BitVec 4) (s : State) : Host.Outcome State Fault Refusal :=
  sumpSlot (.sumpMin bays qi qv fmt) 2 fmt.toNat bays qi (some qv) s

/-- `SUMP.CNT` (R216). -/
def execSumpCnt (bays : Bays) (qi : BitVec 5) (s : State) : Host.Outcome State Fault Refusal :=
  sumpSlot (.sumpCnt bays qi) 3 0 bays qi none s

/-! ### Applying a group (R218, R219) -/

/-- The updates of a group by target word, each with its values in order. -/
def groupTargets (l : List (Nat × Word32)) : List (Nat × List Word32) :=
  ((l.map Prod.fst).dedup).map fun a => (a, (l.filter fun x => x.1 == a).map Prod.snd)

/-- The access by which a remote target travels. -/
def atomicOp (a : Nat) : MemOp :=
  { kind := .st, dst := 0, ea := a, size := 4, uns := false, data := 0, seq := 0, handler := false }

/-- Apply the targets of a group in order: local words through the side port (R219), remote words as atomic verbs. Where
the side port is not free for a word, that target and those after it are left, with the cycles to wait and whether a delay
of eight cycles begins. -/
def State.applyTargets (s : State) (g : SumpGroup) :
    List (Nat × List Word32) → State × List (Nat × List Word32) × Option (Nat × Bool)
  | [] => (s, [], none)
  | t :: l =>
    if adDie t.1 = s.cur then
      let w := s.engAddr t.1 / 16
      match s.sideDelay g.ready [w] [w] with
      | some x => (s, t :: l, some x)
      | none => ((s.takeSide [w]).sumpWord s.cur g.dom g.sop g.fmt t.1 t.2).applyTargets { g with ready := 0 } l
    else (s.sendVerb .atomic (atomicOp t.1) g.dom g.sop g.fmt t.2).applyTargets g l

/-- Apply the group at the head of the queue as far as the side ports allow; the rest of it comes again. -/
def State.applyGroup (s : State) (g : SumpGroup) : State :=
  match s.applyTargets g (groupTargets g.vals) with
  | (s, _, none) => s.modDie fun d => { d with groups := d.groups.drop 1 }
  | (s, l, some (n, slow)) =>
    let g := { g with vals := l.flatMap fun t => t.2.map fun v => (t.1, v), ready := if slow then s.now + n else g.ready }
    (s.modDie fun d => { d with groups := g :: d.groups.drop 1 }).after n .sumpGroupApply (.group g)

/-- `SUMP_GROUP_APPLY` (R218): groups are applied in order, and one that needs commit-buffer entries waits for them
(R272). -/
def execSumpGroupApply (s : State) : Host.Outcome State Fault Refusal :=
  match s.msg with
  | .group g =>
    if !s.die.groups.contains g then .next s
    else
      let far := ((groupTargets g.vals).filter fun t => adDie t.1 != s.cur).length
      if s.die.groups.head? = some g ∧ far ≤ s.cbFreeFor then
        .next (s.dropping g.drop fun s => s.applyGroup g)
      else .next (s.after 1 .sumpGroupApply (.group g))
  | _ => .next s

/-! ### Routing counters (R219 to R221) -/

/-- The value of a counter after an update: FP32 formats are treated as INT32 patterns (R218). -/
def ctrNew (op : Nat) (x v : Word32) : Word32 := sumpNew op 9 x [v]

/-- `ROUTING_COUNTER_UPDATE` (R219). -/
def execRoutingCounterUpdate (u : CtrUpdate) (s : State) : Host.Outcome State Fault Refusal :=
  .next (s.modCtx fun c => { c with
    ctr := u.vals.foldl (fun m x => SMap.put 0 m x.1 (ctrNew u.sop (SMap.get 0 m x.1) x.2)) c.ctr })

/-- The counters as they stand. -/
def Ctx.counters (c : Ctx) : List Word32 := (List.range 256).map (SMap.get 0 c.ctr)

/-- `SUMP.SNAP` (R221): groups close, and the counters are copied and cleared in the issue cycle. -/
def execSumpSnap (a c v : BitVec 6) (s : State) : Host.Outcome State Fault Refusal :=
  slotRun (.sumpSnap a c v) s fun s0 =>
    let s := s0.closeGroups fun _ => true
    let m := Msg.snap s0.ctx.counters (s0.rs a).toNat (s0.rs c).toNat (s0.rs v) s0.ctx.domid.toNat s0.now []
    let s := (s.modCtx fun c => { c with ctr := [] }).modDie fun d => { d with snaps := d.snaps + 1 }
    s.whenever .sumpSnapWrite m

/-- The bytes of word `k` of a snapshot. -/
def snapWord (ctrs : List Word32) (k : Nat) : List Byte :=
  (List.range 4).flatMap fun j => natBytes (ctrs.getD (4 * k + j) 0).toNat 4

/-- `SUMP_SNAP_WRITE` (R221): the copy, one word in a cycle through the side port, and its completion word, after the updates
of earlier groups. -/
def execSumpSnapWrite (s : State) : Host.Outcome State Fault Refusal :=
  match s.msg with
  | .snap ctrs addr caddr cval dom cycle drop =>
    if s.die.groups.any (fun g => decide (g.closed < cycle)) ∨ s.die.ord.verbs.any (fun v => v.kind == .atomic) then
      .next (s.after 1 .sumpSnapWrite s.msg)
    else
      -- the counters that are still to be written: word `k` of the copy comes next
      let k := 64 - ctrs.length / 4
      let a := seqWord addr k
      let open_ := addr < 2 ^ 30 ∧ adDie addr = s.cur ∧ ((List.range 64).map (seqWord addr)).all fun a => s.engMayWrite dom a
      let finish := fun (s : State) (st : Nat) =>
        ((s.modDie fun d => { d with snaps := d.snaps - 1 }).takeSide [caddr / 16]).complete dom caddr cval st
      .next (s.dropping drop fun s =>
        if k = 0 ∧ ¬open_ then finish s 3
        else if ctrs = [] then (if s.sideTaken [caddr / 16] then s.after 1 .sumpSnapWrite s.msg else finish s 1)
        else if s.sideTaken [s.engAddr a / 16] then s.after 1 .sumpSnapWrite s.msg
        else
          ((s.takeSide [s.engAddr a / 16]).engWrite a (snapWord ctrs 0)).after 1 .sumpSnapWrite
            (.snap (ctrs.drop 4) addr caddr cval dom cycle drop))
  | _ => .next s

/-- `SUMP.CLR` (R221). -/
def execSumpClr (s : State) : Host.Outcome State Fault Refusal :=
  slotRun .sumpClr s fun s => (s.closeGroups fun _ => true).modCtx fun c => { c with ctr := [] }

/-- `SUMP.RD` (R221): 16 counters are presented at sump out in every bay where the stream is bound to it. -/
def execSumpRd (q : BitVec 5) (row : BitVec 4) (s : State) : Host.Outcome State Fault Refusal :=
  slotRun (.sumpRd q row) s fun s0 =>
    let vs := (List.range 16).map fun k => SMap.get 0 s0.ctx.ctr (16 * row.toNat + k)
    (baysOf 0xFF).foldl (fun s b =>
      let t := (s0.bayAt b).str q.toNat
      if t.bound && t.port == 11 then
        let (s, r) := s.reserve b q.toNat
        s.later 6 (.present b 832 (lanes32 vs) (List.replicate 32 true) (some r) noFlags)
      else s) s0

end Sys2Proof.Machine
end

