-- ==== Sys2Proof/Machine/Migrate.lean ====
section
/-!
DEFINITION. Migration of tiles between frames (R314, R316), one 64-byte unit at a time through the service path (R313),
and the answer to a command of the host (R414).
-/

namespace Sys2Proof.Machine

/-! ### Answers to commands (R414) -/

/-- Bytes of the host's memory at an address; none where an address is unreadable. -/
def State.hostBytes (s : State) (a n : Nat) : Option (List Byte) :=
  if s.host.unreadable.any fun r => decide (r.1 < a + n) && decide (a < r.1 + r.2) then none else some (rdBytes s.mem.host a n)

/-- Write bytes of the host's memory; none where an address is unreadable. -/
def State.hostPut (s : State) (a : Nat) (bs : List Byte) : Option State :=
  if s.host.unreadable.any fun r => decide (r.1 < a + bs.length) && decide (a < r.1 + r.2) then none
  else some (s.modMem fun m => { m with host := wrBytes m.host a bs })

/-- Address of the entry of the command ring at CRHEAD. -/
def HostIf.entryAddr (h : HostIf) : Nat := h.crbase + 64 * (h.crhead % 2 ^ (h.crlog + 4))

/-- A command completes with a STATUS and a VALUE: the response of its ring entry, then CRHEAD, then vector 0. -/
def State.reply (s : State) (st : Nat) (v : Word) : State :=
  let s := s.modHost fun h => { h with resp := some (st, v) }
  if !s.host.serving then s
  else
    let s := (s.hostPut (s.host.entryAddr + 48) (natBytes st 8 ++ natBytes v.toNat 8)).getD s
    (s.modHost fun h => { h with crhead := (h.crhead + 1) % 2 ^ 16, serving := false }).msix 0

/-! ### Migration (R314) -/

def Migr.geom (m : Migr) : Geom := ⟨m.id, m.size, m.swz⟩

/-- 64-byte units of the tile. -/
def Migr.units (m : Migr) : Nat := m.geom.bytes / 64

/-- The next units to read, up to 16. -/
def Migr.ahead (m : Migr) : List Nat :=
  if m.pos < m.units then ((List.range 16).map (m.pos + ·)).filter (· < m.units) else m.left.take 16

/-- The first of some units that one sequence of at most `n` RDs or WRs reaches in a tier: those in the row of the first. -/
def Migr.reach (m : Migr) (tier n : Nat) : List Nat → List Nat
  | [] => []
  | u :: us =>
    let at_ := fun (v : Nat) => ((m.geom.place (64 * v)).1, (m.geom.place (64 * v)).2.1)
    if tier = 1 then u :: us else ((u :: us).takeWhile fun v => at_ v == at_ u).take n

/-- The migration as units are read: the bits of dirty units are cleared. -/
def Migr.taken (m : Migr) (us : List Nat) : Migr :=
  if m.pos < m.units then { m with pos := m.pos + us.length }
  else { m with left := m.left.drop us.length, dirty := m.dirty.filter fun u => !us.contains u }

/-- Change the migration of a leaf of the die. -/
def State.modMigr (s : State) (leaf : Nat) (f : Migr → Migr) : State :=
  s.modDie fun d => { d with migs := d.migs.map fun m => if m.leaf = leaf then f m else m }

/-- Write fields of leaf `i` at one stroke, from bit `lo` on: a list of place, width and value. The engine's own write takes
the leaf out of the cache (DESIGN CHOICE, log 94). -/
def State.setLeaf (s : State) (i : Nat) (fs : List (Nat × Nat × Nat)) : State :=
  let a := s.leafAddr i
  let w := fs.foldl (fun w f => setBits w f.1 f.2.1 f.2.2) (s.leafAt a)
  (s.putBytes (s.engAddr a) (natBytes w 16)).modDie fun d => { d with tlb := SMap.put 0 d.tlb i 0 }

/-- Read units of the source frame into the buffer. -/
def State.migrRead (s : State) (m : Migr) (us : List Nat) : State :=
  let (s, l) := us.foldl (fun (acc : State × List (Nat × List Byte × Bool × Bool)) u =>
    let (s, bs, p, q) := acc.1.readChunk m.geom m.tier m.frame (64 * u)
    (s, acc.2 ++ [(u, bs, p, q)])) (s, [])
  s.modMigr m.leaf fun m => { m.taken us with buf := l }

/-- Write the first `n` units of the buffer to the destination frame. -/
def State.migrWrite (s : State) (m : Migr) (n : Nat) : State :=
  ((m.buf.take n).foldl (fun s x => s.writeChunk m.geom m.dtier m.dframe (64 * x.1) x.2.1 x.2.2.1 x.2.2.2) s).modMigr m.leaf
    fun m => { m with buf := m.buf.drop n }

/-- One sequence of a migration, once the service path may begin it (R313): up to 16 units of one row are read from the
source, or written to the destination. -/
def State.migrStep (s : State) (leaf : Nat) : State :=
  match s.die.migs.find? fun m => m.leaf == leaf with
  | none => s
  | some m =>
    let again := Instr.servicePathSequence
    let write := m.buf != []
    let tier := if write then m.dtier else m.tier
    let p := s.die.pump
    let us := m.reach tier (p.seqMax write) (if write then m.buf.map (·.1) else m.ahead)
    let bank := m.geom.chunkBank (64 * us.headD 0)
    if !write && m.ahead == [] then s
    else if us = [] ∨ (tier = 0 ∧ s.svcReady bank us.length write = false) then s.after 1 again (.launch leaf)
    else
      let s := if tier = 0 then s.svcBegin bank us.length write else s
      let s := if write then s.migrWrite m us.length else s.migrRead m us
      if tier = 0 then s.after (p.seqTime us.length write) again (.launch leaf) else s.whenever again (.launch leaf)

/-- A bank is open on a row of the source frame: an ACT recorded the leaf against it (R308). -/
def State.sourceOpen (s : State) (m : Migr) : Bool :=
  m.tier == 0 && s.die.pump.bank.any fun x => match x.2 with
    | .row _ (some l) _ _ _ _ _ _ => l.1 == m.leaf
    | .deadTile l _ _ => l == m.leaf
    | _ => false

/-- A try of a migration at a quantum boundary: the swap, the last try, or one more round over the dirty units. -/
def State.migrTry (s : State) (m : Migr) : State :=
  if m.ahead ≠ [] ∨ m.buf ≠ [] then s
  else if m.dirty = [] ∧ s.sourceOpen m = false then
    (s.setLeaf m.idx [(0, 32, m.dframe), (72, 1, m.dtier), (85, 1, 0)]).push [.instr .migrationComplete (.package m.leaf 1)]
  else if 15 ≤ m.tries then (s.setLeaf m.idx [(85, 1, 0)]).push [.instr .migrationComplete (.package m.leaf 5)]
  else
    let s := s.modMigr m.leaf fun m => { m with tries := m.tries + 1, left := m.dirty }
    if m.dirty = [] then s else s.push [.instr .servicePathSequence (.launch m.leaf)]

/-- The migrations of the die at a quantum boundary. -/
def State.migrations (s : State) : State := s.die.migs.foldl (fun s m => s.migrTry m) s

/-- `MIGRATION_COMPLETE` (R314, R316): the page requests for the leaf and the command complete. -/
def execMigrationComplete (s : State) : Host.Outcome State Fault Refusal :=
  match s.msg with
  | .package leaf st =>
    match s.die.migs.find? fun m => m.leaf == leaf with
    | none => .next s
    | some m =>
      let s := s.modDie fun d => { d with migs := d.migs.filter fun m => m.leaf != leaf }
      let s := if m.dtier = 0 then s.pageDone m.idx (if st = 1 then 1 else 3) else s
      .next (if m.cmd then s.reply 0 (.ofNat 64 st) else s)
  | _ => .next s

/-- Start a migration of leaf `i` of the die's context (R314); the leaf is read through the cache of engines (R305). DESIGN
CHOICE (log 15): a frame that does not lie in its tier ends the migration with status 0x3. -/
def State.migrStart (s : State) (i frame tier : Nat) (cmd : Bool) : State :=
  let a := s.leafAddr i
  let w := s.cachedWord i
  let g := s.leafGeom i
  if decide (s.ctx.leafN ≤ i) || !lfValid w || lfMoving w || !frameOk s.ctx g (lfTier w) (lfFrame w) ||
      !frameOk s.ctx g tier frame then
    let s := if tier = 0 then s.pageDone i 3 else s
    if cmd then s.reply 0 3 else s
  else
    let m : Migr :=
      { leaf := a, idx := i, id := g.id, size := g.size, swz := g.swz, tier := lfTier w, frame := lfFrame w,
        dtier := tier, dframe := frame, cmd := cmd }
    ((s.setLeaf i [(32, 32, frame), (73, 1, tier), (85, 1, 1)]).modDie fun d => { d with migs := d.migs ++ [m] }).whenever
      .servicePathSequence (.launch a)

end Sys2Proof.Machine
end

