-- ==== Sys2Proof/Machine/Sync.lean ====
section
/-!
DEFINITION. Sync and system slots (R243 to R253, R259, R261, R262). A waiting instruction has ended its wait when its
effect takes place.
-/

namespace Sys2Proof.Machine

/-! ### Shadows (R250, R251) -/

/-- The granules that the table of the die marks as its shadow pool and no set uses (R250, R310). -/
def State.poolFree (s : State) : List Nat :=
  let used := s.die.sets.flatMap fun x => x.maps.map Prod.snd
  (List.range 16384).filter fun g => granMode (s.mem.granEntry s.cur.val g) == 5 && !used.contains g

/-- A granule may be given a shadow: it is mapped for the context, not RXW, and in no set. -/
def State.shadowable (s : State) (g : Nat) : Bool :=
  let a := granAddr s.cur.val g
  decide (g < 16384) && s.allows a .load && granMode (s.mem.entryOf a) != 3 &&
    !s.die.sets.any fun x => x.maps.any fun m => m.1 == g

/-- The lowest free set number. -/
def Die.freeSet (d : Die) : Option Nat := (List.range 16).find? fun k => (d.set k).isNone

/-- A granule's words hold zero, with no poison, residency flag or error. -/
def State.zeroGranule (s : State) (g : Nat) : State :=
  let a := granAddr s.cur.val g
  s.modMem fun m => { m with
    cistern := SMap.clearRange m.cistern a (a + 8192), pz := SMap.clearRange m.pz (a / 16) (a / 16 + 512),
    nr := SMap.clearRange m.nr (a / 16) (a / 16 + 512), ecc := SMap.clearRange m.ecc (a / 16) (a / 16 + 512) }

/-- The granules that a `SHADOW` covers, if it succeeds: set, and live granules with their shadows. -/
def State.shadowAlloc (s : State) (a n : Word) : Option (Nat × List (Nat × Nat)) :=
  let n := bitsAt n.toNat 0 7
  let g := granule a.toNat
  let live := (List.range n).map (g + ·)
  if n = 0 ∨ 64 < n ∨ 2 ^ 30 ≤ a.toNat ∨ adDie a.toNat ≠ s.cur then none
  else if live.any fun g => !s.shadowable g then none
  else match s.die.freeSet with
    | none => none
    | some k =>
      let free := (s.poolFree).take n
      if free.length < n then none else some (k, live.zip free)

/-- Engine work in flight writes nothing to the granules of a freed set (R251). -/
def dropIn (l : List Nat) : Msg → Msg
  | .copy r => .copy { r with drop := r.drop ++ l }
  | .group g => .group { g with drop := g.drop ++ l }
  | .cut j => .cut { j with drop := j.drop ++ l }
  | .snap c a ca v d t x => .snap c a ca v d t (x ++ l)
  | m => m

/-- The same for a piece of work. -/
def Work.dropping (l : List Nat) : Work → Work
  | .instr i m => .instr i (dropIn l m)
  | w => w

/-- Free a set without exchange (R251). -/
def State.freeSet (s : State) (k : Nat) : State :=
  match s.die.set k with
  | none => s
  | some x =>
    let l := x.maps.map Prod.fst
    let t := fun (t : Task) => if t.die = s.cur then { t with work := t.work.dropping l } else t
    let tt := fun (x : Timer) => Timer.mk x.at_ (t x.task)
    let r := fun (q : CopyReq) => { q with drop := q.drop ++ l }
    let g := fun (q : SumpGroup) => { q with drop := q.drop ++ l }
    let j := fun (q : CutJob) => { q with drop := q.drop ++ l }
    let s := { s with timers := s.timers.map tt, todo := s.todo.map t }
    let s := s.modCtx fun c => { c with sump := c.sump.map g, cut := c.cut.map j, cutq := c.cutq.map j }
    let keep := fun (y : ShadowSet) => y.id != k
    s.modDie fun d => { d with sets := d.sets.filter keep, engine := d.engine.map r, groups := d.groups.map g }

/-- Free every set of the die. -/
def State.freeSets (s : State) : State := s.die.sets.foldl (fun s x => s.freeSet x.id) s

/-- `SHADOW` (R250). -/
def execShadow (d a n : BitVec 6) (s : State) : Host.Outcome State Fault Refusal :=
  slotRun (.shadow d a n) s fun s0 =>
    match s0.shadowAlloc (s0.rs a) (s0.rs n) with
    | none => s0.wsLater 1 d (1#64 <<< 63)
    | some (k, maps) =>
      let s := maps.foldl (fun s m => s.zeroGranule m.2) s0
      (s.modDie fun x => { x with sets := x.sets ++ [{ id := k, maps := maps, owner := s.ctx.ctxNo.toNat }] }).wsLater 1 d (.ofNat 64 k)

/-- `SHADOW.FREE` (R251). -/
def execShadowFree (a : BitVec 6) (s : State) : Host.Outcome State Fault Refusal :=
  slotRun (.shadowFree a) s fun s0 => s0.freeSet (bitsAt (s0.rs a).toNat 0 4)

/-- `PUBLISH` (R251): the exchange has been made at the boundary. -/
def execPublish (d a : BitVec 6) (s : State) : Host.Outcome State Fault Refusal :=
  slotRun (.publish d a) s fun s0 => s0.wsLater 1 d (s0.ctx.waitValue (.publish d a))

/-! ### Waits -/

/-- `WAIT.A` (R244): the value that satisfied the condition. -/
def execWaitA (d a v : BitVec 6) (cond : BitVec 2) (s : State) : Host.Outcome State Fault Refusal :=
  slotRun (.waitA d a v cond) s fun s0 => s0.wsLater 1 d (.ofNat 64 (s0.mem.num (waitAddr (s0.rs a)) 8))

/-- `FENCE` (R245). -/
def execFence (ld st eng tl : Bool) (s : State) : Host.Outcome State Fault Refusal :=
  slotRun (.fence ld st eng tl) s fun s0 => s0

/-- `FENCE.RC` (R246): the result, and a new interval. -/
def execFenceRc (d : BitVec 6) (s : State) : Host.Outcome State Fault Refusal :=
  slotRun (.fenceRc d) s fun s0 =>
    let c := s0.ctx
    let first := c.rcBroke <|> c.rcDrop
    let v := b2n first.isSome + first.getD 0 % 2 ^ 16 * 2 ^ 8 + c.dropc % 2 ^ 32 * 2 ^ 32
    (s0.wsLater 1 d (.ofNat 64 v)).modCtx fun c => { c with dropc := 0, rcBroke := none, rcDrop := none }

/-- `QWAIT` (R247). -/
def execQwait (d : BitVec 6) (n : BitVec 4) (s : State) : Host.Outcome State Fault Refusal :=
  slotRun (.qwait d n) s fun s0 => s0.wsLater 1 d (s0.ctx.waitValue (.qwait d n))

/-- `BAR` (R248). -/
def execBar (a : BitVec 6) (s : State) : Host.Outcome State Fault Refusal :=
  slotRun (.bar a) s fun s0 => s0

/-- The signed mean of offsets. -/
def meanOffset (l : List (Nat × Int)) : Int :=
  let t := (l.map Prod.snd).sum
  let n := l.length
  if n = 0 then 0 else if t % (n : Int) = 0 then t / (n : Int) else Config.meanOffset t n

/-- `REALIGN` (R253, R335): the mean offset, own time less the peer's; the GTC is then slewed by as much. With no
connected peer in a domain of more packages it does not complete. -/
def execRealign (d : BitVec 6) (s : State) : Host.Outcome State Fault Refusal :=
  slotRun (.realign d) s fun s0 =>
    let l := s0.die.offsets
    let m := meanOffset l
    let s := (s0.wsLater 1 d (.ofInt 64 m)).modDie fun d => { d with offsets := [] }
    if s0.host.npkg ≤ 1 ∨ l ≠ [] then
      { s with
        slew := -2 * m
        fab := { s.fab with lastra := s.gtc, unsync := false } }
    else s

/-- `RDGTC` (R252). -/
def execRdgtc (d : BitVec 6) (s : State) : Host.Outcome State Fault Refusal :=
  slotRun (.rdgtc d) s fun s0 => s0.wsLater 1 d (.ofNat 64 s0.gtc)

/-- `GO.WAIT` (R249). -/
def execGoWait (d : BitVec 6) (s : State) : Host.Outcome State Fault Refusal :=
  slotRun (.goWait d) s fun s0 => s0.wsLater 1 d (.ofNat 64 s0.gtc)

/-! ### System -/

/-- `NOP`. -/
def execNop (s : State) : Host.Outcome State Fault Refusal := slotRun .nop s fun s0 => s0

/-- `TRAP` (R259): after its bundle has committed, it resumes at the bundle that is then next (R258). -/
def execTrap (code : BitVec 16) (s : State) : Host.Outcome State Fault Refusal :=
  slotRun (.trap code) s fun s0 =>
    let c := s0.ctx
    s0.afterCommit { cause := 0x14, idx := c.idx, va := c.segVa, aux := code.toNat, rIdx := c.idx + 1, rVa := c.segVa }

/-- `DBRK` (R259): it traps before its bundle commits, or has no effect. -/
def execDbrk (code : BitVec 16) (s : State) : Host.Outcome State Fault Refusal :=
  slotRun (.dbrk code) s fun s0 => s0

/-- `TLB.SYNC` (R261): the translations that engines cache, when all tensors are named, and what STALE remembers. -/
def execTlbSync (a : BitVec 6) (s : State) : Host.Outcome State Fault Refusal :=
  slotRun (.tlbSync a) s fun s0 =>
    let all := bitsAt (s0.rs a).toNat 0 16 == 0
    s0.modDie fun d => { d with tlb := if all then [] else d.tlb, stored := [] }

/-! ### A change of domain (R262) -/

/-- A bay as `DOMSW` leaves it. -/
def Bay.cleared (x : Bay) : Bay :=
  { spanIn := x.spanIn, cutWord := x.cutWord, cutNew := x.cutNew, cutPasses := x.cutPasses, cutErr := x.cutErr,
    ldErr := x.ldErr }

/-- A step in flight brings nothing to what a change of domain clears: pours, fills and the writes of control registers
(DEDUCED, log 90: results in flight for cleared registers go with them). -/
def outlivesDomain : Instr → Bool
  | .timelineResultLanding (.leafLost _) => true
  | .timelineResultLanding _ => false
  | .mxStepLanding _ => false
  | .mxModePartialClear _ _ _ => false
  | .mxSnapTargetWrite _ _ _ _ => false
  | .routingCounterUpdate _ => false
  | .streamEntryArrival _ _ _ => false
  | .xferDelivery _ _ _ => false
  | .mxDrainPresent _ _ _ => false
  | _ => true

/-- The context as a change of domain leaves it: what R262 lists is cleared or takes its reset value; registers of levels S
and F are not cleared. -/
def Ctx.cleared (c : Ctx) : Ctx :=
  { c with
    s := Vector.replicate 64 0, p := 1, h := Vector.replicate 16 0, loops := Vector.replicate 6 {}, rm := 0,
    fmtchk := false, fpstat := {}, win := 0, sumpst := 0, ctr := [], hoist := [],
    bay := c.bay.map Bay.cleared, pend := c.pend.filter fun p => outlivesDomain p.instr }

/-- The die changes to a protection domain (R262). -/
def State.setDomain (s : State) (id : BitVec 16) : State :=
  if id = s.ctx.domid then s else s.modCtx fun c => { c.cleared with domid := id }

/-- The domain that a `DOMSW` names: the one read when the instruction began to wait, as the wait clears s[A]. -/
def State.domswId (s : State) (a : BitVec 6) : BitVec 16 :=
  if s.ctx.waited (.domsw a) then (s.ctx.waitValue (.domsw a)).setWidth 16 else (s.rs a).setWidth 16

/-- `DOMSW` (R262): the clear is over when the bundle issues. -/
def execDomsw (a : BitVec 6) (s : State) : Host.Outcome State Fault Refusal :=
  slotRun (.domsw a) s fun s0 => s0.setDomain (s0.domswId a)

end Sys2Proof.Machine
end

