-- ==== Sys2Proof/Machine/Quantum.lean ====
section
/-!
DEFINITION. Quantum boundaries (R266 to R271, R275): exchanges of shadows (R251), buffered writes and reflected units at
their targets (R321), gets, barriers (R248) and `QWAIT` (R247); and the waits that go on beside issue.
-/

namespace Sys2Proof.Machine

/-! ### Shadows at a boundary (R251) -/

/-- Exchange the contents of two granules in a map with `n` keys per granule. -/
def swapRange {α : Type} [DecidableEq α] (d : α) (m : SMap α) (a b n : Nat) : SMap α :=
  let xs := m.filter fun p => a ≤ p.1 && p.1 < a + n
  let ys := m.filter fun p => b ≤ p.1 && p.1 < b + n
  let m := SMap.clearRange (SMap.clearRange m a (a + n)) b (b + n)
  let m := xs.foldl (fun m p => SMap.put d m (p.1 - a + b) p.2) m
  ys.foldl (fun m p => SMap.put d m (p.1 - b + a) p.2) m

/-- Exchange a live granule of the die with its shadow. -/
def State.swapGranules (s : State) (x : Nat × Nat) : State :=
  let a := granAddr s.cur.val x.1
  let b := granAddr s.cur.val x.2
  let s := s.modMem fun m => { m with
    cistern := swapRange 0 m.cistern a b 8192, pz := swapRange false m.pz (a / 16) (b / 16) 512,
    nr := swapRange false m.nr (a / 16) (b / 16) 512, ecc := swapRange .ok m.ecc (a / 16) (b / 16) 512 }
  (s.modCtx fun c => c.hoistWrite a 8192).takeSide [a / 16, b / 16]

/-- An address of the die lies in one of some granules. -/
def State.inGrans (s : State) (gs : List Nat) (a : Nat) : Bool :=
  decide (a < 2 ^ 30) && adDie a == s.cur && gs.contains (granule a)

/-- A request writes into one of some granules. -/
def State.copyInto (s : State) (gs : List Nat) (r : CopyReq) : Bool :=
  s.inGrans gs r.caddr || (r.form != 1 && (List.range (r.len / 512 + 2)).any fun k =>
    s.inGrans gs (seqWord r.dst.toNat (min (512 * k) (r.len - 1))))

/-- A snapshot in flight writes into one of some granules. -/
def State.snapInto (s : State) (gs : List Nat) (w : Work) : Bool :=
  match w with
  | .instr .sumpSnapWrite (.snap _ a c _ _ _ _) => s.inGrans gs c || (List.range 64).any fun k => s.inGrans gs (seqWord a k)
  | _ => false

/-- Engine writes of the die into some granules have not all landed. -/
def State.writesInto (s : State) (gs : List Nat) : Bool :=
  let grp := fun (g : SumpGroup) => g.vals.any fun v => s.inGrans gs v.1
  s.die.engine.any (s.copyInto gs) || s.die.groups.any grp || s.ctx.sump.any grp ||
    ((s.ctx.cut.toList ++ s.ctx.cutq).any fun j => s.inGrans gs j.caddr) ||
    s.timers.any fun t => t.task.die == s.cur && s.snapInto gs t.task.work

/-- Step 1 of R267: the exchanges that are due. -/
def State.publishDue (s : State) : State :=
  s.ctx.wait.foldl (fun s w =>
    match w.instr with
    | .publish _ a =>
      let k := bitsAt (s.rs a).toNat 0 4
      match s.die.set k with
      | some x =>
        if w.done || s.held || decide (s.gtc ≤ w.gtc) || s.writesInto (x.maps.map Prod.fst) then s
        else
          let s := x.maps.foldl (fun s m => s.swapGranules m) s
          let s := s.modDie fun d => { d with sets := d.sets.filter fun y => y.id != k }
          s.modCtx fun c => { c with wait := c.wait.map fun y => if y = w then { y with done := true, value := s.gtc } else y }
      | none => s
    | _ => s) s

/-! ### What is due at a boundary (R266, R268, R271) -/

/-- Kinds of verbs that write. -/
def verbWrites (v : Verb) : Bool := v.kind != .get

/-- A verb of a die has arrived and its time has come at its target. -/
def State.verbRipe (s : State) (v : Verb) (b : Nat) : Bool :=
  let t := s.dieAt (adDie v.op.ea)
  t.boundaryAt b && t.ord.arrived.any fun x => x.verb == some v && x.ripe b

/-- The buffered message-link writes of a die that commit at boundary `b`: none before an earlier one (R268). -/
def State.writesDue (s : State) (d : DieIx) (b : Nat) : List Verb :=
  let o := (s.dieAt d).ord
  (o.verbs.filter verbWrites).takeWhile fun v => !o.holds v.seq && s.verbRipe v b

/-- The gets of a die on one target that are served at boundary `b`. -/
def State.getsDue (s : State) (d t : DieIx) (b : Nat) : List Verb :=
  ((s.dieAt d).ord.verbs.filter fun v => v.kind == .get && adDie v.op.ea == t).takeWhile fun v => s.verbRipe v b

/-- Reflected units of one issuer in the order of their path. -/
def insertArrived (x : Arrived) : List Arrived → List Arrived
  | [] => [x]
  | y :: l => if x.issuer < y.issuer ∨ (x.issuer = y.issuer ∧ x.seq < y.seq) then x :: y :: l else y :: insertArrived x l

/-- Arrived accesses in ascending issuer, and within one issuer in commit-buffer order (R267 step 2). -/
def inOrder (l : List Arrived) : List Arrived := l.foldl (fun l x => insertArrived x l) []

/-- The reflected units of the die that commit at boundary `b` (R269): none before an earlier one of its path. -/
def State.unitsDue (s : State) (b : Nat) : List Arrived :=
  let us := inOrder (s.die.ord.arrived.filter fun x => x.unit.isSome)
  let free := fun (x : Arrived) => x.issuer / 8 != s.host.pkg ||
    !(s.dieAt ⟨x.issuer % 8, Nat.mod_lt _ (by decide)⟩).ord.holds x.seq
  us.filter fun x => free x && x.ripe b &&
    us.all fun y => y.issuer != x.issuer || decide (x.seq ≤ y.seq) || y.ripe b

/-- What is due on the current die at boundary `b`, in order. -/
def State.dueAt (s : State) (b : Nat) : List Arrived :=
  let ws := (List.finRange 8).flatMap fun d => s.writesDue d b
  let gs := (List.finRange 8).flatMap fun d => s.getsDue d s.cur b
  let verbs := s.die.ord.arrived.filter fun x => match x.verb with
    | some v => ws.contains v || gs.contains v
    | none => false
  inOrder (verbs ++ s.unitsDue b)

/-! ### Commits at the target (R310, R321) -/

/-- Write the enabled bytes of 64 at an address, a multiple of 64. -/
def State.putMasked (s : State) (a : Nat) (mask : BitVec 64) (data : BitVec 512) : State :=
  (List.range 4).foldl (fun s k =>
    let bs : List (Nat × Byte) := (List.range 16).filterMap fun i =>
      if mask.getLsbD (16 * k + i) then some (i, (data >>> (8 * (16 * k + i))).setWidth 8) else none
    let s := s.putWord ((a + 16 * k) / 16) bs
    { s with sideW := s.sideW ++ bs.map fun x => a + 16 * k + x.1 }) s

/-- A SYNC flit of the current die waits for a ring (R327): for key `256 + g` to the issuer `g` of a path, for `512 + p` to
peer `p`, for `768 + q` to package `q`. One flit tells all that there is to tell when it leaves. -/
def State.syncFlit (s : State) (key : Nat) : State :=
  let t : Task := ⟨s.cur, .instr .flitSend (.send key)⟩
  if s.todo.contains t || s.timers.any (fun x => x.task == t) then s else s.whenever .flitSend (.send key)

/-- Tell the issuer of a unit: a die of the package by the message link within MLDLY (R246); another package by a SYNC flit
(R327, R338). -/
def State.ackUnit (s : State) (u : RUnit) (ok : Bool) : State :=
  if u.src / 8 = s.host.pkg then
    let (w, s) := s.takeWait
    s.at (s.now + min w (2 * s.die.ord.mldly)) ⟨u.src % 8, Nat.mod_lt _ (by decide)⟩ .dieCommitAck (.ack u.cb u.peer ok)
  else (s.modPath (inPath u.src) fun t => { t with acked := if ok then max t.acked (u.cb + 1) else t.acked }).syncFlit
    (inPath u.src)

/-- A reflected unit commits, or is refused (R321). Behind a refused unit of its issuer for the same window none commits
until a new epoch, so the target holds a prefix (R338): the issuer is told so again. -/
def State.unitCommit (s : State) (u : RUnit) : State :=
  let s := s.tabRead s.die.win.rwbase.toNat u.wid 8
  match s.unitAddr u with
  | some a =>
    if (s.die.win.path (inPath u.src)).cut.contains u.wid then s.ackUnit u false
    else (s.putMasked a u.mask u.data).ackUnit u true
  | none =>
    ((s.modDie fun d => { d with win := { d.win with rxdisc := min (d.win.rxdisc + 1) (2 ^ 32 - 1) } }).modPath
      (inPath u.src) fun t => { t with cut := (u.wid :: t.cut).dedup }).ackUnit u false

/-- The entry of a verb in its issuer's commit buffer is freed. -/
def State.verbDone (s : State) (v : Verb) : State := s.onDie v.src fun s => s.cbFree v.seq

/-- A buffered write commits at its target. -/
def State.verbCommit (s : State) (v : Verb) : State :=
  let s := s.verbDone v
  if v.kind = .atomic then s.sumpWord v.src v.domid v.sop v.sfmt v.op.ea v.vals else s.storeAt v.op

/-- A get is served: its answer travels back (R136, R388). -/
def State.verbServe (s : State) (v : Verb) : State :=
  let s := s.verbDone v
  let (s, c) := s.readStates (opWords v.op)
  let err := c.map fun c => (c, v.op.ea)
  let (w, s) := s.takeWait
  s.at (s.now + w) v.src .getResponse (.response v.seq (s.mem.opData v.op) err)

/-- An arrived access is taken. -/
def State.commitOne (s : State) (x : Arrived) : State :=
  match x.verb, x.unit with
  | some v, _ => if v.kind = .get then s.verbServe v else s.verbCommit v
  | none, some u => s.unitCommit u
  | none, none => s

def arrivedSignal (x : Arrived) : Bool :=
  (x.verb.any fun v => v.kind == .signal) || x.unit.any fun u => u.signal
def arrivedGet (x : Arrived) : Bool := x.verb.any fun v => v.kind == .get

/-- Steps 2 to 4 of R267. -/
def State.commitDue (s : State) : State :=
  let l := s.dueAt s.gtc
  let s := (s.takeSide (l.flatMap s.arrivedWords)).modOrd fun o => { o with arrived := o.arrived.filter fun x => !l.contains x }
  let part := fun (s : State) (p : Arrived → Bool) => (l.filter p).foldl (fun s x => s.commitOne x) s
  part (part (part s fun x => !arrivedSignal x && !arrivedGet x) arrivedSignal) arrivedGet

/-! ### Barriers and `QWAIT` (R247, R248) -/

/-- The key of the arrival of a generation: two generations are kept apart. -/
def barKey (id gen : Nat) : Nat := 2 * id + gen % 2

/-- The die has no earlier store, `SIGNAL` or remote atomic outstanding (R248). -/
def State.barReady (s : State) : Bool :=
  s.storesDone && s.die.ord.verbs.all (fun v => v.kind == .get) &&
    s.die.groups.all fun g => g.vals.all fun v => adDie v.1 == s.cur

/-- The barrier id of a waiting `BAR`. -/
def State.barId (s : State) (w : Wait) : Option Nat :=
  match w.instr with
  | .bar a => some (bitsAt (s.rs a).toNat 0 8)
  | _ => none

/-- The launch rectangle spans packages. -/
def State.spans (s : State) : Bool :=
  decide ((s.ctx.rect s.host.pkg).length < s.ctx.rectNr * s.ctx.rectNc)

/-- A waiting `BAR` arrives, once per generation. Dies of other packages arrive after an open time (log 3). -/
def State.barArrive (s : State) (id : Nat) : State :=
  let k := barKey id (SMap.get 0 s.ctx.barGen id)
  if SMap.get 0 s.ctx.barArr k ≠ 0 || !s.barReady then s
  else
    let (w, s) := if s.spans then s.takeWait else (0, s)
    s.modCtx fun c => { c with barArr := SMap.put 0 c.barArr k (s.gtc + w + 1) }

/-- The arrivals of the dies of the rectangle at a generation; none while one has not arrived. -/
def State.barTimes (s : State) (id gen : Nat) : Option Nat :=
  (s.ctx.rect s.host.pkg).foldl (fun t d =>
    let c := (s.dieAt d).ctx
    let g := SMap.get 0 c.barGen id
    let x := SMap.get 0 c.barArr (barKey id gen)
    match t with
    | some t => if (g == gen || g == gen + 1) && x != 0 then some (max t (x - 1)) else none
    | none => none) (some 0)

/-- A die leaves a barrier at boundary `B` (R248). -/
def State.barLeave (s : State) (id : Nat) : State :=
  let gen := SMap.get 0 s.ctx.barGen id
  let rect := s.ctx.rect s.host.pkg
  let every := rect.all fun d => (s.dieAt d).boundaryAt s.gtc
  let delay := if s.spans then s.die.ord.rfdly else s.die.ord.mldly
  match s.barTimes id gen with
  | some t =>
    if every && decide (t + delay < s.gtc) then
      s.modCtx fun c => { c with
        barGen := SMap.put 0 c.barGen id (gen + 1)
        barArr := SMap.put 0 c.barArr (barKey id (gen + 1)) 0
        wait := c.wait.map fun w => if s.barId w = some id then { w with done := true } else w }
    else s
  | none => s

/-- Step 5 of R267. -/
def State.waitsDue (s : State) : State :=
  let ids := (s.ctx.wait.filter fun w => !w.done).filterMap s.barId
  let s := ids.foldl (fun s id => s.barLeave id) s
  s.modCtx fun c => { c with wait := c.wait.map fun w => match w.instr with
    | .qwait _ _ =>
      if w.done || decide (s.gtc ≤ w.gtc) then w
      else if w.left ≤ 1 then { w with left := 0, done := true, value := s.gtc }
      else { w with left := w.left - 1 }
    | _ => w }

/-- A quantum of commit-buffer stall has passed (R272, R359). -/
def State.cbCount (s : State) : State :=
  if s.die.ord.cbStall = 0 || s.held then s
  else
    let s := s.modOrd fun o => { o with cbStall := o.cbStall + 1 }
    if s.die.ord.cbwait < s.die.ord.cbStall then s.push [.instr .commitBufferOverflow .none] else s

/-- `QUANTUM_BOUNDARY` (R267): the five steps in order; then migrations take their tries (R314). -/
def execQuantumBoundary (s : State) : Host.Outcome State Fault Refusal :=
  .next s.publishDue.commitDue.waitsDue.cbCount.migrations

/-- `QUANTUM_CHANGE` (R275): the quantum last written comes into force. -/
def execQuantumChange (s : State) : Host.Outcome State Fault Refusal := .next (s.modOrd fun o => { o with qnow := o.qlog2 })

/-! ### Waits beside issue -/

/-- The die's `REALIGN` exchange is over: every connected peer has answered (R253). -/
def State.realigned (s : State) : Bool :=
  (List.range 32).all fun q => q == s.host.pkg || !s.lit q || s.die.offsets.any fun x => x.1 == q

/-- A wait after one more die-clock cycle. -/
def State.waitTick (s : State) (w : Wait) : Wait :=
  match w.instr with
  | .domsw _ => if w.left ≤ 1 then { w with left := 0, done := true } else { w with left := w.left - 1 }
  | .realign _ => if s.realigned then { w with done := true } else w
  | _ => w

/-- Reflected units on their way within the package reach the die; a late one is counted as it arrives (R271). -/
def State.arrivals (s : State) : State :=
  let here := fun (x : Arrived) => x.onWay && decide (x.phys ≤ s.gtc)
  let n := (s.die.ord.arrived.filter fun x => here x && decide (x.a < x.phys)).length
  s.modOrd fun o => { o with
    arrived := o.arrived.map fun x => if here x then { x with onWay := false } else x
    late := min (o.late + n) (2 ^ 32 - 1) }

/-- What the waits of the die do in a die-clock cycle: barriers arrive, exchanges end, and `DOMSW` counts. -/
def State.waitStep (s : State) : State :=
  let ids := (s.ctx.wait.filter fun w => !w.done).filterMap s.barId
  let s := ids.foldl (fun s id => s.barArrive id) s
  s.modCtx fun c => { c with wait := c.wait.map s.waitTick }

/-- The boundary work of a die in the first die-clock cycle of a GTC tick. -/
def State.quantumWork (s : State) : List Work :=
  if s.half then []
  else
    (if s.die.boundaryAt s.gtc then [.instr .quantumBoundary .none] else []) ++
      if s.gtc % 4096 = 0 && s.die.ord.qlog2 != s.die.ord.qnow then [.instr .quantumChange .none] else []

end Sys2Proof.Machine
end

