-- ==== Sys2Proof/Machine/Fabric.lean ====
section
/-!
DEFINITION. The optical fabric (R324 to R342): rings, ports and laser modules, the rota, flits on their way out and in,
and paths that disconnect, reconnect and break. What leaves the package is not held; what arrives comes as an input.
-/

namespace Sys2Proof.Machine

/-! ### Rings (R328, R329) -/

/-- Change port `k`. -/
def State.modPort (s : State) (k : Nat) (f : Port → Port) : State := s.modFab fun x => x.setPort k (f (x.port k))

/-- Wavelength of a ring, plus 1; 0: off. -/
def Port.wave (p : Port) (r : Nat) : Nat := SMap.get 0 p.tune r

/-- A ring of the port is tuned and fed, so that it locks. -/
def Port.feeds (p : Port) (r : Nat) : Bool := p.wave r != 0 && !p.gate && !p.srclost

/-- Clear the LOCK bit of a ring. -/
def Port.unlock (p : Port) (r : Nat) : Port := { p with lock := p.lock &&& ~~~(1#16 <<< r) }

/-- A ring clears its LOCK bit; if it is fed, it relocks within 3,600 cycles. -/
def State.relock (s : State) (k r : Nat) : State :=
  let s := s.modPort k fun p => p.unlock r
  if (s.fab.port k).feeds r then
    let (w, s) := s.takeWait
    s.at (s.now + min w 3600) 0 (.ringLock k r)
  else s

/-- Tune a ring to a wavelength, given plus 1, or turn it off. -/
def State.tuneRing (s : State) (k r w : Nat) : State :=
  (s.modPort k fun p => { p with tune := SMap.put 0 p.tune r w }).relock k r

/-- The tuned rings of a port relock. -/
def State.relockPort (s : State) (k : Nat) : State :=
  (List.range 16).foldl (fun s r => if (s.fab.port k).wave r = 0 then s else s.relock k r) s

/-- `RING_LOCK` (R329): a ring that is still tuned and fed locks, unless it has been retuned since. -/
def execRingLock (port ring : Nat) (s : State) : Host.Outcome State Fault Refusal :=
  let again := s.timers.any fun t => t.task.work == .instr (.ringLock port ring) .none
  if (s.fab.port port).feeds ring && !again then
    .next (s.modPort port fun p => { p with lock := p.lock ||| (1#16 <<< ring) })
  else .next s

/-- The port group of a port is in rota mode (R330). -/
def Fabric.rotaMode (f : Fabric) (k : Nat) : Bool := f.mode.getLsbD (k / 8)

/-! ### Gates (R342) -/

/-- A flit is on the port. -/
def State.portBusy (s : State) (k : Nat) : Bool := s.fab.flight.any fun f => f.port == k && decide (100 * s.now < f.till)

/-- Die-clock cycle in which the last flit on the port has left. -/
def State.portClear (s : State) (k : Nat) : Nat :=
  (s.fab.flight.filter fun f => f.port == k).foldl (fun m f => max m (ceilDiv f.till 100)) s.now

/-- `PORT_GATE_WRITE` (R342). -/
def execPortGateWrite (port : Nat) (g : Bool) (s : State) : Host.Outcome State Fault Refusal :=
  if g then
    let s := s.modPort port fun p => { p with gate := true }
    if s.portBusy port then .next (s.at (s.portClear port) 0 (.portGated port))
    else .next (s.modPort port fun p => { p with gated := true })
  else .next ((s.modPort port fun p => { p with gate := false, gated := false }).relockPort port)

/-- `PORT_GATED` (R342): the last flit has left a port that is still gated. -/
def execPortGated (port : Nat) (s : State) : Host.Outcome State Fault Refusal :=
  .next (s.modPort port fun p => { p with gated := p.gated || (p.gate && !s.portBusy port) })

/-- `FABCTL_MODE_WRITE` (R330): a group changes its mode only while each of its ports is gated. -/
def execFabctlModeWrite (v : Word) (s : State) : Host.Outcome State Fault Refusal :=
  let m : BitVec 2 := v.setWidth 2
  let ok := fun (g : Nat) => m.getLsbD g == s.fab.mode.getLsbD g ||
    (List.range 8).all fun k => (s.fab.port (8 * g + k)).gated
  if ok 0 && ok 1 then .next (s.modFab fun f => { f with mode := m }) else .next s

/-! ### Paths out (R324 to R326) -/

/-- A flit takes 9.14 ns of its ring (R325): hundredths of a die-clock cycle. -/
def flitTime : Nat := 1828

/-- GTC at which the present slot of the rota ends. -/
def Fabric.slotEnd (f : Fabric) : Nat := f.rotaT0 + f.rotaN * bitsAt (f.rota.getD 0 0).toNat 32 32

/-- A flit that starts now on a port ends before its ring stops reaching (R326, R333): it takes 10 ticks at most. -/
def State.fitsSlot (s : State) (k : Nat) : Bool :=
  !s.fab.rotaMode k || !s.fab.rotaOn || decide (s.gtc + 10 ≤ s.fab.slotEnd)

/-- When a ring is free, in hundredths of a cycle. -/
def Fabric.ringFree (f : Fabric) (k r : Nat) : Nat :=
  (f.flight.filter fun x => x.port == k && x.ring == r).foldl (fun m x => max m x.till) 0

/-- A copy for a peer that has not been sent. -/
def CbEntry.unsent (e : CbEntry) (p : Nat) : Option Copy := e.copies.find? fun c => c.peer == p && !c.sent

/-- Entries of the commit buffer with a copy for a peer that has not been sent, in order. -/
def State.unsent (s : State) (p : Nat) : List CbEntry := s.die.ord.cb.filter fun e => (e.unsent p).isSome

/-- Those of them that may be sent: none is held back, and none stands behind one that is (R359). -/
def State.toSend (s : State) (p : Nat) : List CbEntry := (s.unsent p).takeWhile fun e => e.hold.isNone

/-- The entries of the next flit of a path: a `SIGNAL` alone, or up to three units for one window with the stamp that the
flit carries for all of them (R325). -/
def nextFlit (p : Nat) : List CbEntry → List CbEntry
  | [] => []
  | e :: l =>
    let sig := fun (x : CbEntry) => x.unit.any fun u => u.signal
    let place := fun (x : CbEntry) => (x.unsent p).map fun c => (c.pkg, c.die, c.wid, x.stamp)
    if sig e then [e] else ((e :: l).takeWhile fun x => !sig x && place x == place e).take 3

/-- Mark the copies of some entries for a peer as sent. -/
def State.markSent (s : State) (p : Nat) (ids : List Nat) : State :=
  let sent := fun (c : Copy) => if c.peer = p then { c with sent := true } else c
  let mark := fun (e : CbEntry) =>
    if ids.elem e.id then { e with copies := e.copies.map sent } else e
  s.modOrd fun o => { o with cb := o.cb.map mark }

/-- A flit that waits for a ring: its die, its peer or the key of a SYNC flit or a replay, its path, its class, 0 SYNC,
1 ATOM, 2 BULK, and the package that it goes to (R325, R327). -/
structure Contender where
  die : DieIx
  peer : Nat
  path : Nat
  cls : Nat
  pkg : Nat
  deriving DecidableEq, Repr

/-- The first flit of a path that is to be replayed (R325, R342). -/
def PathSt.replay (t : PathSt) : Option Sent := t.unacked.find? fun x => x.again

/-- The next flit of the entries of a peer in the commit buffer, to the target that they were stamped with; none before
the SYNC flit of a new epoch of the path (R340). -/
def State.entryContender (s : State) (p : Nat) : Option Contender :=
  match s.toSend p with
  | e :: _ => (e.unsent p).bind fun c =>
      if (s.die.win.path c.target).epoch then none
      else some ⟨s.cur, p, c.target, if e.unit.any fun u => u.signal then 1 else 2, c.pkg⟩
  | [] => none

/-- What waits under a key on the current die: entries of a peer, unless it is disconnected or broken; from 256 on, what a
target owes an issuer; from 512 on, a path epoch; from 768 on, a time exchange; from 1,024 on, a replay. -/
def State.contender (s : State) (key : Nat) : Option Contender :=
  if 1024 ≤ key then
    (s.die.win.path (key - 1024)).replay.map fun _ => ⟨s.cur, key, key - 1024, 1, (key - 1024) / 8⟩
  else if 768 ≤ key then some ⟨s.cur, key, key, 0, key - 768⟩
  else if 512 ≤ key then
    (s.peerEntry (key - 512)).bind fun e => if wmState e = 1 then some ⟨s.cur, key, key, 0, wmPkg e⟩ else none
  else if 256 ≤ key then some ⟨s.cur, key, key, 0, (key - 256) / 8⟩
  else if ((s.peerEntry key).map wmState).any fun x => decide (2 ≤ x) then none
  else s.entryContender key

/-- The next flit of a path that reconnects: the record at the head of its egress queue, then what has arrived since
(R337). -/
def State.egressContender (s : State) (p : Nat) : Option Contender :=
  match s.egressOf p with
  | r :: _ =>
    if (s.die.win.path (8 * r.pkg + r.die)).epoch then none
    else some ⟨s.cur, p, 8 * r.pkg + r.die, if r.signal then 1 else 2, r.pkg⟩
  | [] => s.entryContender p

/-- The flits of the package that wait for rings in the present die-clock cycle. -/
def State.contenders (s : State) : List Contender :=
  (s.todo ++ (s.timers.filter fun t => decide (t.at_ ≤ s.now + 1)).map (·.task)).filterMap fun t =>
    match t.work with
    | .instr .flitSend (.send key) => ({ s with cur := t.die } : State).contender key
    | .instr .pathReconnect (.path p) => ({ s with cur := t.die } : State).egressContender p
    | _ => none

/-- The quantum of 128 flit times that runs. -/
def State.ringQuantum (s : State) : Nat := 100 * s.now / (128 * flitTime)

/-- SYNC and ATOM flits of a ring in the present quantum. -/
def State.urgentOn (s : State) (k r : Nat) : Nat :=
  let x := SMap.get (0, 0) s.fab.urgent (16 * k + r)
  if x.1 = s.ringQuantum then x.2 else 0

/-- When a path last had its turn on a ring: 0 never, more the later. -/
def Fabric.turn (f : Fabric) (k r : Nat) (c : Contender) : Nat :=
  match f.turns.findIdx? fun x => x == (k, r, c.die, c.path) with
  | some i => i + 1
  | none => 0

/-- A ring reaches the package of a flit; for a time exchange UNSYNC is disregarded (R253). -/
def State.serves (s : State) (k r : Nat) (c : Contender) : Bool :=
  if 768 ≤ c.peer ∧ c.peer < 1024 then s.ringLit k r c.pkg else s.ringReaches k r c.pkg

/-- On a ring, flit `c` lets flit `o` go first (R327): SYNC before ATOM before BULK, but for a BULK flit once SYNC and ATOM
have had their 16 flit times; among BULK flits the path whose turn is longest ago. -/
def State.letsFirst (s : State) (k r : Nat) (c o : Contender) : Bool :=
  let spent := decide (16 ≤ s.urgentOn k r)
  s.serves k r o &&
    if o.cls = 2 then
      if c.cls = 2 then decide (s.fab.turn k r o < s.fab.turn k r c) else spent
    else if c.cls = 2 then !spent else decide (o.cls < c.cls)

/-- The ring that takes a flit: on the first plane after the one that the path used last (R326), a ring that no other flit
claims first. -/
def State.pickRing (s : State) (c : Contender) : Option (Nat × Nat) :=
  let os := s.contenders.filter fun o => o != c
  let usable := fun (k r : Nat) =>
    s.serves k r c && s.fitsSlot k && decide (s.fab.ringFree k r < 100 * (s.now + 1)) &&
      !(os.any fun o => s.letsFirst k r c o)
  (List.range 16).findSome? fun i =>
    let k := ((s.die.win.path c.path).plane + 1 + i) % 16
    ((List.range 16).find? (usable k)).map fun r => (k, r)

/-- The ring that takes what waits under a key. -/
def State.ringFor (s : State) (key : Nat) : Option (Nat × Nat) := (s.contender key).bind s.pickRing

/-- A flit takes a ring. -/
def State.takeRing (s : State) (c : Contender) (g : Nat × Nat) (seq : Nat := 0) (bytes : List Byte := []) : State :=
  let till := max (100 * s.now) (s.fab.ringFree g.1 g.2) + flitTime
  let n := s.urgentOn g.1 g.2
  let w := (g.1, g.2, c.die, c.path)
  (s.modFab fun x => { x with
    flight := x.flight ++ [⟨g.1, g.2, c.die, c.peer, c.path, c.cls, seq, bytes, till⟩]
    turns := if c.cls = 2 then (x.turns.filter fun y => y != w) ++ [w] else x.turns
    urgent := if c.cls = 2 then x.urgent else SMap.put (0, 0) x.urgent (16 * g.1 + g.2) (s.ringQuantum, n + 1) }).modPath
      c.path fun t => { t with plane := g.1 }

/-- CRC-32 of the IEEE 802.3 polynomial (R325). -/
def crc32 (l : List Byte) : BitVec 32 := crc32With 0xEDB88320#32 l

/-- The 256 bytes of a BULK flit and of an ATOM flit with some body (R325); the body of an ATOM flit has the layout of a
BULK flit's with one unit (log 9). -/
def bulkBytes (body : List Byte) : List Byte := 0x3C#8 :: body ++ Config.rsCheck body
def atomBytes (body : List Byte) : List Byte :=
  let l := body ++ List.replicate 11 0#8
  0xC3#8 :: l ++ natBytes (crc32 l).toNat 4

/-- A flit of a path leaves on a ring: its body takes the next SEQ, and it awaits its acknowledgement. -/
def State.launchFlit (s : State) (c : Contender) (g : Nat × Nat) (ids : List Nat) (body : List Byte) : State :=
  let n := (s.die.win.path c.path).seqOut
  let l := natBytes n 4 ++ body.drop 4
  let bs := if c.cls = 1 then atomBytes l else bulkBytes l
  (s.takeRing c g n bs).modPath c.path fun t =>
    { t with
      unacked := t.unacked ++ [({ seq := n, peer := c.peer, ids := ids, bytes := bs } : Sent)]
      seqOut := (n + 1) % 2 ^ 32 }

/-- The body of the flit that some entries of the commit buffer make for a peer. -/
def State.entryBody (s : State) (p : Nat) (es : List CbEntry) : List Byte :=
  match es.head?.bind fun e => e.unsent p with
  | some c => flitBody 0 (s.gdie s.cur) c.die c.wid (((es.head?).map CbEntry.stamp).getD 0 % 2 ^ 32) (es.filterMap CbEntry.unit)
  | none => []

/-- The next flit of a peer's entries leaves on a ring. -/
def State.sendEntries (s : State) (p : Nat) (c : Contender) (g : Nat × Nat) : State :=
  let es := nextFlit p (s.toSend p)
  (s.launchFlit c g (es.map (·.id)) (s.entryBody p es)).markSent p (es.map (·.id))

/-- Replay a flit of a path, if a ring takes it (R325, R342). -/
def State.sendReplay (s : State) (key : Nat) : State :=
  let retry := s.after 1 .flitSend (.send key)
  match s.contender key, (s.die.win.path (key - 1024)).replay with
    | some c, some x => match s.pickRing c with
      | none => retry
      | some g =>
        let s := (s.takeRing { c with peer := x.peer } g x.seq x.bytes).modPath c.path fun t =>
          { t with unacked := t.unacked.map fun y => if y.seq = x.seq then { y with again := false } else y }
        if (s.die.win.path c.path).replay = none then s else s.after 1 .flitSend (.send key)
    | _, _ => s

/-- Send a SYNC flit, if a ring takes it; it waits while its peer is disconnected. -/
def State.sendSync (s : State) (key : Nat) : State :=
  let retry := s.after 1 .flitSend (.send key)
  match s.contender key with
    | none => if 512 ≤ key ∧ ((s.peerEntry (key - 512)).map wmState) = some 2 then retry else s
    | some c => match s.pickRing c with
      | none => retry
      | some g =>
        -- an epoch's flit leaves: the flits of the epoch may follow
        let e := s.peerEntry (key - 512)
        (s.takeRing c g).modPath (if 512 ≤ key ∧ key < 768 then 8 * c.pkg + (e.map wmDie).getD 0 else key) fun t =>
          { t with epoch := false }

/-- Send the next flit of a path, if a ring takes it. -/
def State.sendNext (s : State) (p : Nat) : State :=
  let retry := s.after 1 .flitSend (.send p)
  if s.unsent p = [] then s
  else if s.toSend p = [] then retry
  else if ((s.peerEntry p).map wmState) = some 2 then s.push [.instr .servicePathSequence (.send p)]
  else match s.contender p with
    | none => if ((s.peerEntry p).map wmState).any fun x => decide (2 ≤ x) then s else retry
    | some c => match s.pickRing c with
      | none => retry
      | some g => s.sendEntries p c g

/-- `FLIT_SEND` (R326). -/
def execFlitSend (s : State) : Host.Outcome State Fault Refusal :=
  match s.msg with
  | .send p => .next (if 1024 ≤ p then s.sendReplay p else if 256 ≤ p then s.sendSync p else s.sendNext p)
  | _ => .next s

/-! ### Paths in (R325, R326, R329) -/

/-- Flits that the elastic buffer of an IOD holds. -/
def State.elastic (s : State) (iod : Nat) : Nat :=
  ((s.dies.toList.map fun d =>
    (d.ord.arrived.filter fun x => x.iod == iod && x.seq % 4 == 0).length +
      (d.win.paths.map fun p => (p.2.early.filter fun x => x.2.iod == iod && x.2.seq % 4 == 0).length).sum)).sum

/-- The 64-bit value nearest to the GTC with the low 32 bits of a stamp (R325). -/
def fullStamp (gtc : Nat) (stamp : BitVec 32) : Nat :=
  let d := (stamp.toNat + 2 ^ 32 - gtc % 2 ^ 32) % 2 ^ 32
  if d < 2 ^ 31 then gtc + d else gtc + d - 2 ^ 32

/-- The SEQ of an arriving flit counted on past the modulus; none for one that the path has already had. -/
def PathSt.seqOf (t : PathSt) (seq : Nat) : Option Nat :=
  let d := (seq + 2 ^ 32 - t.seqIn % 2 ^ 32) % 2 ^ 32
  if d < 2 ^ 31 then some (t.seqIn + d) else none

/-- Release the flits that are next in the series. -/
def PathSt.release : Nat → PathSt → PathSt × List Arrived
  | 0, t => (t, [])
  | n + 1, t =>
    let now := t.early.filter fun x => x.1 == t.seqIn
    if now = [] then (t, [])
    else
      let (t', l) := PathSt.release n { t with
        seqIn := t.seqIn + 1, early := t.early.filter fun x => x.1 != t.seqIn }
      (t', now.map Prod.snd ++ l)

/-- The GTC of the first arrival of a flit that waits for an earlier one. -/
def firstEarly (l : List (Nat × Arrived)) : Option Nat :=
  l.foldl (fun m x => some (match m with
    | some y => min y x.2.phys
    | none => x.2.phys)) none

/-- What the body of a flit says (R325). -/
structure FlitBody where
  seq : Nat
  src : Nat
  tdie : DieIx
  wid : Nat
  stamp : BitVec 32
  /-- Window offset in bytes, byte mask and data of each unit. -/
  units : List (Nat × BitVec 64 × BitVec 512)
  deriving DecidableEq, Repr

/-- Decode the body of a flit; none when it breaks the layout. -/
def decodeBody (l : List Byte) : Option FlitBody :=
  let f := fun (at_ n : Nat) => bytesNat ((l.drop at_).take n)
  let nu := f 12 1
  if l.length ≠ 240 ∨ nu = 0 ∨ 3 < nu ∨ 8 ≤ f 5 1 ∨ 1024 ≤ f 6 2 ∨ f 13 1 ≠ 0 ∨ f 44 4 ≠ 0 ∨
      f (48 + 64 * nu) (64 * (3 - nu)) ≠ 0 then none
  else some
    { seq := f 0 4, src := f 4 1, tdie := ⟨f 5 1 % 8, Nat.mod_lt _ (by decide)⟩, wid := f 6 2, stamp := .ofNat 32 (f 8 4)
      units := (List.range nu).map fun k =>
        (64 * f (14 + 2 * k) 2, .ofNat 64 (f (20 + 8 * k) 8), .ofNat 512 (f (48 + 64 * k) 64)) }

/-- The body of a BULK flit that has come through: byte 0 names the class, and the body decodes. -/
def bulkBody (x : BulkFlit) : Option FlitBody := if x.head = 0x3C#8 then x.body.bind decodeBody else none

/-- The body of an ATOM flit that has come through: byte 0, the CRC over bytes 1 to 251, and one unit. -/
def atomBody (x : AtomFlit) : Option FlitBody :=
  if x.bytes.length = 256 ∧ x.bytes.headD 0 = 0xC3#8 ∧
      (crc32 ((x.bytes.drop 1).take 251)).toNat = bytesNat (x.bytes.drop 252) then
    (decodeBody ((x.bytes.drop 1).take 240)).bind fun b => if b.units.length = 1 then some b else none
  else none

/-- A flit of another package arrives on the current die: its units wait in the elastic buffer, and those that are next in
the series go on to commit. A BULK flit that the buffer cannot hold is discarded with the rest of its epoch, and the issuer
is told so (R329). -/
def State.flitIn (s : State) (src port seq : Nat) (stamp : BitVec 32) (us : List (Nat × BitVec 64 × BitVec 512)) (wid : Nat)
    (signal : Bool) : State :=
  let key := inPath src
  let t := s.die.win.path key
  match t.seqOf seq with
  | none => s
  | some n =>
    if t.lost || t.early.any (fun x => x.1 == n) then s
    else if !signal && decide (32768 ≤ s.elastic (port / 8)) then
      (s.modPath key fun t => { t with lost := true, early := [], missing := none }).syncFlit key
    else
      let st := fullStamp s.gtc stamp
      let a := st + s.die.ord.rfdly
      let mk := fun (x : (Nat × BitVec 64 × BitVec 512) × Nat) =>
        let u : RUnit :=
          { src := src, wid := wid, off := x.1.1, mask := x.1.2.1, data := x.1.2.2, stamp := st, seq := seq, signal := signal,
            cb := seq }
        (n, ({ a := a, phys := s.gtc, issuer := src, seq := 4 * n + x.2, unit := some u, iod := port / 8 } : Arrived))
      let new := us.zipIdx.map mk
      let s := new.foldl (fun s _ => s.countLate a) s
      let (t, out) := PathSt.release (t.early.length + new.length) { t with early := t.early ++ new }
      (s.modPath key fun _ => { t with missing := firstEarly t.early }).modOrd fun o =>
        { o with arrived := o.arrived ++ out }

/-- `BULK_FLIT_RECEIVE` (R325, R326): a flit that does not decode is discarded, and so is one that finds the elastic buffer
full. -/
def execBulkFlitReceive (s : State) : Host.Outcome State Fault Refusal :=
  match s.msg with
  | .bulk x =>
    match bulkBody x with
    | some f => .next (s.onDie f.tdie fun s => s.flitIn f.src x.port f.seq f.stamp f.units f.wid false)
    | none => .next s
  | _ => .next s

/-- `ATOM_FLIT_RECEIVE` (R325): one with a CRC error is not taken, and its issuer replays it. -/
def execAtomFlitReceive (s : State) : Host.Outcome State Fault Refusal :=
  match s.msg with
  | .atom x =>
    match atomBody x with
    | some f => .next (s.onDie f.tdie fun s => s.flitIn f.src x.port f.seq f.stamp f.units f.wid true)
    | none => .next s
  | _ => .next s

/-- A flit that the die has sent is lost (R325, R342): a BULK flit breaks its peer with WHY 2, an ATOM flit is replayed. -/
def State.flitLost (s : State) (g seq : Nat) : State :=
  match (s.die.win.path g).unacked.find? fun x => x.seq == seq with
  | none => s
  | some x =>
    if x.bytes.headD 0 = 0xC3#8 then
      (s.modPath g fun t =>
        { t with unacked := t.unacked.map fun y => if y.seq = seq then { y with again := true } else y }).after 1
        .flitSend (.send (1024 + g))
    else s.breakPeer x.peer 2

/-- `FLIT_LOSS_TIMEOUT` (R326, R338): at the issuer the peer breaks with WHY 2, or a lost ATOM flit is replayed; at the
target what waits for the lost flit is discarded with the rest of the epoch. -/
def execFlitLossTimeout (s : State) : Host.Outcome State Fault Refusal :=
  match s.msg with
  | .path p =>
    if p < 256 then .next (s.breakPeer p 2)
    else .next (s.modPath p fun t => { t with early := [], missing := none, lost := true })
  | .lostFlit g seq => .next (s.flitLost g seq)
  | _ => .next s

/-! ### SYNC flits (R327, R338, R340, R253) -/

/-- The acknowledged part of what a path awaits: up to and with a SEQ. -/
def ackedUpTo (seq : Nat) (l : List Sent) : List Sent :=
  match l.findIdx? fun x => x.seq == seq with
  | some i => l.take (i + 1)
  | none => []

/-- `COMMIT_ACKNOWLEDGEMENT` (R327): a target has committed its path's flits up to a SEQ. -/
def execCommitAcknowledgement (s : State) : Host.Outcome State Fault Refusal :=
  match s.msg with
  | .committed g seq =>
    let done := ackedUpTo seq (s.die.win.path g).unacked
    let s := done.foldl (fun s x => x.ids.foldl (fun s id => s.copyDone id x.peer) s) s
    .next (s.modPath g fun t => { t with unacked := t.unacked.drop done.length })
  | _ => .next s

/-- `REFUSAL_REPORT` (R338): the peer breaks with WHY 3, or with WHY 4 when the target reports that its elastic buffer has
discarded a flit (R329). -/
def execRefusalReport (s : State) : Host.Outcome State Fault Refusal :=
  match s.msg with
  | .refused p => .next (s.breakPeer p 3)
  | .discarded p => .next (s.breakPeer p 4)
  | _ => .next s

/-- `PATH_EPOCH_FLIT` (R340): the path from an issuer is numbered from 0 again, and flits of the old epoch are discarded. -/
def execPathEpochFlit (s : State) : Host.Outcome State Fault Refusal :=
  match s.msg with
  | .epoch src =>
    .next ((s.modPath (inPath src) fun _ => {}).modOrd fun o =>
      { o with arrived := o.arrived.filter fun x => !(x.issuer == src && x.iod != 2) })
  | _ => .next s

/-- The die's `REALIGN` exchange is under way. -/
def Ctx.realigning (c : Ctx) : Bool :=
  c.wait.any fun w => !w.done && match w.instr with
    | .realign _ => true
    | _ => false

/-- `TIME_EXCHANGE_FLIT` (R253): the offset to one peer package is known to every die whose exchange is under way. -/
def execTimeExchangeFlit (s : State) : Host.Outcome State Fault Refusal :=
  match s.msg with
  | .time q d => .next (s.eachDie fun s =>
      if s.ctx.realigning then s.modDie fun x => { x with offsets := (x.offsets.filter fun y => y.1 != q) ++ [(q, d)] } else s)
  | _ => .next s

/-! ### Disconnection (R336, R337) -/

/-- `PATH_DISCONNECT` (R336): the peer is disconnected, and what is unsent goes to its egress queue. -/
def execPathDisconnect (s : State) : Host.Outcome State Fault Refusal :=
  match s.msg with
  | .path p =>
    if ((s.peerEntry p).map wmState) ≠ some 1 then .next s
    else
      let n := (s.unsent p).length
      .next ((s.setPeer p 18 2 2).push (List.replicate n (.instr .servicePathSequence (.send p))))
  | _ => .next s

/-- One entry of a disconnected peer moves to the egress queue, once the service path reaches it (R337). -/
def State.egressStep (s : State) (p : Nat) : State :=
  match s.toSend p, s.peerEntry p with
  | x :: _, some e =>
    if wmState e = 1 then s.after 1 .flitSend (.send p)
    else if wmState e ≠ 2 then s
    else match x.unsent p, x.unit with
      | some c, some u =>
        let t := bitsAt e 104 32
        if s.egressRoom p c.eqleaf c.eqn t && !s.egressFree c.eqleaf (t % s.egressCap c.eqleaf c.eqn) true then
          s.after 1 .servicePathSequence (.send p)
        else s.toEgress x c u
      | _, _ => s
  | [], _ => if s.unsent p = [] then s else s.after 1 .servicePathSequence (.send p)
  | _, none => s

/-- `SERVICE_PATH_SEQUENCE` (R313): a record of an egress queue (R337), or a unit of a migration (R314). -/
def execServicePathSequence (s : State) : Host.Outcome State Fault Refusal :=
  match s.msg with
  | .send p => .next (s.egressStep p)
  | .launch leaf => .next (s.migrStep leaf)
  | _ => .next s

/-- The head record of the egress queue of a peer leaves on a ring: its bytes are the flit's body. -/
def State.sendRecord (s : State) (p : Nat) (r : EgressRec) (c : Contender) (g : Nat × Nat) : State :=
  let (s, l) := s.getRecord r.leaf r.at_
  let s := s.launchFlit c g [] (l.take 112 ++ List.replicate 128 0#8)
  let rest := (s.egressOf p).drop 1
  let head := match rest with
    | x :: _ => x.at_
    | [] => ((s.peerEntry p).map fun e => bitsAt e 104 32).getD 0
  (s.setEgress p rest).setPeer p 72 32 head

/-- Send the records of the egress queue, then the entries that have arrived since, while rings take them; when nothing is
left the peer is connected. A record whose leaf has ceased to be a frame of the queue breaks the peer (log 96). -/
def State.drainEgress (s : State) (p : Nat) : Nat → State
  | 0 => s
  | n + 1 =>
    let st := (s.peerEntry p).map wmState
    if st ≠ some 2 ∧ st ≠ some 0 then s
    else match s.egressOf p, s.egressContender p with
      | [], none => if s.unsent p = [] ∧ st = some 2 then s.setPeer p 18 2 1 else s
      | [], some c => match s.pickRing c with
        | none => s
        | some g => (s.sendEntries p c g).drainEgress p n
      | r :: _, some c =>
        if !s.egressOk p r.leaf r.at_ then s.breakPeer p 1
        else match s.pickRing c with
        | none => s
        | some g => if s.egressFree r.leaf r.at_ false then (s.sendRecord p r c g).drainEgress p n else s
      | _ :: _, none => s

/-- `PATH_RECONNECT` (R337): the egress queue goes out in order, then what has arrived since; then the peer is connected. -/
def execPathReconnect (s : State) : Host.Outcome State Fault Refusal :=
  match s.msg with
  | .path p => .next (s.drainEgress p 256)
  | _ => .next s

/-! ### The rota (R332, R333, R372, R373) -/

def Fabric.rotaSlots (f : Fabric) : Nat := bitsAt (f.rota.getD 0 0).toNat 0 16
def Fabric.rotaGuard (f : Fabric) : Nat := bitsAt (f.rota.getD 1 0).toNat 0 32

/-- Wavelength, plus 1, that slot `n` of the rotation gives a ring; 0: off. -/
def Fabric.rotaWave (f : Fabric) (n k r : Nat) : Nat :=
  let i := 256 * n + 16 * k + r
  match bitsAt (f.rota.getD (2 + i / 8) 0).toNat (8 * (i % 8)) 8 with
  | 0xFF => 0
  | w => w % 32 + 1

/-- Slot `n` of the rotation gives the path to package `q` a ring. -/
def State.slotGives (s : State) (n q : Nat) : Bool :=
  (List.range 16).any fun k => (List.range 16).any fun r =>
    s.fab.rotaWave n k r == (q + 32 - s.host.pkg) % 32 + 1

/-- A slot ends: a path whose rings did not reach in it is dark until one does (R336). -/
def State.slotOver (s : State) : State :=
  match s.fab.slotHit with
  | none => s
  | some hit =>
    let dark := (List.range 32).filter fun q => q != s.host.pkg && s.slotGives s.fab.slot q && !hit.contains q
    s.modFab fun f => { f with rotaDark := (f.rotaDark.filter fun q => !dark.contains q) ++ dark }

/-- The rota stops: every ring of the groups in rota mode is off. -/
def State.rotaHalt (s : State) : State :=
  let s := s.modFab fun f => { f with rotaOn := false, slotHit := none, rotaStop := 0, rotaDark := [] }
  (List.range 16).foldl (fun s k =>
    if s.fab.rotaMode k then s.modPort k fun p => { p with tune := [], lock := 0 } else s) s

/-- A ring takes what a slot gives it: one whose wavelength changes is dark for GUARD ticks and then locks. -/
def State.slotRing (s : State) (n k r : Nat) (again : Bool) : State :=
  let w := s.fab.rotaWave n k r
  if w = (s.fab.port k).wave r ∧ again = false then s
  else
    let s := s.modPort k fun p => { p.unlock r with tune := SMap.put 0 p.tune r w }
    if (s.fab.port k).feeds r then s.at (s.now + 2 * s.fab.rotaGuard) 0 (.ringLock k r) else s

/-- A port whose module has been reinserted rejoins (R342). -/
def State.rejoins (s : State) (k : Nat) : Bool := (s.fab.port k).back.any fun g => decide (g + 1800 ≤ s.gtc)

/-- A ring that a slot gives stands on a port without its module: a dead slot (R342). -/
def State.slotDead (s : State) (n : Nat) : Bool :=
  (List.range 16).any fun k => ((s.fab.port k).srclost || (s.fab.port k).back.isSome) &&
    (List.range 16).any fun r => s.fab.rotaWave n k r != 0

/-- A slot starts. -/
def State.slotStart (s : State) (n : Nat) : State :=
  let m := n % s.fab.rotaSlots
  let back := if m = 0 then (List.range 16).filter s.rejoins else []
  let s := back.foldl (fun s k => s.modPort k fun p => { p with back := none }) s
  let s := s.modFab fun f => { f with
    slot := m, rotaN := n + 1, slotHit := some []
    rot := if f.slotHit.isSome && m == 0 then (f.rot + 1) % 2 ^ 32 else f.rot
    deads := if s.slotDead m then min (f.deads + 1) 65535 else f.deads }
  (List.range 16).foldl (fun s k =>
    if s.fab.rotaMode k && (s.fab.port k).back.isNone then
      (List.range 16).foldl (fun s r => s.slotRing m k r (back.contains k)) s
    else s) s

/-- `ROTA_SLOT_START` (R333, R372). -/
def execRotaSlotStart (n : Nat) (s : State) : Host.Outcome State Fault Refusal :=
  if !s.fab.rotaOn || n != s.fab.rotaN then .next s
  else
    let s := s.slotOver
    if s.fab.rotaStop = 2 ∨ (s.fab.rotaStop = 1 ∧ n % s.fab.rotaSlots = 0) then .next s.rotaHalt
    else .next (s.slotStart n)

/-! ### The fabric manager and the laser modules (R331, R341, R342) -/

/-- A command breaks R328. -/
def State.fmRefused (s : State) (k r w : Nat) : Bool :=
  w == 0 || decide (32 ≤ w) || decide (16 ≤ k) || decide (16 ≤ r) ||
    (List.range 16).any fun x => x != r && (s.fab.port k).wave x == w + 1

/-- The result of a command goes to the manager with every LOCK bit (R331). -/
def State.fmReport (s : State) (c : FmCmd) (obeyed : Bool) : State :=
  s.modFab fun f => { f with reports := f.reports ++ [⟨c, obeyed, f.ports.toList.map Port.lock⟩] }

/-- The package obeys a command of the manager; none when it refuses it (R331, R328). -/
def State.fmObey (s : State) : FmCmd → Option State
  | .tune k r w =>
    if s.fab.rotaMode k || s.fmRefused k r w then none
    else some (if (s.fab.port k).wave r = w + 1 then s else s.tuneRing k r (w + 1))
  | .off k r => if s.fab.rotaMode k || decide (16 ≤ k) || decide (16 ≤ r) then none else some (s.tuneRing k r 0)
  | .gate k g =>
    if s.fab.rotaMode k || decide (16 ≤ k) then none
    else some (if g = (s.fab.port k).gate then s else s.push [.instr (.portGateWrite k g) .none])

/-- `FABRIC_MANAGER_COMMAND` (R331): a command to a port group that is not in fabric-manager mode is refused. -/
def execFabricManagerCommand (s : State) : Host.Outcome State Fault Refusal :=
  match s.msg with
  | .fm c => match s.fmObey c with
    | some t => .next (t.fmReport c true)
    | none => .next (s.fmReport c false)
  | _ => .next s

/-- The ports that a module feeds. -/
def iodPorts (iod : Fin 2) : List Nat := (List.range 8).map fun k => 8 * iod.val + k

/-- A flit in flight on a port that goes dark is lost: SYNC and ATOM flits are replayed on other planes, a BULK flit breaks
its path (R342). -/
def State.loseFlit (s : State) (f : Flight) : State :=
  if f.till ≤ 100 * s.now then s
  else s.onDie f.die fun s =>
    if f.cls ≠ 0 then s.flitLost f.path f.seq
    else if 512 ≤ f.peer ∧ f.peer < 768 then
      match s.peerEntry (f.peer - 512) with
      | some e => (s.modPath (8 * wmPkg e + wmDie e) fun t => { t with epoch := true }).syncFlit f.peer
      | none => s
    else s.syncFlit f.peer

/-- `LASER_REMOVAL` (R341, R342). -/
def execLaserRemoval (iod : Fin 2) (s : State) : Host.Outcome State Fault Refusal :=
  let s := s.modFab fun f => { f with laser := f.laser &&& ~~~(1#2 <<< iod.val) }
  if s.host.stage < 2 then .next s
  else
    let ps := iodPorts iod
    let s := ps.foldl (fun s k => s.modPort k fun p => { p with srclost := true, lock := 0, back := none }) s
    let s := (s.fab.flight.filter fun f => ps.contains f.port).foldl (fun s f => s.loseFlit f) s
    .next (s.modFab fun f => { f with flight := f.flight.filter fun x => !ps.contains x.port })

/-- A port is fed again. -/
def State.feedPort (s : State) (k : Nat) : State :=
  let s := s.modPort k fun p => { p with srclost := false }
  if s.fab.rotaMode k && s.fab.rotaOn then s.modPort k fun p => { p with back := some s.gtc } else s.relockPort k

/-- `LASER_INSERTION` (R342). -/
def execLaserInsertion (iod : Fin 2) (s : State) : Host.Outcome State Fault Refusal :=
  let s := s.modFab fun f => { f with laser := f.laser ||| (1#2 <<< iod.val) }
  if s.host.stage < 2 then .next s else .next ((iodPorts iod).foldl (fun s k => s.feedPort k) s)

/-! ### The fabric in a GTC tick (R326, R335, R336) -/

/-- `UNSYNC_TIMEOUT` (R335). -/
def execUnsyncTimeout (s : State) : Host.Outcome State Fault Refusal :=
  if s.fab.unsync then .next s
  else .next ((s.modFab fun f => { f with unsync := true }).postFault (s.gdie s.cur) faultUnsync [])

/-- The packages that rings of the package reach. -/
def State.reachSet (s : State) : List Nat :=
  if s.fab.unsync then []
  else (s.fab.ports.toList.flatMap fun p =>
    if p.gate || p.srclost then []
    else (List.range 16).filterMap fun r =>
      if p.lock.getLsbD r && p.wave r != 0 then some ((s.host.pkg + p.wave r - 1) % 32) else none).dedup

/-- Note which packages are reached in the tick. -/
def State.noteReach (s : State) : State :=
  let hit := s.reachSet
  s.modFab fun f => { f with
    flight := f.flight.filter fun x => decide (100 * s.now < x.till)
    slotHit := f.slotHit.map fun l => (l ++ hit).dedup
    rotaDark := f.rotaDark.filter fun q => !hit.contains q
    dark := (List.range 32).foldl (fun m q =>
      if hit.contains q then SMap.put 0 m q 0 else if SMap.get 0 m q = 0 then SMap.put 0 m q (s.gtc + 1) else m) f.dark }

/-- The rota that runs gives the path to a package a ring in some slot. -/
def State.rotaServes (s : State) (q : Nat) : Bool :=
  s.fab.rotaOn && (List.range s.fab.rotaSlots).any fun n => s.slotGives n q

/-- Paths to a package are disconnected (R336). -/
def State.cutOff (s : State) (q : Nat) : Bool :=
  if s.rotaServes q then s.fab.rotaDark.contains q
  else match SMap.get 0 s.fab.dark q with
    | 0 => false
    | g + 1 => decide (g + 2000 ≤ s.gtc)

/-- Peers of the die whose window-map entries have a STATE: those with a listed byte 2. -/
def State.livePeers (s : State) : List Nat :=
  let base := s.die.win.wmbase.toNat
  let bay := base / 2 ^ 24
  if 2 ^ 30 ≤ base ∨ adDie base ≠ s.cur then []
  else
    ((s.mem.cistern.dropWhile fun c => decide (c.1 / 2 ^ 24 < bay)).takeWhile fun c => c.1 / 2 ^ 24 == bay).filterMap fun c =>
      let off := (c.1 + 2 ^ 24 - base % 2 ^ 24) % 2 ^ 24
      if off < 8192 ∧ off % 32 = 2 then some (off / 32) else none

/-- Paths of the die that disconnect or reconnect in the tick, and lost flits of paths into it. -/
def State.pathWork (s : State) : List Work :=
  let out := (s.livePeers ++ s.die.win.egress.map Prod.fst).dedup.filterMap fun p =>
    match s.peerEntry p with
    | none => none
    | some e =>
      let q := wmPkg e
      if q = s.host.pkg then none
      else if wmState e = 1 ∧ s.cutOff q then some (Work.instr .pathDisconnect (.path p))
      else if (wmState e = 2 ∨ (wmState e = 0 ∧ s.egressOf p ≠ [])) ∧ s.cutOff q = false ∧ s.reachSet.contains q then
        some (.instr .pathReconnect (.path p))
      else none
  let lost := s.die.win.paths.filterMap fun x =>
    if x.2.missing.any fun g => decide (g + s.fab.dflight + s.fab.slack ≤ s.gtc) then
      some (Work.instr .flitLossTimeout (.path x.1))
    else none
  out ++ lost

/-- The shortest interval that the TREAL registers of the dies set (R335, log 97). -/
def State.treal (s : State) : Nat := s.dies.toList.foldl (fun m d => min m d.win.treal) 10000000

/-- What the fabric does in a die-clock cycle: nothing in the second cycle of a tick. -/
def State.fabricTasks (s : State) : List Task :=
  if s.half then []
  else
    let slot := if s.fab.rotaOn && decide (s.fab.slotEnd ≤ s.gtc) then [Work.instr (.rotaSlotStart s.fab.rotaN) .none] else []
    let sync := if !s.fab.unsync && decide (s.fab.lastra + s.treal < s.gtc) then [Work.instr .unsyncTimeout .none] else []
    (slot ++ sync).map (fun w => ⟨0, w⟩) ++
      (List.finRange 8).flatMap fun d => (({ s with cur := d } : State).pathWork).map fun w => ⟨d, w⟩

end Sys2Proof.Machine
end

