-- ==== Sys2Proof/Machine/Matrix.lean ====
section
/-!
DEFINITION. Matrix slots (R172 to R191) with what they make land: steps, folds, mode changes, drains and snapshots
(R44 to R49, R177).
-/

namespace Sys2Proof.Machine

/-! ### Cells -/

/-- The accumulator bank of a name: A is `false`. -/
def Mxu.acc (m : Mxu) (b : Bool) : SMap Word32 := if b then m.accb else m.acca

/-- Replace an accumulator bank. -/
def Mxu.setAcc (m : Mxu) (b : Bool) (x : SMap Word32) : Mxu := if b then { m with accb := x } else { m with acca := x }

/-- STEPA or STEPB. -/
def Mxu.steps (m : Mxu) (b : Bool) : BitVec 32 := if b then m.stepB else m.stepA

/-- Replace STEPA or STEPB. -/
def Mxu.setSteps (m : Mxu) (b : Bool) (x : BitVec 32) : Mxu := if b then { m with stepB := x } else { m with stepA := x }

/-- One row or one column of lanes; an unlisted one is zero. -/
def edgeOf (m : SMap Lane) : List Lane := (List.range 256).map (SMap.get 0 m)

/-- The map of some lanes. -/
def edgeMap (l : List Lane) : SMap Lane := (l.take 256).zipIdx.filterMap fun x => if x.1 = 0 then none else some (x.2, x.1)

/-- FPSTAT flags that the MXU sets: IV and OF (R49, R191). -/
def mxFlags (f : Flags) : Flags := { iv := f.iv, of := f.of }

/-- The default NaN of an FP32 accumulator (R49). -/
def mxNan : Nat := 0x7FC00000

/-- The accumulator with some exact terms added, rounded once (R44, R46, R49). -/
def accAdd (acc : Nat) (ts : List FV) : Nat × Flags :=
  if isNan fp32 acc then (mxNan, { iv := isSnan fp32 acc })
  else
    match sumFV .rne (unpack fp32 acc :: ts) with
    | none => (mxNan, ivFlag)
    | some v =>
      let (x, f) := roundFV fp32 .rne false v
      (x, mxFlags f)

/-- The product of two elements: none for a NaN, and whether it sets invalid (R45, R49). -/
def beatProduct (fa fb : FFmt) (x y : Nat) : Option FV × Bool :=
  if isNan fa x || isNan fb y then (none, isSnan fa x || isSnan fb y)
  else
    match mulFV (unpack fa x) (unpack fb y) with
    | some p => (some p, false)
    | none => (none, true)

/-- Elements of one lane in a format code (R34). -/
def laneElems (c : Nat) (x : Lane) : List Nat :=
  let w := elemBits c
  if w = 0 ∨ 16 < w then [] else (List.range (16 / w)).map fun m => elemAt x.toNat w m

/-- The products of one cell. -/
def cellProducts (fa fb : Nat) (a b : Lane) : List (Option FV × Bool) :=
  match ffmtOf fa, ffmtOf fb with
  | some f, some g => List.zipWith (beatProduct f g) (laneElems fa a) (laneElems fb b)
  | _, _ => []

/-- A step of one cell in the BF16, FP16 and FP8 modes (R44, R49). -/
def fpCell (fa fb : Nat) (a b : Lane) (acc : Nat) : Nat × Flags :=
  let ps := cellProducts fa fb a b
  if ps.any fun p => p.1 == none then (mxNan, { iv := ps.any (·.2) || isSnan fp32 acc })
  else accAdd acc (ps.filterMap (·.1))

/-- The exponent of the weight of P[0] for a pairing of element formats (R45). -/
def partialExp (fa fb : Nat) : Int :=
  match fa, fb with
  | 7, 7 => -2
  | 5, 5 => -18
  | 6, 6 => -10
  | _, _ => -17

/-- A finite product in units of P[0], truncated toward zero (R45). -/
def partialOf (q : Int) (s : Bool) (m : Nat) (e : Int) : Int :=
  let (n, _) := roundAt .rtz s m e q
  if s then -(n : Int) else n

/-- A step of one cell in an MX mode: what it adds to P, the flags it sets in PF, and invalid (R45). -/
def mxCell (fa fb : Nat) (a b : Lane) : Int × BitVec 3 × Bool :=
  (cellProducts fa fb a b).foldl (fun acc p =>
    match p.1 with
    | none => (acc.1, acc.2.1 ||| 1, acc.2.2 || p.2)
    | some (.fin s m e) => (acc.1 + partialOf (partialExp fa fb) s m e, acc.2)
    | some (.inf s) => (acc.1, acc.2.1 ||| (if s then 4 else 2), acc.2.2)
    | some (.nan _ _) => (acc.1, acc.2.1 ||| 1, acc.2.2)) (0, 0, false)

/-- `sel` of R47: the activation selected by a ternary digit; 0b10 is 0 (R33). -/
def ternSel (a : Byte) (t : Nat) : Int :=
  match t with
  | 1 => a.toInt
  | 3 => -a.toInt
  | _ => 0

/-- A step of one cell in ternary mode (R47). -/
def ternCell (tsel : Nat) (a b : Lane) (acc : Word32) : Word32 :=
  let t := fun (k : Nat) => bitsAt b.toNat (4 * tsel + 2 * k) 2
  acc + BitVec.ofInt 32 (ternSel (a.setWidth 8) (t 0) + ternSel ((a >>> 8).setWidth 8) (t 1))

/-- The fold of one cell (R46). -/
def foldCell (fa fb : Nat) (sa sb : Nat) (p : BitVec 48) (pf : BitVec 3) (acc : Nat) : Nat × Flags :=
  if sa = 255 ∨ sb = 255 then (mxNan, ivFlag)
  else if pf.getLsbD 0 || (pf.getLsbD 1 && pf.getLsbD 2) then (mxNan, noFlags)
  else if pf.getLsbD 1 then accAdd acc [.inf false]
  else if pf.getLsbD 2 then accAdd acc [.inf true]
  else
    let n := p.toInt
    accAdd acc [.fin (decide (n < 0)) n.natAbs (partialExp fa fb + sa + sb - 254)]

/-! ### Sets of cells -/

/-- Rows or columns whose lane is not zero. -/
def busy (l : List Lane) : List Nat := (l.zipIdx.filter fun (x : Lane × Nat) => x.1 != 0).map (·.2)

/-- An element of a lane is an infinity or a NaN. -/
def special (c : Nat) (x : Lane) : Bool :=
  match ffmtOf c with
  | some f => (laneElems c x).any fun e => match unpack f e with
    | .fin _ _ _ => false
    | _ => true
  | none => false

/-- The cells that a step may change: those of a busy row and a busy column, those of a map, and every cell when an
operand is an infinity or a NaN. A product with a zero lane is a zero, which changes no cell that holds +0. -/
def stepCells {α : Type} (fa fb : Nat) (a b : List Lane) (listed : SMap α) : List Nat :=
  if a.any (special fa) || b.any (special fb) then List.range 65536
  else ((listed.map Prod.fst) ++ (busy a).flatMap fun i => (busy b).map fun j => 256 * i + j).dedup

/-- Change the cells of a list, gathering flags. -/
def overCells (f : Nat → Word32 → Word32 × Flags) (ks : List Nat) (m : SMap Word32) : SMap Word32 × Flags :=
  ks.foldl (fun acc k =>
    let (v, fl) := f k (SMap.get 0 acc.1 k)
    (SMap.put 0 acc.1 k v, orFlags acc.2 fl)) (m, noFlags)

/-- A pair of a number and flags as an accumulator. -/
def asAcc (x : Nat × Flags) : Word32 × Flags := (.ofNat 32 x.1, x.2)

/-! ### Steps (R174, R175, R185) -/

/-- The products of a landing step (R175). -/
def Mxu.products (m : Mxu) (x : MxStep) : Mxu × Flags :=
  let row := fun (k : Nat) => x.a.getD (k / 256) 0
  let col := fun (k : Nat) => x.b.getD (k % 256) 0
  if x.fa = 8 then
    let (acc, _) := overCells (fun k v => (ternCell x.tsel (row k) (col k) v, noFlags))
      (stepCells x.fa x.fb x.a x.b ([] : SMap Word32)) (m.acc x.bank)
    let bad := x.b.any fun y => bitsAt y.toNat (4 * x.tsel) 2 == 2 || bitsAt y.toNat (4 * x.tsel + 2) 2 == 2
    (m.setAcc x.bank acc, { iv := bad })
  else if 5 ≤ x.fa ∧ x.fa ≤ 7 then
    (stepCells x.fa x.fb x.a x.b ([] : SMap Word32)).foldl (fun acc k =>
      let (n, f, iv) := mxCell x.fa x.fb (row k) (col k)
      ({ acc.1 with
         p := SMap.put 0 acc.1.p k (SMap.get 0 acc.1.p k + BitVec.ofInt 48 n)
         pf := SMap.put 0 acc.1.pf k (SMap.get 0 acc.1.pf k ||| f) }, orFlags acc.2 { iv := iv })) (m, noFlags)
  else
    let (acc, f) := overCells (fun k v => asAcc (fpCell x.fa x.fb (row k) (col k) v.toNat))
      (stepCells x.fa x.fb x.a x.b (m.acc x.bank)) (m.acc x.bank)
    (m.setAcc x.bank acc, f)

/-- The FP64 landing of a group: both banks of a cell hold one value (R48, R185). -/
def Mxu.fold64 (m : Mxu) (xa xb : List Word) : Mxu × Flags :=
  (List.range 65536).foldl (fun acc k =>
    let a := (xa.getD (k / 256) 0).toNat
    let b := (xb.getD (k % 256) 0).toNat
    let c := (SMap.get 0 acc.1.acca k).toNat * 2 ^ 32 + (SMap.get 0 acc.1.accb k).toNat
    let (v, f) := fpFma fp64 .rne false false a b c
    ({ acc.1 with
       acca := SMap.put 0 acc.1.acca k (.ofNat 32 (v / 2 ^ 32))
       accb := SMap.put 0 acc.1.accb k (.ofNat 32 v) }, orFlags acc.2 (mxFlags f))) (m, noFlags)

/-- What a landing step does to the array (R174). -/
def Mxu.land (m : Mxu) (x : MxStep) : Mxu × Flags :=
  let m := m.setSteps x.bank (m.steps x.bank + 1)
  if x.fa = 11 then
    match x.f64 with
    | some (xa, xb) => m.fold64 xa xb
    | none => (m, noFlags)
  else if x.hold then (m, noFlags)
  else m.products x

/-- A piece of an FP64 operand (R185). -/
def putPiece (m : SMap Word) (g : Nat) (l : List Lane) : SMap Word :=
  (List.range 256).foldl (fun m i =>
    SMap.put 0 m i (.ofNat 64 (setBits (SMap.get 0 m i).toNat (16 * g) 16 (l.getD i 0).toNat))) m

/-- The values of a map of FP64 operands. -/
def operands64 (m : SMap Word) : List Word := (List.range 256).map (SMap.get 0 m)

/-- A step issues in a bay with its operands; its products land two cycles later (R174, R185). -/
def State.mxIssue (s : State) (b : BayIx) (a bl : List Lane) (tsel : Nat) (hold : Bool) : State :=
  let m := (s.bayAt b).mxu
  let x : MxStep :=
    { bay := b, bank := m.act, fa := m.fa, fb := m.fb, tsel := tsel, a := a, b := bl, f64 := none, hold := hold }
  if m.fa = 11 then
    let m := if m.gpos ≤ 3 then { m with xa := putPiece m.xa m.gpos a, xb := putPiece m.xb m.gpos bl } else m
    let x := if m.gpos = 63 then { x with f64 := some (operands64 m.xa, operands64 m.xb) } else x
    (s.modMxu b fun _ => { m with gpos := (m.gpos + 1) % 64 }).pendAt (s.ctx.tl + 2) prioStep (.mxStepLanding x)
  else
    (if hold then s.modMxu b fun m => { m with gpos := (m.gpos + 1) % 64 } else s).pendAt (s.ctx.tl + 2) prioStep
      (.mxStepLanding x)

/-- One cycle of an `MX.HOLD` (R184). -/
def State.mxHoldStep (s : State) (b : BayIx) : State := s.mxIssue b [] [] 0 true

/-- A fold lands (R46, R177, R189): it writes bank ACT and then sets P and PF to zero. -/
def Mxu.fold (m : Mxu) (p : SMap (BitVec 48)) (pf : SMap (BitVec 3)) (sa sb : List Byte) : Mxu × Flags :=
  let ks := if sa.contains 255 || sb.contains 255 then List.range 65536
    else ((m.acc m.act).map (·.1) ++ p.map (·.1) ++ pf.map (·.1)).dedup
  let (acc, f) := overCells (fun k v => asAcc (foldCell m.pma m.pmb (sa.getD (k / 256) 0).toNat
    (sb.getD (k % 256) 0).toNat (SMap.get 0 p k) (SMap.get 0 pf k) v.toNat)) ks (m.acc m.act)
  ({ m.setAcc m.act acc with p := [], pf := [] }, f)

/-- The clears of an `MX.ZERO` (R186). -/
def Mxu.zero (m : Mxu) (za zb zp : Bool) : Mxu :=
  let m := if za then { m with acca := [], stepA := 0 } else m
  let m := if zb then { m with accb := [], stepB := 0 } else m
  if zp then { m with p := [], pf := [], xa := [], xb := [], gpos := 0 } else m

/-! ### Landings -/

/-- `MX_STEP_LANDING` (R174, R175). -/
def execMxStepLanding (m : MxStep) (s : State) : Host.Outcome State Fault Refusal :=
  let (x, f) := (s.bayAt m.bay).mxu.land m
  .next ((s.modMxu m.bay fun _ => x).setFlags f)

/-- `MX_MODE_PARTIAL_CLEAR` (R179): P and PF are zero, and PM is the new mode. -/
def execMxModePartialClear (bay : BayIx) (fa fb : Nat) (s : State) : Host.Outcome State Fault Refusal :=
  .next (s.modMxu bay fun m => { m with p := [], pf := [], pma := fa, pmb := fb })

/-- `MX_DRAIN_PRESENT` (R188): the row is presented with every valid bit set. -/
def execMxDrainPresent (bay : BayIx) (dst : Option Resv) (lanes : List Lane) (s : State) :
    Host.Outcome State Fault Refusal :=
  match dst with
  | some r => .next (s.present 256 r lanes (List.replicate lanes.length true))
  | none => .next (s.presentLanes bay [])

/-- `MX_SNAP_TARGET_WRITE` (R190): the target cells and their STEP counter are written. -/
def execMxSnapTargetWrite (bay : BayIx) (toB : Bool) (cells : SMap Word32) (step : BitVec 32) (s : State) :
    Host.Outcome State Fault Refusal :=
  .next (s.modMxu bay fun m => { (m.setAcc toB cells).setSteps toB step with snap := false })

/-! ### Beat-port slots (R180 to R184) -/

/-- The lanes of an operand: the head of a stream, or the edge register. -/
def State.mxOperand (s : State) (b : BayIx) (isStream : Bool) (q : BitVec 5) (edge : Mxu → SMap Lane) : List Lane :=
  if isStream then s.head b q.toNat else edgeOf (edge (s.bayAt b).mxu)

/-- `MX.PUSH` (R181). -/
def execMxPush (bays : Bays) (la lb : Bool) (qa qb : BitVec 5) (s : State) : Host.Outcome State Fault Refusal :=
  slotRun (.mxPush bays la lb qa qb) s fun s0 =>
    let s := (baysOf bays).foldl (fun s b =>
      s.later 1 (.mxEdges b (if la then some (s0.head b qa.toNat) else none)
        (if lb then some (s0.head b qb.toNat) else none))) s0
    s.eatAll (slotNames (.mxPush bays la lb qa qb))

/-- `MX.ACC` (R182). -/
def execMxAcc (bays : Bays) (sa sb : Bool) (qa qb : BitVec 5) (tsel : BitVec 2) (s : State) :
    Host.Outcome State Fault Refusal :=
  slotRun (.mxAcc bays sa sb qa qb tsel) s fun s0 =>
    let s := (baysOf bays).foldl (fun s b =>
      let a := s0.mxOperand b sa qa (·.ea)
      let bl := s0.mxOperand b sb qb (·.eb)
      (s.mxIssue b a bl tsel.toNat false).later 1
        (.mxEdges b (if sa then some a else none) (if sb then some bl else none))) s0
    s.eatAll (slotNames (.mxAcc bays sa sb qa qb tsel))

/-- `MX.SHIFT` (R183): row `k` takes EA of row `k + SH`. -/
def execMxShift (bays : Bays) (sh : BitVec 8) (sb : Bool) (qb : BitVec 5) (tsel : BitVec 2) (s : State) :
    Host.Outcome State Fault Refusal :=
  slotRun (.mxShift bays sh sb qb tsel) s fun s0 =>
    let s := (baysOf bays).foldl (fun s b =>
      let ea := (s0.bayAt b).mxu.ea
      let a := (List.range 256).map fun k => SMap.get 0 ea ((k + sh.toNat) % 256)
      let bl := s0.mxOperand b sb qb (·.eb)
      (s.mxIssue b a bl tsel.toNat false).later 1 (.mxEdges b (some a) (if sb then some bl else none))) s0
    s.eatAll (slotNames (.mxShift bays sh sb qb tsel))

/-- `MX.HOLD` (R184): its steps issue in N timeline cycles, in which the beat port is occupied. -/
def execMxHold (bays : Bays) (n : BitVec 6) (s : State) : Host.Outcome State Fault Refusal :=
  slotRun (.mxHold bays n) s fun s0 =>
    (baysOf bays).foldl (fun s b =>
      let s := s.modMxu b fun m => { m with holdEnd := s0.ctx.tl + n.toNat + 1 }
      (List.range (n.toNat + 1)).foldl (fun s k => s.later (k + 1) (.mxHoldStep b) prioFree) s) s0

/-! ### Control-port slots (R178, R179, R186 to R190) -/

/-- The row that a drain reads (R188). -/
def State.drainRow (s : State) (b : BayIx) (auto : Bool) (r : BitVec 6) (row : BitVec 8) : Nat :=
  if auto then (s.bayAt b).mxu.dptr else ((s.rs r).toNat % 256 + row.toNat) % 256

/-- `MX.DRAIN` (R188). -/
def execMxDrain (bays : Bays) (qd : BitVec 5) (bank clr auto : Bool) (sr : BitVec 6) (row : BitVec 8) (s : State) :
    Host.Outcome State Fault Refusal :=
  slotRun (.mxDrain bays qd bank clr auto sr row) s fun s0 =>
    (baysOf bays).foldl (fun s b =>
      let r := s0.drainRow b auto sr row
      let acc := (s0.bayAt b).mxu.acc bank
      let lanes := lanes32 ((List.range 256).map fun j => SMap.get 0 acc (256 * r + j))
      let (s, res) := s.reserve b qd.toNat
      let s := s.pendAt (s0.ctx.tl + 4) prioReg (.mxDrainPresent b (some res) lanes)
      let s := s.modMxu b fun m => { m with dptr := (r + 1) % 256 }
      if clr then s.later 1 (.mxRow b bank true r) prioRowClear else s) s0

/-- `MX.ZERO` (R186). -/
def execMxZero (bays : Bays) (za zb zp : Bool) (s : State) : Host.Outcome State Fault Refusal :=
  slotRun (.mxZero bays za zb zp) s fun s0 =>
    (baysOf bays).foldl (fun s b => s.later 1 (.mxZero b za zb zp) prioZero) s0

/-- `MX.MODE` (R178, R179). -/
def execMxMode (bays : Bays) (fa fb : BitVec 4) (s : State) : Host.Outcome State Fault Refusal :=
  slotRun (.mxMode bays fa fb) s fun s0 =>
    (baysOf bays).foldl (fun s b =>
      (s.later 1 (.mxMode b fa.toNat fb.toNat)).pendAt (s0.ctx.tl + 2) prioMode
        (.mxModePartialClear b fa.toNat fb.toNat)) s0

/-- `MX.SCALE` (R189): the fold takes P and PF as they stand, and one entry of scales from each stream. -/
def execMxScale (bays : Bays) (qsa qsb : BitVec 5) (s : State) : Host.Outcome State Fault Refusal :=
  slotRun (.mxScale bays qsa qsb) s fun s0 =>
    let s := (baysOf bays).foldl (fun s b =>
      let m := (s0.bayAt b).mxu
      let sc := fun (q : BitVec 5) => (List.range 256).map (scaleByte (s0.head b q.toNat))
      s.later 1 (.mxFold b m.p m.pf (sc qsa) (sc qsb)) prioFold) s0
    s.eatAll (slotNames (.mxScale bays qsa qsb))

/-- `MX.SNAP` (R190). -/
def execMxSnap (bays : Bays) (fromB : Bool) (s : State) : Host.Outcome State Fault Refusal :=
  slotRun (.mxSnap bays fromB) s fun s0 =>
    (baysOf bays).foldl (fun s b =>
      let m := (s0.bayAt b).mxu
      (s.modMxu b fun m => { m with snap := true }).pendAt (s0.ctx.tl + 5) prioSnap
        (.mxSnapTargetWrite b (!fromB) (m.acc fromB) (m.steps fromB))) s0

/-- `MX.SWAP` (R187). -/
def execMxSwap (bays : Bays) (s : State) : Host.Outcome State Fault Refusal :=
  slotRun (.mxSwap bays) s fun s0 => (baysOf bays).foldl (fun s b => s.later 1 (.mxSwap b)) s0

end Sys2Proof.Machine
end

