-- ==== Sys2Proof/Machine/Scan.lean ====
section
/-!
DEFINITION. Scan slots (R163 to R171): issue, and the arithmetic of a landing.
-/

namespace Sys2Proof.Machine

/-! ### Terms -/

/-- A term of a sum or an extreme: its format code and its code; 9 is INT32. -/
abbrev Term := Nat × Nat

/-- The elements of an entry (R163). -/
def scanElemsOf (fmt : Nat) (ls : List Lane) : List Nat :=
  if fmt = 1 ∨ fmt = 2 then ls.map BitVec.toNat else (words32 ls).map BitVec.toNat

/-- The entry that elements form. -/
def scanLanes (fmt : Nat) (es : List Nat) : List Lane :=
  if fmt = 1 ∨ fmt = 2 then es.map (BitVec.ofNat 16) else lanes32 (es.map (BitVec.ofNat 32))

/-- Groups of `w` elements. -/
def groupsOf (w : Nat) : Nat → List Nat → List (List Nat)
  | 0, _ => []
  | n + 1, l => l.take w :: groupsOf w n (l.drop w)

/-- The format of a carry (R165). -/
def carryFmt (fmt : Nat) : Nat := if fmt = 9 then 9 else 0

/-- Floating format of a term. -/
def termFmt (t : Term) : FFmt := (ffmtOf t.1).getD fp32

/-- A NaN term as a quiet NaN of format `f` (R167, R40). -/
def nanTerm (f : FFmt) (t : Term) : Nat :=
  let q := quiet (termFmt t) t.2
  if termFmt t = f then q else nanMap (termFmt t) f (signOf (termFmt t) t.2) q

/-- A floating sum of terms rounded once to a format (R167). -/
def fpSum (f : FFmt) (md : RMode) (sat : Bool) (ts : List Term) : Nat × Flags :=
  match ts.find? fun t => isNan (termFmt t) t.2 with
  | some t => (nanTerm f t, { iv := ts.any fun t => isSnan (termFmt t) t.2 })
  | none =>
    match sumFV md (ts.map fun t => unpack (termFmt t) t.2) with
    | some v => roundFV f md sat v
    | none => (defaultNan f, ivFlag)

/-- The signed value of an INT32 code. -/
def int32 (x : Nat) : Int := sextNat x 32

/-- A sum of terms as an element (or as a carry, with `fmt` its format). -/
def sumTerms (fmt : Nat) (md : RMode) (sat : Bool) (ts : List Term) : Nat × Flags :=
  if fmt = 9 then
    let (x, f) := int32Of sat (ts.map fun t => int32 t.2).sum
    (x.toNat, f)
  else fpSum ((ffmtOf fmt).getD fp32) md sat ts

/-- One term lies strictly below another in the order of R167. -/
def termLess (a b : Term) : Bool :=
  if a.1 = 9 then decide (int32 a.2 < int32 b.2) else ltZ (unpack (termFmt a) a.2) (unpack (termFmt b) b.2)

/-- The extreme term of a list: the first NaN, else the first greatest or least (R167). -/
def extreme (isMax : Bool) : List Term → Term
  | [] => (9, 0)
  | t :: ts =>
    match (t :: ts).find? fun x => x.1 != 9 && isNan (termFmt x) x.2 with
    | some x => x
    | none => ts.foldl (fun m x => if (if isMax then termLess m x else termLess x m) then x else m) t

/-- A term as a code of a format: widening is exact; a carry that the element format does not hold is left open (log 17). -/
def termAs (fmt : Nat) (t : Term) : Nat :=
  if t.1 = fmt ∨ fmt = 9 then t.2
  else
    let f := (ffmtOf fmt).getD fp32
    match unpack (termFmt t) t.2 with
    | .nan _ _ => nanTerm f t
    | v =>
      let (y, fl) := roundFV f .rtz false v
      if fl = noFlags then y else Config.scanNarrow fmt (.ofNat 32 t.2)

/-- The flags of an extreme: IV for a signalling NaN term. -/
def extremeFlags (ts : List Term) : Flags := { iv := ts.any fun t => t.1 != 9 && isSnan (termFmt t) t.2 }

/-- An extreme as an element or a carry. -/
def extTerms (isMax : Bool) (fmt : Nat) (ts : List Term) : Nat × Flags :=
  let t := extreme isMax ts
  let y := termAs fmt t
  (if t.1 != 9 && isNan (termFmt t) t.2 then nanTerm ((ffmtOf fmt).getD fp32) t else y, extremeFlags ts)

/-- An integer converted to an element (R167, R41). -/
def countAs (fmt : Nat) (md : RMode) (sat : Bool) (n : Int) : Nat × Flags :=
  match ffmtOf fmt with
  | some f => roundTo f md sat (decide (n < 0)) n.natAbs 0
  | none =>
    let out := decide (n < -2147483648) || decide (2147483647 < n)
    (intCode 9 (satInt n (-2147483648) 2147483647), { iv := out && !sat, sa := out && sat })

/-- A flag element is set when any bit of it is 1 (R167). -/
def flagSet (x : Nat) : Bool := x != 0

/-- Element `a` ranks above `b` (R171): a NaN above +∞. -/
def ranksAbove (a b : Term) : Bool :=
  let nan := fun (t : Term) => t.1 != 9 && isNan (termFmt t) t.2
  if nan b then false else nan a || termLess b a

/-- Insert a position into a descending ranking; ties go to the lower position. -/
def rankInsert (x : Term × Nat) : List (Term × Nat) → List (Term × Nat)
  | [] => [x]
  | y :: l => if ranksAbove x.1 y.1 then x :: y :: l else y :: rankInsert x l

/-- Positions of a group in descending rank. -/
def ranking (ts : List Term) : List (Term × Nat) := (ts.zipIdx).foldl (fun l x => rankInsert x l) []

/-! ### One group -/

/-- What a scan makes of one group: its elements, its flags, and the carry it writes. -/
structure GroupOut where
  els : List Nat
  flags : Flags
  carry : Option Nat

/-- The results of a list of terms lists, as elements. -/
def mapTerms (f : List Term → Nat × Flags) (l : List (List Term)) : List Nat × Flags :=
  l.foldl (fun acc ts => let (y, fl) := f ts; (acc.1 ++ [y], orFlags acc.2 fl)) ([], noFlags)

/-- The prefixes of a group, each with the terms that start it. -/
def prefixes (init xs : List Term) : List (List Term) := (List.range xs.length).map fun p => init ++ xs.take (p + 1)

/-- The segments of `SCAN.SPSUM`: for each position, the terms of its sum (R168). -/
def segments (init xs : List Term) (fs : List Nat) : List (List Term) :=
  (List.range xs.length).map fun p =>
    match ((List.range (p + 1)).filter fun i => flagSet (fs.getD i 0)).getLast? with
    | some st => (xs.take (p + 1)).drop st
    | none => init ++ xs.take (p + 1)

/-- A reduction writes one value into every element (R169). -/
def reduceOut (n : Nat) (el cr : Nat × Flags) : GroupOut :=
  ⟨List.replicate n el.1, orFlags el.2 cr.2, some cr.1⟩

/-- The magnitude of a term (R169). -/
def termAbs (t : Term) : Term := (t.1, setBits t.2 ((termFmt t).eb + (termFmt t).mb) 1 0)

/-- One group of a scan (R166 to R171). `c` is the carry entry, read when the slot has CARRY. -/
def scanGroup (j : ScanJob) (c : Nat) (xs fs : List Nat) : GroupOut :=
  let cf := carryFmt j.fmt
  let init : List Term := if j.carry then [(cf, c)] else []
  let md := rmodeOf j.mode
  let ts : List Term := xs.map fun x => (j.fmt, x)
  let all := init ++ ts
  let n := xs.length
  let sum := sumTerms j.fmt md j.sat
  let sumC := sumTerms cf md j.sat
  let idx := fun (k : Nat) => countAs j.fmt md j.sat k
  match j.opc with
  | 0 =>
    let (es, f) := mapTerms sum (prefixes init ts)
    let (y, g) := sumC all
    ⟨es, orFlags f g, some y⟩
  | 1 =>
    let (es, f) := mapTerms (extTerms true j.fmt) (prefixes init ts)
    ⟨es, f, some (extTerms true cf all).1⟩
  | 2 =>
    let (es, f) := mapTerms (extTerms false j.fmt) (prefixes init ts)
    ⟨es, f, some (extTerms false cf all).1⟩
  | 3 =>
    let ss := segments init ts fs
    let (es, f) := mapTerms sum ss
    let (y, g) := sumC (ss.getLast?.getD [])
    ⟨es, orFlags f g, some y⟩
  | 4 => reduceOut n (sum all) (sumC all)
  | 5 => reduceOut n (extTerms true j.fmt all) (extTerms true cf all)
  | 6 => reduceOut n (extTerms false j.fmt all) (extTerms false cf all)
  | 7 =>
    if j.fmt = 9 then
      let m := (init.map fun t => int32 t.2) ++ xs.map fun x => ((int32 x).natAbs : Int)
      let (y, f) := int32Of j.sat (m.foldl max (m.headD 0))
      reduceOut n (y.toNat, f) (y.toNat, f)
    else
      let a := init ++ ts.map termAbs
      reduceOut n (extTerms true j.fmt a) (extTerms true cf a)
  | 8 =>
    let kept := ((xs.zip fs).filter fun x => flagSet x.2).map (·.1)
    ⟨kept ++ List.replicate (n - kept.length) 0, noFlags, none⟩
  | 9 =>
    let p := match ranking ts with
      | x :: _ => x.2
      | [] => 0
    ⟨List.replicate n (idx p).1, extremeFlags ts, none⟩
  | 10 =>
    let top := (ranking ts).take (j.k + 1)
    let es := top.map (fun x => (idx x.2).1) ++ top.map fun x => x.1.2
    ⟨es ++ List.replicate (n - es.length) 0, extremeFlags ts, none⟩
  | _ =>
    let base : Int := if j.carry then int32 c else 0
    let counts := (List.range n).map fun p => (((xs.take p).filter flagSet).length : Int)
    let (es, f) := counts.foldl (fun acc k =>
      let (y, fl) := countAs j.fmt md j.sat (base + k)
      (acc.1 ++ [y], orFlags acc.2 fl)) ([], noFlags)
    ⟨es, f, some (BitVec.ofInt 32 (base + ((xs.filter flagSet).length : Int))).toNat⟩

/-- The landing of a scan: its entry, its flags and the carry entries it writes (R164, R165). -/
def scanResult (j : ScanJob) (carry : List Word32) : List Lane × Flags × List (Nat × Word32) :=
  let xs := scanElemsOf j.fmt j.a
  let fs := scanElemsOf j.fmt j.b
  let g := xs.length / j.w
  let outs := (((groupsOf j.w g xs).zip (groupsOf j.w g (fs ++ List.replicate xs.length 0))).zipIdx).map fun x =>
    scanGroup j (carry.getD x.2 0).toNat x.1.1 x.1.2
  (scanLanes j.fmt (outs.flatMap (·.els)), outs.foldl (fun f o => orFlags f o.flags) noFlags,
    (outs.zipIdx).filterMap fun x => x.1.carry.map fun c => (x.2, BitVec.ofNat 32 c))

/-! ### The slots -/

/-- A scan slot consumes its sources and lands 6 + log2 w cycles after issue (R164). -/
def scanSlot (i : Instr) (opc : Nat) (flags : Bool) (bays : Bays) (o : ScOp) (s : State) :
    Host.Outcome State Fault Refusal :=
  slotRun i s fun s0 =>
    let qa := bitsAt o.a.toNat 0 5
    let qb := bitsAt o.b.toNat 0 5
    let s := (baysOf bays).foldl (fun s b =>
      let (s, r) := s.reserve b (bitsAt o.d.toNat 0 5)
      let mode := if o.rnd.toNat = 4 then s0.ctx.rm.toNat else o.rnd.toNat
      let j : ScanJob :=
        { opc := opc, fmt := o.fmt.toNat, w := 2 ^ (o.lw.toNat + 1), carry := o.carry, mode := mode, sat := o.sat,
          k := o.k.toNat, a := s0.head b qa, b := if flags then s0.head b qb else [], dst := some r }
      s.later ((slotNames i).lat + 1) (.scan b j)) s0
    s.eatAll (slotNames i)

/-- `SCAN.PSUM` (R166). -/
def execScanPsum (bays : Bays) (o : ScOp) (s : State) : Host.Outcome State Fault Refusal :=
  scanSlot (.scanPsum bays o) 0 false bays o s

/-- `SCAN.PMAX` (R166). -/
def execScanPmax (bays : Bays) (o : ScOp) (s : State) : Host.Outcome State Fault Refusal :=
  scanSlot (.scanPmax bays o) 1 false bays o s

/-- `SCAN.PMIN` (R166). -/
def execScanPmin (bays : Bays) (o : ScOp) (s : State) : Host.Outcome State Fault Refusal :=
  scanSlot (.scanPmin bays o) 2 false bays o s

/-- `SCAN.SPSUM` (R166). -/
def execScanSpsum (bays : Bays) (o : ScOp) (s : State) : Host.Outcome State Fault Refusal :=
  scanSlot (.scanSpsum bays o) 3 true bays o s

/-- `SCAN.RSUM` (R166). -/
def execScanRsum (bays : Bays) (o : ScOp) (s : State) : Host.Outcome State Fault Refusal :=
  scanSlot (.scanRsum bays o) 4 false bays o s

/-- `SCAN.RMAX` (R166). -/
def execScanRmax (bays : Bays) (o : ScOp) (s : State) : Host.Outcome State Fault Refusal :=
  scanSlot (.scanRmax bays o) 5 false bays o s

/-- `SCAN.RMIN` (R166). -/
def execScanRmin (bays : Bays) (o : ScOp) (s : State) : Host.Outcome State Fault Refusal :=
  scanSlot (.scanRmin bays o) 6 false bays o s

/-- `SCAN.AMAX` (R166). -/
def execScanAmax (bays : Bays) (o : ScOp) (s : State) : Host.Outcome State Fault Refusal :=
  scanSlot (.scanAmax bays o) 7 false bays o s

/-- `SCAN.CMPCT` (R166). -/
def execScanCmpct (bays : Bays) (o : ScOp) (s : State) : Host.Outcome State Fault Refusal :=
  scanSlot (.scanCmpct bays o) 8 true bays o s

/-- `SCAN.ARGMAX` (R166). -/
def execScanArgmax (bays : Bays) (o : ScOp) (s : State) : Host.Outcome State Fault Refusal :=
  scanSlot (.scanArgmax bays o) 9 false bays o s

/-- `SCAN.TOPK` (R166). -/
def execScanTopk (bays : Bays) (o : ScOp) (s : State) : Host.Outcome State Fault Refusal :=
  scanSlot (.scanTopk bays o) 10 false bays o s

/-- `SCAN.RANK` (R166). -/
def execScanRank (bays : Bays) (o : ScOp) (s : State) : Host.Outcome State Fault Refusal :=
  scanSlot (.scanRank bays o) 11 false bays o s

end Sys2Proof.Machine
end

