-- ==== Sys2Proof/Machine/Stream.lean ====
section
/-!
DEFINITION. Stream slots (R197 to R206): binding, skipping, draining, residency masks and transfers, with the arrivals
of entries (R199, R206).
-/

namespace Sys2Proof.Machine

/-! ### Shared operations -/

/-- A step in flight brings an entry to a stream. -/
def arrivesAt (b : BayIx) (q : Nat) : Instr → Bool
  | .streamEntryArrival b' q' _ => b' == b && q' == q
  | .xferDelivery b' q' _ => b' == b && q' == q
  | _ => false

/-- Discard the entries in flight to a stream (R205). -/
def State.dropArrivals (s : State) (b : BayIx) (q : Nat) : State :=
  s.modCtx fun c => { c with pend := c.pend.filter fun p => !arrivesAt b q p.instr }

/-- A step in flight without what it would present for a stream; its other effects stay. -/
def dropDst (b : BayIx) (q : Nat) : Instr → Instr
  | .timelineResultLanding (.present b' l ls v (some r) f) =>
    .timelineResultLanding (.present b' l ls v (if b' == b && r.q == q then none else some r) f)
  | .timelineResultLanding (.scan b' j) =>
    .timelineResultLanding (.scan b' (if b' == b && j.dst.any fun r => r.q == q then { j with dst := none } else j))
  | .mxDrainPresent b' (some r) ls => .mxDrainPresent b' (if b' == b && r.q == q then none else some r) ls
  | i => i

/-- Drop the results for a pour-side stream that land after the present cycle (R205): a result lands in the cycle in which
it is presented (R151). -/
def State.dropResults (s : State) (b : BayIx) (q : Nat) : State :=
  s.modCtx fun c => { c with pend := c.pend.map fun p =>
    if c.tl + 1 ≤ p.at_ then { p with instr := dropDst b q p.instr } else p }

/-- The effect of a `Q.UNBIND` at the end of its cycle (R205). -/
def State.unbind (s : State) (b : BayIx) (q : Nat) : State :=
  ((s.dropArrivals b q).dropResults b q).modStr b q fun t => { t with bound := false, queue := [], infl := 0, slip := 0 }

/-- The effect of a `Q.BIND` at the end of its cycle (R197). -/
def State.bindStream (s : State) (b : BayIx) (q port : Nat) (h : Handle) (pat : BitVec 128) (depth : Nat)
    (wrap feed : Bool) : State :=
  (s.unbind b q).modStr b q fun _ =>
    { bound := true, port := port, depth := depth, wrap := wrap, feed := feed, pat := pat, hcopy := h }

/-- The effect of a `Q.DRAIN` at the end of its cycle (R205). -/
def State.drainStream (s : State) (b : BayIx) (q : Nat) : State :=
  (s.dropArrivals b q).modStr b q fun t => { t with queue := [], infl := 0, slip := 0 }

/-- An entry arrives (R199, R206). -/
def State.arrive (s : State) (b : BayIx) (q : Nat) (e : Entry) : State :=
  s.modStr b q fun t => { t with infl := t.infl - 1, queue := t.queue ++ [e] }

/-- An entry cut or padded to a width (R206). -/
def resizeEntry (e : Entry) (w : Nat) : Entry :=
  { e with
    lanes := (e.lanes ++ List.replicate w 0).take w, nr := (e.nr ++ List.replicate w false).take w,
    marks := e.marks.filter fun x => x.1 < w }

/-- The head entry of a stream, with its flags and mark. -/
def State.headEntry (s : State) (b : BayIx) (q : Nat) : Entry :=
  match ((s.bayAt b).str q).queue with
  | e :: _ => e
  | [] => { lanes := [] }

/-- The mask of a residency test (R204). -/
def residMask (e : Entry) : BitVec 128 :=
  (List.range 128).foldl (fun m i =>
    if e.nr.getD (2 * i) false || e.nr.getD (2 * i + 1) false then m ||| (1#128 <<< i) else m) 0

/-! ### Arrivals -/

/-- `STREAM_ENTRY_ARRIVAL` (R199). -/
def execStreamEntryArrival (bay : BayIx) (q : Nat) (e : Entry) (s : State) : Host.Outcome State Fault Refusal :=
  .next (s.arrive bay q e)

/-- `XFER_DELIVERY` (R206). -/
def execXferDelivery (bay : BayIx) (q : Nat) (e : Entry) (s : State) : Host.Outcome State Fault Refusal :=
  .next (s.arrive bay q e)

/-! ### The slots -/

/-- `Q.BIND` (R197). -/
def execQBind (bays : Bays) (q : BitVec 5) (port : BitVec 4) (h : BitVec 4) (a : BitVec 6) (depth : BitVec 3)
    (wrap feed : Bool) (s : State) : Host.Outcome State Fault Refusal :=
  slotRun (.qBind bays q port h a depth wrap feed) s fun s0 =>
    let pat : BitVec 128 := s0.rs (a + 1) ++ s0.rs a
    (baysOf bays).foldl (fun s b =>
      s.later 1 (.bind b q.toNat port.toNat (s0.ctx.rh h) pat depth.toNat wrap feed)) s0

/-- `Q.UNBIND` (R205). -/
def execQUnbind (bays : Bays) (q : BitVec 5) (s : State) : Host.Outcome State Fault Refusal :=
  slotRun (.qUnbind bays q) s fun s0 => (baysOf bays).foldl (fun s b => s.later 1 (.unbind b q.toNat)) s0

/-- `Q.SKIP` (R205). -/
def execQSkip (bays : Bays) (q : BitVec 5) (n : BitVec 8) (s : State) : Host.Outcome State Fault Refusal :=
  slotRun (.qSkip bays q n) s fun s0 => (baysOf bays).foldl (fun s b => s.later 1 (.skip b q.toNat (n.toNat + 1))) s0

/-- `Q.DRAIN` (R205). -/
def execQDrain (bays : Bays) (q : BitVec 5) (s : State) : Host.Outcome State Fault Refusal :=
  slotRun (.qDrain bays q) s fun s0 => (baysOf bays).foldl (fun s b => s.later 1 (.drainQ b q.toNat)) s0

/-- `Q.RMASK` (R204). -/
def execQRmask (bays : Bays) (q : BitVec 5) (d : BitVec 3) (s : State) : Host.Outcome State Fault Refusal :=
  slotRun (.qRmask bays q d) s fun s0 =>
    (baysOf bays).foldl (fun s b => s.later 2 (.mask b d.toNat (residMask (s0.headEntry b q.toNat)) noFlags)) s0

/-- `Q.XFER` between bays (R206): every source is consumed, then each entry is on its way to its target. -/
def execQXfer (bays : Bays) (qd qs : BitVec 5) (rot : BitVec 3) (s : State) : Host.Outcome State Fault Refusal :=
  slotRun (.qXfer bays qd qs rot) s fun s0 =>
    let s := s0.eatAll (slotNames (.qXfer bays qd qs rot))
    (baysOf bays).foldl (fun s b =>
      let y := bayPlus b rot.toNat
      let e := resizeEntry (s0.headEntry b qs.toNat) (portWidth ((s0.bayAt y).str qd.toNat).port)
      (s.modStr y qd.toNat fun t => { t with infl := t.infl + 1 }).pendAt (s0.ctx.tl + 3) prioFree
        (.xferDelivery y qd.toNat e)) s

/-- `Q.XFER` that lands a span-in entry (R206). -/
def execQXferLand (bays : Bays) (qs : BitVec 5) (s : State) : Host.Outcome State Fault Refusal :=
  slotRun (.qXferLand bays qs) s fun s0 =>
    (baysOf bays).foldl (fun s b =>
      match (s0.bayAt b).spanIn with
      | [] => s
      | e :: l =>
        let (s, r) := (s.modBay b fun x => { x with spanIn := l }).reserve b qs.toNat
        s.present 960 r e.lanes (List.replicate e.lanes.length true)) s0

end Sys2Proof.Machine
end

