-- ==== Sys2Proof/Machine/Landing.lean ====
section
/-!
DEFINITION. Results at the end of their timeline cycle (R51, R60, R67, R68, R152, R164, R177), and pours reaching the
banks (R25, R26, R100, R101, R386).
-/

namespace Sys2Proof.Machine

/-! ### Vector results (R151, R152) -/

/-- Write the enabled lanes of a register file entry `r`. -/
def laneWrite (m : SMap Word32) (r : Nat) (vs : List Word32) (en : BitVec 128) : SMap Word32 :=
  (vs.zipIdx).foldl (fun m x => if en.getLsbD x.2 then SMap.put 0 m (128 * r + x.2) x.1 else m) m

/-- The number of a latch. -/
def latchIx (u : VUnit) : Nat := match u with
  | .alu => 0
  | .fma => 1
  | .trans => 2
  | .conv => 3

/-- A vector result lands: the unit's latch, its register, and the full bit of an operand-file entry. -/
def Bay.landVec (x : Bay) (u : VUnit) (dst : VDst) (vs : List Word32) (en : BitVec 128) : Bay :=
  let x := { x with k := laneWrite x.k (latchIx u) vs en }
  match dst with
  | .v r => { x with v := laneWrite x.v r vs en }
  | .o r => { x with o := laneWrite x.o r vs en, full := x.full ||| (1#8 <<< r) }
  | .none => x

/-! ### MXU results -/

/-- Write an edge register where a step loads it. -/
def edgeOr (m : SMap Lane) (l : Option (List Lane)) : SMap Lane := match l with
  | some l => edgeMap l
  | none => m

/-- A row of an accumulator bank is cleared (R188). -/
def Mxu.clearRow (m : Mxu) (bank : Bool) (row : Nat) : Mxu :=
  m.setAcc bank (SMap.clearRange (m.acc bank) (256 * row) (256 * row + 256))

/-! ### The LOST bit (R309) -/

/-- Set the LOST bit of a leaf, or of its shadow: a partial write of its word (R309). -/
def State.leafLost (s : State) (a : Nat) : State :=
  let a := s.engAddr a
  s.putWord (a / 16) [(10, SMap.get 0 s.mem.cistern (a + 10) ||| 0x80#8)] true

/-! ### Landings -/

/-- A result lands. -/
def State.landResult (s : State) (r : Result) : State :=
  match r with
  | .sreg r v f => (s.modCtx fun c => (c.unhoist r).ws r v).setFlags f
  | .preg r v f => (s.modCtx fun c => c.wp r v).setFlags f
  | .preds v => s.modCtx fun c => { c with p := v ||| 1 }
  | .hreg r v => s.modCtx fun c => c.wh r v
  | .vec b u dst vs en f => (s.modBay b fun x => x.landVec u dst vs en).setFlags f
  | .present b l0 lanes valid dst f =>
    (match dst with
     | some r => s.present l0 r lanes valid
     | none => s.presentLanes b []).setFlags f
  | .mask b m v f => (s.modBay b fun x => x.setMask (.ofNat 3 m) v).setFlags f
  | .scan b j =>
    let (ls, f, cs) := scanResult j (s.bayAt b).carry.toList
    let s := s.modBay b fun x => { x with carry := cs.foldl (fun v c => v.set! c.1 c.2) x.carry }
    (match j.dst with
     | some r => s.present 768 r ls (List.replicate ls.length true)
     | none => s).setFlags f
  | .freeO b os => s.modBay b fun x => { x with full := x.full &&& ~~~os }
  | .bind b q port h pat depth wrap feed => s.bindStream b q port h pat depth wrap feed
  | .unbind b q => s.unbind b q
  | .skip b q n => s.modStr b q fun t => t.skip n
  | .drainQ b q => s.drainStream b q
  | .mxEdges b ea eb => s.modMxu b fun m => { m with ea := edgeOr m.ea ea, eb := edgeOr m.eb eb }
  | .mxMode b fa fb => s.modMxu b fun m => { m with fa := fa, fb := fb, gpos := 0 }
  | .mxSwap b => s.modMxu b fun m => { m with act := !m.act }
  | .mxZero b za zb zp => s.modMxu b fun m => m.zero za zb zp
  | .mxRow b bank _ row => s.modMxu b fun m => m.clearRow bank row
  | .mxFold b p pf sa sb =>
    let (m, f) := (s.bayAt b).mxu.fold p pf sa sb
    (s.modMxu b fun _ => m).setFlags f
  | .mxHoldStep b => s.mxHoldStep b
  | .leafLost a => s.leafLost a

/-- `TIMELINE_RESULT_LANDING` (R67). -/
def execTimelineResultLanding (r : Result) (s : State) : Host.Outcome State Fault Refusal := .next (s.landResult r)

/-! ### Pours (R100, R101, R201, R386) -/

/-- One lane of a pour at its bank: the bank, the lane of the bank's word, and the pour lane. -/
def pourAt (p : Pour) : List (Nat × Nat × PourLane) :=
  p.lanes.filterMap fun l =>
    let o := laneOut p.stn l.lane
    let ok := match l.banks with
      | some (b0, n) => inBanks b0 n (o / 8)
      | none => true
    if ok then some (o / 8, o % 8, l) else none

/-- The lane with the lowest unit-side number of those routed into a bank decides the word (R101). -/
def lowestLane : List (Nat × Nat × PourLane) → Option PourLane
  | [] => none
  | x :: l =>
    match lowestLane l with
    | some y => if y.lane < x.2.2.lane then some y else some x.2.2
    | none => some x.2.2

/-- The bytes that the lanes of a pour write in their bank's word. -/
def pourBytes (l : List (Nat × Nat × PourLane)) : List (Nat × Byte) :=
  l.flatMap fun (x : Nat × Nat × PourLane) =>
    let v : Lane := x.2.2.v
    [(2 * x.2.1, v.setWidth 8), (2 * x.2.1 + 1, (v >>> (8 : Nat)).setWidth 8)]

/-- A pour reaches one bank: bytes that a side port has written in this cycle keep that value (R26), and a pour of all 16
bytes is a write of the whole word nevertheless (R386); poison and residency travel with a pump fill (R203, R283); a word
of a TXW granule is reflected (R322). -/
def State.pourBank (s : State) (bay : BayIx) (bank : Nat) (ls : List (Nat × Nat × PourLane)) : State :=
  match lowestLane ls with
  | none => s
  | some low =>
    let a := wordAddr s.cur.val bay.val bank low.word
    let all := pourBytes ls
    let side := fun (x : Nat × Byte) => s.sideW.contains (a + x.1)
    let whole := (List.range 16).all fun i => all.any fun x => x.1 == i
    let bs := if whole then all.map fun x => if side x then (x.1, SMap.get 0 s.mem.cistern (a + x.1)) else x
      else all.filter fun x => !side x
    let tx := granMode (s.mem.entryOf a) == 2
    let s := if all.all side then s else s.putWord (a / 16) bs true
    let pz := ls.any fun x => x.2.2.pz
    let nr := ls.any fun x => x.2.2.nr
    let s := if all.all side then s else s.modMem fun m => { m with
      pz := if pz then SMap.put false m.pz (a / 16) true else m.pz
      nr := if nr then SMap.put false m.nr (a / 16) true else m.nr }
    if tx then s.reflectPour a all else s

/-- `POUR_BANK_WRITE` (R25). -/
def execPourBankWrite (p : Pour) (s : State) : Host.Outcome State Fault Refusal :=
  let l := pourAt p
  .next (((l.map Prod.fst).dedup).foldl (fun s b => s.pourBank p.bay b (l.filter fun x => x.1 == b)) s)

end Sys2Proof.Machine
end

