-- ==== Sys2Proof/Machine/Limiter.lean ====
section
/-!
DEFINITION. Weights (R192, R399), the current limiter (R400), the freezes of reconstruction (R384, R392, R395), and the
operating points of the islands (R421).
-/

namespace Sys2Proof.Machine

/-! ### Weights of slots (R192, R399) -/

/-- How many bays a mask names. -/
def bayCount (m : Bays) : Nat := (baysOf m).length

/-- The weight of a step in a bay in the mode of its MXU. -/
def stepWeight (m : Mxu) : Nat :=
  if m.fa = 11 then 30
  else if m.fb = 10 then 21
  else if m.fa = 7 then 56
  else if 3 ≤ m.fa ∧ m.fa ≤ 6 then 52 else 48

/-- The weight of a step of `MX.HOLD`. -/
def holdWeight (m : Mxu) : Nat := if m.fa = 11 then 30 else 6

/-- The weight of an acting slot. -/
def State.slotWeight (s : State) (i : Instr) : Nat :=
  let n := slotNames i
  let k := bayCount n.bays
  let sum := fun (f : Mxu → Nat) => ((baysOf n.bays).map fun b => f (s.bayAt b).mxu).sum
  match i with
  | .mxAcc _ _ _ _ _ _ => sum stepWeight
  | .mxShift _ _ _ _ _ => sum stepWeight
  | .mxHold _ _ => sum holdWeight
  | .mxPush _ _ _ _ _ => 4 * k
  | .mxDrain _ _ _ _ _ _ _ => 12 * k
  | .mxScale _ _ _ => 10 * k
  | .mxZero _ _ _ _ => 8 * k
  | .mxSnap _ _ => 24 * k
  | .mxMode _ _ _ => k
  | .mxSwap _ => k
  | .sumpSnap _ _ _ => 4
  | .sumpRd _ _ => 4
  | .sumpClr => 4
  | _ =>
    match n.ports.head? with
    | some .control => 2
    | some .alu => 1
    | some .mul => 3
    | some .fp => 4
    | some .load => 2
    | some .store => 2
    | some .handle => 2
    | some .sync => 1
    | some .pump => 4
    | some .vAlu => 6 * k
    | some .vFma => 10 * k
    | some .vTrans => 12 * k
    | some .vConv => 5 * k
    | some .scu => 8 * k
    | some .stream => 2 * k
    | some .stencil => 2 * k
    | some .probe => 2 * k
    | some .engine => 2 * k
    | some .sump => 6 * k
    | _ => 0

/-! ### Weights of a timeline cycle (R399) -/

/-- A stream launches once a bundle has consumed what it consumes. -/
def Stream.launchesAfter (t : Stream) (eaten : Nat) : Stream := { t with queue := t.queue.drop eaten }

/-- A bay as it stands for its draw in the issue cycle of a bundle. -/
def State.drawView (s : State) (eaten : List (Nat × Nat)) (b : BayIx) : Bay :=
  let x := s.bayAt b
  { x with q := .ofFn fun q : Fin 32 =>
      (x.q.get q).launchesAfter (eaten.filter fun e => e == (b.val, q.val)).length }

/-- The draw clients of the WRs among some commands that name a bay (R284). -/
def wrClients (b : BayIx) (cmds : List Instr) : List DrawClient :=
  let l := cmds.filterMap fun i => match i with
    | .wr _ _ a => if adBay a.toNat == b then some a.toNat else none
    | _ => none
  l.zipIdx.map fun (x : Nat × Nat) => wrClient x.2 x.1

/-- The clients of the draw of a bay in a timeline cycle; streams launch in the issue cycle of a bundle only. -/
def State.cycleClients (s : State) (issue : Bool) (eaten : List (Nat × Nat)) (cmds : List Instr) (b : BayIx) :
    List DrawClient :=
  let wrs := if s.ctx.inH then [] else wrClients b cmds
  if issue then (s.drawView eaten b).clients wrs else wrs

/-- The weight of a timeline cycle beside the slots of its bundle. -/
def State.cycleWeight (s : State) (issue : Bool) (eaten : List (Nat × Nat)) (cmds : List Instr) : Nat :=
  let bays := List.finRange 8
  let holds := (bays.map fun b =>
    let m := (s.bayAt b).mxu
    (if s.ctx.tl < m.holdEnd then holdWeight m else 0) + (if m.snap then 24 else 0)).sum
  let draws := (bays.filter fun b => s.cycleClients issue eaten cmds b != []).length
  let pours := (s.ctx.pend.filter fun p => p.at_ == s.ctx.tl && match p.instr with
    | .pourBankWrite _ => true
    | _ => false).length
  s.die.err.wnow + holds + 8 * draws + 8 * pours + 3 * (if s.ctx.inH then 0 else cmds.length)

/-! ### Touches of a bank under reconstruction (R392) -/

/-- The timeline cycle touches the bank that is being rebuilt. -/
def State.touches (s : State) (dstn : Nat) (issue : Bool) (eaten : List (Nat × Nat)) (cmds : List Instr) : Bool :=
  let e := s.die.err
  e.rcBusy &&
    ((s.ctx.pend.any fun p => p.at_ == s.ctx.tl && match p.instr with
        | .pourBankWrite x => x.bay.val == e.rcBay && x.lanes.any fun l => laneOut x.stn l.lane / 8 == e.rcBank
        | _ => false) ||
      (List.finRange 8).any fun b => b.val == e.rcBay &&
        (bankWords ((s.bayAt b).stencil dstn) (s.cycleClients issue eaten cmds b)).any fun x => x.1 == e.rcBank)

/-! ### The decision before a timeline cycle (R400, R395) -/

/-- The sum of the limiter: the last 63 die-clock cycles, and the cycle to come. -/
def Err.limitSum (e : Err) (w : Nat) : Nat := e.weights.sum + w

/-- A limiter freeze took place in the last 7 die-clock cycles. -/
def Err.capped (e : Err) (now : Nat) : Bool := e.limFrz.any fun x => decide (now ≤ x + 7)

/-- The timeline cycle of weight `w` may take place now: the state with what that costs; otherwise a freeze is due. -/
def State.letIssue (s : State) (w : Nat) (touch : Bool) : State × Bool :=
  let e := s.die.err
  let above := e.limEn && decide (e.limit < e.limitSum w)
  let lim := above && !e.capped s.now
  let rc := e.freeze != 0 || (touch && !e.paid)
  if lim || rc then
    (s.modErr fun e => { e with limFrz := if lim then some s.now else e.limFrz, freeze := b2n rc, wnow := 0 }, false)
  else
    (s.modErr fun e => { e with
      overCnt := if above then min (e.overCnt + 1) (2 ^ 32 - 1) else e.overCnt
      paid := false
      wnow := w }, true)

/-- `FREEZE_CYCLE` (R395, R400): the freeze is counted for what calls for it. -/
def execFreezeCycle (s : State) : Host.Outcome State Fault Refusal :=
  .next (s.modErr fun e => { e with
    freezeCnt := if e.limFrz == some s.now then e.freezeCnt + 1 else e.freezeCnt
    rcFrz := if e.freeze != 0 then e.rcFrz + 1 else e.rcFrz
    paid := e.paid || e.freeze != 0
    freeze := 0 })

/-! ### Operating points (R421) -/

/-- The islands of a die take the operating point that firmware has set once the die is halted (R421); those of the IODs take
it at once. -/
def State.setPoints (s : State) : State :=
  let h := s.host
  if h.pointDue.all (· == none) then s
  else
    let open_ := fun (i : Fin 9) => if hi : i.val < 8 then !(s.dieAt ⟨i.val, hi⟩).running else true
    { s with host := { h with
        points := .ofFn fun i : Fin 9 => if open_ i then (h.pointDue.get i).getD (h.points.get i) else h.points.get i
        pointDue := .ofFn fun i : Fin 9 => if open_ i then none else h.pointDue.get i } }

end Sys2Proof.Machine
end

