-- ==== Sys2Proof/Machine/Stencil.lean ====
section
/-!
DEFINITION. The stencil slots and the stencil cutter (R110 to R121).
-/

namespace Sys2Proof.Machine

/-! ### The canonical stencil (R110) -/

/-- The inverse of a permutation given as a list. -/
def invPerm (pi : List Nat) : SMap Nat :=
  (pi.zipIdx).foldl (fun m x => SMap.put 0 m x.1 (x.2 + 1)) []

/-- What one level of the solve has found: the ports of the sub-networks plus 1 (an input switch with no upper port is
unmarked), and the cross switches of the two stages. -/
structure Solved where
  up : SMap Nat := []
  lo : SMap Nat := []
  cross : List (Nat × Nat) := []

/-- Follow one loop of switches from input lane `a`. -/
def solveLoop (pi : List Nat) (inv : SMap Nat) (d base : Nat) : Nat → Nat → Solved → Solved
  | 0, _, r => r
  | fuel + 1, a, r =>
    if SMap.get 0 r.up (a / 2) ≠ 0 then r
    else
      let b := pi.getD a 0
      let mate := b / 2 * 2 + (b + 1) % 2
      let a2 := SMap.get 0 inv mate - 1
      solveLoop pi inv d base fuel (a2 / 2 * 2 + (a2 + 1) % 2)
        { up := SMap.put 0 r.up (a / 2) (b / 2 + 1)
          lo := SMap.put 0 r.lo (a2 / 2) (mate / 2 + 1)
          cross := r.cross ++ (if a % 2 = 1 then [(d, base + a / 2)] else []) ++
            (if b % 2 = 1 then [(18 - d, base + b / 2)] else []) }

/-- The cross switches of the network `t` at depth `d` that realise a permutation of `2 ^ (k + 1)` ports. -/
def solveNet : Nat → Nat → Nat → List Nat → List (Nat × Nat)
  | 0, _, t, pi => if pi.getD 0 0 = 1 then [(9, t)] else []
  | k + 1, d, t, pi =>
    let n := 2 ^ (k + 2)
    let base := t * (n / 2)
    let inv := invPerm pi
    let r := (List.range (n / 2)).foldl (fun r w => solveLoop pi inv d base (n / 2) (2 * w) r) {}
    let port := fun (m : SMap Nat) => (List.range (n / 2)).map fun i => SMap.get 0 m i - 1
    r.cross ++ solveNet k (d + 1) (2 * t) (port r.up) ++ solveNet k (d + 1) (2 * t + 1) (port r.lo)

/-- Control bits as the bits of a stencil (R105). -/
def stencilOf (l : List (Nat × Nat)) : BitVec 9728 := l.foldl (fun m x => m ||| (1 <<< (512 * x.1 + x.2))) 0

/-- A lane map by output lane, completed to a permutation of the input lanes (R110). -/
def completeMap (m : List (Option Nat)) : List Nat :=
  let named := m.zipIdx.filterMap fun x => x.1.map fun i => (i, x.2)
  let freeIn := (List.range 1024).filter fun i => !named.any fun x => x.1 == i
  let freeOut := (m.zipIdx.filter fun (x : Option Nat × Nat) => x.1.isNone).map (·.2)
  let tab := (named ++ freeIn.zip freeOut).foldl (fun t x => SMap.put 0 t x.1 (x.2 + 1)) ([] : SMap Nat)
  (List.range 1024).map fun i => SMap.get 0 tab i - 1

/-- The canonical stencil of a lane map. -/
def canonical (m : List (Option Nat)) : BitVec 9728 := stencilOf (solveNet 9 0 0 (completeMap m))

/-! ### Route vectors (R112, R113) -/

/-- The pass of each entry of a route vector, with its input lane: the number of earlier entries that name the lane. -/
def passes : List Nat → SMap Nat → List (Option (Nat × Nat))
  | [], _ => []
  | r :: l, seen =>
    if r = 0xFFFF then none :: passes l seen
    else some (r, SMap.get 0 seen r) :: passes l (SMap.put 0 seen r (SMap.get 0 seen r + 1))

/-- The outcome of a cut: status, pass count, lane, and the stencil for status 1 (R115, R119). -/
def cutOutcome (rv : List Nat) (pass : Nat) (strict bad : Bool) : Nat × Nat × Nat × BitVec 9728 :=
  if bad then (4, 0, 0, 0)
  else
    match rv.findIdx? fun r => r != 0xFFFF && decide (1024 ≤ r) with
    | some j => (2, 0, j, 0)
    | none =>
      let ps := passes rv []
      let p : Nat := ps.foldl (fun m x => match x with
        | some y => max m (y.2 + 1)
        | none => m) 0
      if strict && decide (1 < p) then
        (3, p, (ps.findIdx? fun x => x.any fun y => y.2 == 1).getD 0, 0)
      else if p ≤ pass then (1, p, 0, 0)
      else (1, p, 0, canonical (ps.map fun x => match x with
        | some y => if y.2 = pass then some y.1 else none
        | none => none))

/-- The completion word (R115). -/
def cutWordOf (o : Nat × Nat × Nat × BitVec 9728) : Word := .ofNat 64 (o.1 + o.2.1 * 2 ^ 8 + o.2.2.1 * 2 ^ 32)

/-! ### The words of the cycle (R114, R118) -/

/-- Read one word through the side port, which serves nothing else in this cycle (R26): its bytes, and its error if it has
one: poisoned, and the address. The cycle of the read is fixed, whatever the read finds (R114, R118). -/
def State.sideWord (s : State) (a : Nat) : State × List Byte × Option (Bool × Nat) :=
  let (s, st, _) := (s.takeSide [a / 16]).decodeWord (a / 16) false
  (s, s.mem.wordBytes (a / 16), match st with
    | .good => none
    | .poison => some (true, a)
    | .bad => some (false, a))

/-- The cut of the die reads its word of this die-clock cycle. -/
def State.cutReads (s : State) : State :=
  match s.ctx.cut with
  | some j =>
    if j.start + 1 ≤ s.now ∧ s.now ≤ j.start + 128 then
      let (s, bs, bad) := s.sideWord (seqWord j.addr (s.now - j.start - 1))
      s.modCtx fun c => { c with cut := some { j with lanes := j.lanes ++ lanesOf bs, bad := j.bad <|> bad } }
    else s
  | none => s

/-- A stencil load, by its place in the list, reads its word of this die-clock cycle. -/
def State.ldReads (s : State) (x : LdJob × Nat) : State :=
  let j := x.1
  if j.start + 1 ≤ s.now ∧ s.now ≤ j.start + 76 then
    let (s, bs, bad) := s.sideWord (seqWord j.addr (s.now - j.start - 1))
    s.modCtx fun c => { c with lds := listSet c.lds x.2 { j with bytes := j.bytes ++ bs, bad := j.bad <|> bad } }
  else s

/-- The cut and the stencil loads of the die read their words; those of a context that halts do not go on (R117). -/
def State.stencilReads (s : State) : State :=
  if s.die.halting then s else s.ctx.lds.zipIdx.foldl (fun s x => s.ldReads x) s.cutReads

/-- The stencil work that completes at the end of this die-clock cycle, loads before the cut (R107). -/
def State.stencilDue (s : State) : List Work :=
  if s.die.halting then []
  else (s.ctx.lds.filter fun j => j.start + 80 = s.now).map (fun j => .instr .stnLdCompletion (.load j)) ++
    (s.ctx.cut.toList.filter fun j => j.start + 4096 = s.now).map fun j => .instr .stnCutCompletion (.cut j)

/-- Write a slot of a bay's stencil store; slot 0 is never written (R105). -/
def State.putStencil (s : State) (b : BayIx) (dir : Bool) (slot : Nat) (st : BitVec 9728) : State :=
  if slot % 128 = 0 then s
  else s.modBay b fun x => { x with stn := SMap.put 0 x.stn (128 * b2n dir + slot % 128) st }

/-- `STN_LD_COMPLETION` (R118). -/
def execStnLdCompletion (s : State) : Host.Outcome State Fault Refusal :=
  match s.msg with
  | .load j =>
    let s := s.modCtx fun c => { c with lds := c.lds.filter fun x => x != j }
    match j.bad with
    | some e => .next (s.modBay j.bay fun x => { x with ldErr := x.ldErr ++ [e] })
    | none => .next (s.putStencil j.bay j.dir j.slot (.ofNat 9728 (bytesNat j.bytes)))
  | _ => .next s

/-- The cutter is idle, or takes up the next cut of a bundle that issued several (log 82). -/
def State.nextCut (s : State) : State :=
  s.modCtx fun c => match c.cutq with
    | [] => { c with cut := none }
    | j :: l => { c with cut := some { j with start := s.now }, cutq := l }

/-- `STN_CUT_COMPLETION` (R114, R115): the slot, then the completion word. -/
def execStnCutCompletion (s : State) : Host.Outcome State Fault Refusal :=
  match s.msg with
  | .cut j =>
    let o := cutOutcome (j.lanes.map BitVec.toNat) j.pass j.strict j.bad.isSome
    let w := cutWordOf o
    let s := s.nextCut
    let s := if o.1 = 1 then s.putStencil j.bay j.dir j.slot o.2.2.2 else s
    let s := s.modBay j.bay fun x => { x with cutWord := w, cutNew := true, cutPasses := o.2.1, cutErr := j.bad }
    let a := j.caddr / 8 * 8
    .next (s.dropping j.drop fun s =>
      if s.engReads s.ctx.domid.toNat a then s.engWrite a (natBytes w.toNat 8)
      else s.modDie fun d => { d with engErr := true })
  | _ => .next s

/-! ### The slots -/

/-- `STN.LD` (R118). -/
def execStnLd (bays : Bays) (dir : Bool) (slot : BitVec 7) (a : BitVec 6) (s : State) :
    Host.Outcome State Fault Refusal :=
  slotRun (.stnLd bays dir slot a) s fun s0 =>
    let x := (s0.rs a).toNat
    let job := fun (b : BayIx) => LdJob.mk b dir slot.toNat (wordAddr s0.cur.val b.val (adBank x) (adWord x)) s0.now [] none
    s0.modCtx fun c => { c with lds := c.lds ++ (baysOf bays).map job }

/-- `STN.CUT` (R119). DEDUCED (log 82): the cutter holds one cut at a time, so of two cuts that one bundle starts in
different bays the second waits for the first. -/
def execStnCut (bay : BitVec 3) (dir : Bool) (slot : BitVec 7) (a c : BitVec 6) (pass : BitVec 4) (strict : Bool)
    (s : State) : Host.Outcome State Fault Refusal :=
  slotRun (.stnCut bay dir slot a c pass strict) s fun s0 =>
    let x := (s0.rs a).toNat
    let b : BayIx := ⟨bay.toNat, bay.isLt⟩
    let j : CutJob :=
      { bay := b, dir := dir, slot := slot.toNat, addr := wordAddr s0.cur.val b.val (adBank x) (adWord x),
        caddr := s0.cur.val * 2 ^ 27 + (s0.rs c).toNat % 2 ^ 27, pass := pass.toNat, strict := strict, start := s0.now }
    s0.modCtx fun k => if k.cut.isNone then { k with cut := some j } else { k with cutq := k.cutq ++ [j] }

/-- `STN.WAIT` (R120). -/
def execStnWait (bay : BitVec 3) (d : BitVec 6) (s : State) : Host.Outcome State Fault Refusal :=
  slotRun (.stnWait bay d) s fun s0 => s0.wsLater 1 d (s0.bayAt ⟨bay.toNat, bay.isLt⟩).cutWord

/-- `STN.PASSES` (R121). -/
def execStnPasses (bay : BitVec 3) (d : BitVec 6) (s : State) : Host.Outcome State Fault Refusal :=
  slotRun (.stnPasses bay d) s fun s0 =>
    s0.wsLater 1 d
      (.ofNat 64 ((s0.bayAt ⟨bay.toNat, bay.isLt⟩).cutPasses + b2n (s0.ctx.cutting bay.toNat) * 2 ^ 63))

end Sys2Proof.Machine
end

