-- ==== Sys2Proof/Machine/Seq.lean ====
section
/-!
DEFINITION. The sequencer (R22 to R29, R65, R71, R72, R76, R229, R240 to R242, R287, R422, R423): what a die does with
its issue cycle, and what the end of the cycle does.
-/

namespace Sys2Proof.Machine

/-! ### Targets and segments (R27, R76, R229) -/

/-- A fetch fault: word 1 names the target, and execution resumes at the bundle after a branch, or at the target. -/
def State.fetchFault (s : State) (t : Target) (sub off va idx : Nat) : TrapRec :=
  let r := t.fall.getD (va, idx)
  { cause := 0x07, idx := idx, va := va, aux := sub + off * 2 ^ 8, rIdx := r.2, rVa := r.1,
    stale := sub == 0x01 && s.pageStale ((va + off) / 8192) }

/-- What keeps the sequencer from its target, as far as it is known: the fault, or nothing. -/
def State.targetFault (s : State) (t : Target) : Option TrapRec :=
  let c := s.ctx
  let half := fun (va idx : Nat) (chain : Bool) => match c.half with
    | .ready g =>
      if g.va != va then none
      else match g.bad with
        | some (sub, off) => some (s.fetchFault t sub off va idx)
        | none =>
          if idx < g.bundles.length || (chain && idx == g.bundles.length) then none
          else some (s.fetchFault t 0x08 0 va idx)
    | _ => none
  if c.seg.isNone || c.segVa != t.va then
    if t.va % 128 ≠ 0 then some (s.fetchFault t 0x02 0 t.va t.idx)
    else half t.va (if t.hops = 0 then t.idx else 0) t.chain
  else if t.hops ≠ 0 || (t.chain && t.idx == c.nbun) then
    let idx := if t.hops = 0 then 0 else t.idx
    if c.nextVa = 0 then some { s.fetchFault t 0x01 0 0 0 with stale := false }
    else if c.nextVa % 128 ≠ 0 then some (s.fetchFault t 0x02 0 c.nextVa idx)
    else if t.hops ≤ 1 then half c.nextVa idx t.chain else half c.nextVa 0 true
  else if c.nbun ≤ t.idx then some (s.fetchFault t 0x08 0 t.va t.idx)
  else none

/-- Issue moves to an expanded segment, and the prefetch of its successor begins. -/
def State.enterSegment (s : State) (g : Segment) : State :=
  let s := s.modCtx fun c => { c with seg := some g, half := .empty }
  if g.next = 0 || g.next % 128 ≠ 0 then s else s.startExpand g.next

/-- How far the sequencer has come towards its next bundle. -/
inductive Fetched where
  | ready | wait | trapped
  deriving DecidableEq, Repr

/-- The inactive half holds a segment; otherwise its expansion is under way or begins. -/
def State.reach (s : State) (va : Nat) (go : State → Segment → State × Fetched) : State × Fetched :=
  match s.ctx.half with
  | .ready g => if g.va = va then go s g else (s.startExpand va, .wait)
  | .expanding v => if v = va then (s, .wait) else (s.startExpand va, .wait)
  | .empty => (s.startExpand va, .wait)

/-- Follow the target to a bundle: links of the chain are passed one by one, each a chain switch (R237). -/
def State.follow : Nat → State → State × Fetched
  | 0, s => (s, .wait)
  | n + 1, s =>
    match s.ctx.target with
    | none => (s, .ready)
    | some t =>
      match s.targetFault t with
      | some r => (s.raise r, .trapped)
      | none =>
        let c := s.ctx
        if c.seg.isNone || c.segVa != t.va then s.reach t.va fun s g => (s.enterSegment g).follow n
        else if t.hops ≠ 0 then
          s.reach c.nextVa fun s g =>
            ((s.modCtx fun c => { c.chainSwitch with target := some { t with va := g.va, hops := t.hops - 1 } }).enterSegment
              g).follow n
        else if t.chain && t.idx == c.nbun then
          (s.modCtx fun c => { c with target := some { t with idx := 0, hops := 1 } }).follow n
        else (s.modCtx fun c => { c with idx := t.idx, target := none }, .ready)

/-- NEXT of a segment, read from its header. -/
def State.headerNext (s : State) (va : Nat) : Nat :=
  if va = s.ctx.segVa then s.ctx.nextVa
  else match (s.codeRead va).2 with
    | some (bs, _) => bytesNat ((bs.drop 8).take 8)
    | none => 0

/-- Pass links of the chain from a segment. -/
def State.chainFrom (s : State) (va : Nat) : Nat → Nat
  | 0 => va
  | n + 1 => s.chainFrom (s.headerNext va) n

/-- The bundle that a target stands for, with its chain switches made (R258). -/
def State.settle (s : State) : State × Nat × Nat :=
  match s.ctx.target with
  | none => (s, s.ctx.segVa, s.ctx.idx)
  | some t =>
    let wraps := t.hops == 0 && t.chain && t.va == s.ctx.segVa && t.idx == s.ctx.nbun
    let links := if wraps then 1 else t.hops
    let idx := if wraps then 0 else t.idx
    let s := (List.range links).foldl (fun s _ => s.modCtx Ctx.chainSwitch) s
    (s, s.chainFrom t.va links, idx)

/-! ### Bundles -/

/-- The words of the bundle at which issue stands: the header and slots 1 to 15. -/
def Ctx.bundle (c : Ctx) : List Nat := match c.seg with
  | some g => g.bundles.getD c.idx []
  | none => []

def hdrHold (ws : List Nat) : Nat := bitsAt (ws.getD 0 0) 60 4
def hdrSafe (ws : List Nat) : Bool := bitAt (ws.getD 0 0) 45
def hdrBad (ws : List Nat) : Bool := bitsAt (ws.getD 0 0) 16 28 != 0 || bitAt (ws.getD 0 0) 0

/-- The slots that are not NOP, with their numbers (R57). -/
def slotsOf (ws : List Nat) : List (Nat × Nat) := ((ws.drop 1).zipIdx.map fun x => (x.2 + 1, x.1)).filter fun x => x.2 != 0

/-- A slot acts (R58). -/
def Ctx.acts (c : Ctx) (w : Nat) : Bool :=
  let (g, neg) := guardOf w
  c.rp (.ofNat 4 g) != neg

/-- The instruction of a slot; control words stand in slot 1 only, and no other class stands there (R57). -/
def slotInstr (n w : Nat) : Option Instr :=
  if (bitsAt w 61 3 == 0) != (n == 1) then none
  else match decodeSlot w with
    | .ok i => some i
    | .error _ => none

/-- The acting slots of the bundle. -/
def Ctx.acting (c : Ctx) : List (Nat × Instr) :=
  (slotsOf c.bundle).filterMap fun x => if c.acts x.2 then (slotInstr x.1 x.2).map (x.1, ·) else none

/-- The nullifier removes the bundle (R71). -/
def Ctx.removed (c : Ctx) : Bool :=
  let ws := c.bundle
  slotsOf ws != [] && !(slotsOf ws).any (fun x => c.acts x.2) && !hdrSafe ws && !isLast ws

/-! ### Traps before issue (R65, R422, R423) -/

/-- A trap record for the bundle at which issue stands. -/
def Ctx.atBundle (c : Ctx) (cause slots aux bays : Nat) : TrapRec := c.recOf ⟨cause, aux, bays⟩ slots

/-- Steps 1 to 4 of R65. -/
def Ctx.staticTrap (c : Ctx) : Option TrapRec :=
  let ws := c.bundle
  let sl := slotsOf ws
  let bad := sl.filter fun x => (slotInstr x.1 x.2).isNone
  let is := sl.filterMap fun x => (slotInstr x.1 x.2).map (x.1, ·)
  let prv := is.filter fun x => (c.privTrap x.2).isSome
  let ill := illegalSlots (is.map fun x => (x.1, slotNames x.2))
  firstOf
    [if hdrBad ws then some (c.atBundle 0x02 0 0 0) else none,
     if bad != [] then some (c.atBundle 0x02 (slotMask (bad.map Prod.fst)) 0 0) else none,
     (prv.head?.bind fun x => c.privTrap x.2).map fun t => c.atBundle t.cause (slotMask (prv.map Prod.fst)) t.aux 0,
     if ill != [] then some (c.atBundle 0x01 (slotMask ill) 0 0) else none]

/-- A trap that is due now (R422). -/
def Ctx.dueNow (c : Ctx) : Option Due := c.due.find? fun d => !c.inH || d.handler

/-- Remove the first due trap that equals one. -/
def Ctx.dropDue (c : Ctx) (d : Due) : Ctx := { c with due := c.due.erase d }

/-- The safe-point trap (R241). -/
def Ctx.safeTrap (c : Ctx) : Option TrapRec :=
  if !hdrSafe c.bundle && decide (512 ≤ c.safecnt) then some (c.atBundle 0x05 0 (min c.safecnt 1023) 0) else none

/-- Step 5 of R65: the mask names every slot found short, word 2 describes the first. -/
def Ctx.boardTrap (c : Ctx) (is : List (Nat × Instr)) : Option TrapRec :=
  let bad := is.filter fun x => (c.scoreTrap x.2).isSome
  (bad.head?.bind fun x => c.scoreTrap x.2).map fun t => c.atBundle 0x06 (slotMask (bad.map Prod.fst)) t.aux 0

/-- A debug break stands behind every other slot (R423). -/
def isDbrk : Instr → Bool
  | .dbrk _ => true
  | _ => false

/-- Items 5 and 6 of R423: the record, and the slot whose own trap it is. -/
def State.slotsTrap (s : State) (eaten : List (Nat × Nat)) (is : List (Nat × Instr)) : Option (TrapRec × Option Instr) :=
  let fail := is.findSome? fun x => (s.ctx.failedTrap x.2).map fun t =>
    (s.ctx.atBundle t.cause (slotBit x.1) t.aux t.bays, none)
  let slot := ((is.filter fun x => !isDbrk x.2) ++ is.filter fun x => isDbrk x.2).findSome? fun x =>
    (s.slotTrap eaten x.2).map fun t => (s.slotRec x.2 t x.1, some x.2)
  firstOf [fail, slot]

/-- The leaf that a command word of the active row translates through was stored by the die, and no `TLB.SYNC` has
ordered the store (R256). -/
def State.rowStale (s : State) (pos : Nat) : Bool :=
  match s.ctx.pump.active with
  | none => false
  | some t =>
    let rc := bitsAt ((t.rowAt s.ctx.pump.row).1.getD pos 0) 32 18
    let h := s.ctx.rh (.ofNat 4 (bitsAt rc 14 3))
    match geomOf h with
    | none => false
    | some (_, g) => SMap.get false s.die.stored (s.leafAddr (hBase h + bitsAt rc 0 14 / g.rows) / 16)

/-- The trap of a failing pump row (R287): the bundle, and the resumption point. -/
def State.rowTrap (s : State) (e : Nat × Nat) (x : Nat × Nat) (resume : Nat × Nat) : TrapRec :=
  { cause := e.1, idx := x.2, va := x.1, aux := e.2, rIdx := resume.2, rVa := resume.1,
    stale := e.1 == 0x09 && s.rowStale (bitsAt e.2 40 3) }

/-! ### Stalls and halts (R22, R240, R361) -/

/-- The die halts for pre-emption: it is halted 256 cycles later (R361). -/
def State.haltNow (s : State) : State :=
  (((s.modDie fun d => { d with adv := false }).modOrd fun o => { o with cbStall := 0 }).stopDie).after 256
    .preemptionHalt (.status 0)

/-- `STALL_CYCLE` (R22, R361): issue waits, and a pending pre-emption request halts the die unless a bundle's HOLD cycles
or its `EXIT` wait are under way. -/
def execStallCycle (s : State) : Host.Outcome State Fault Refusal :=
  let s := s.modErr fun e => { e with wnow := 0 }
  let c := s.ctx
  if s.die.running && c.preq && c.hold == 0 && !c.exiting && c.trap.isNone then .next s.haltNow else .next s

/-- The timeline runs on during the stall (R245, R242, R246): results and pours in flight land. The data of an RD is no
pour before its presentation, and keeps its own timeline cycle (R283). DEDUCED (log 25). -/
def State.drain (s : State) : State := s.modDie fun d => { d with adv := true }

/-- A stall; a safe one sets SAFECNT to 0 (R240, R241). -/
def State.stall (s : State) (safe : Bool) : State :=
  (if safe then s.modCtx fun c => { c with safecnt := 0 } else s).push [.instr .stallCycle .none]

/-- What the waiting slots let run on. -/
def State.drainFor (s : State) (is : List (Nat × Instr)) : State :=
  is.foldl (fun s x => match x.2 with
    | .fence _ _ _ true => if s.ctx.pend != [] then s.drain else s
    | .nmFence _ => if s.die.pump.nmc.any s.die.pump.nmcBlocked then s.drain else s
    | .fenceRc _ => if s.txFlight then s.drain else s
    | _ => s) s

/-! ### Commit-buffer entries at issue (R272) -/

/-- Words of TXW granules that the reserved entry of a producing slot covers. -/
def State.makeUnits (s : State) (n : Names) : Nat :=
  let one := fun (b : BayIx) (q : Nat) =>
    let t := (s.bayAt b).str q
    ((List.range (t.nbk + 1)).filter fun k =>
      granMode (s.mem.entryOf (wordAddr s.cur.val b.val ((t.bank0 + k) % 128) t.word)) == 2).length
  (n.make.map fun m => ((baysOf m.1).map fun b => one b m.2.1).sum).sum +
    (n.rdMake.toList.map fun q => ((baysOf n.bays).map fun b =>
      if ((s.bayAt b).str q).bound && ((s.bayAt b).str q).port == 11 then one b q else 0).sum).sum

/-- The bundle waits for commit-buffer entries. -/
def State.cbWaits (s : State) (is : List (Nat × Instr)) : Bool :=
  let need := (is.map fun x => s.makeUnits (slotNames x.2)).sum
  need != 0 && decide (s.cbFreeFor < need)

/-- `COMMIT_BUFFER_OVERFLOW` (R272): the bundle that waits at issue traps with cause 0x10. -/
def execCommitBufferOverflow (s : State) : Host.Outcome State Fault Refusal :=
  if s.die.ord.cbStall = 0 ∨ !s.die.running then .next s
  else
    let target := match s.die.ord.cb with
      | e :: _ => (match e.verb with
          | some v => (adDie v.op.ea).val
          | none => 0xFF)
      | [] => 0xFF
    .next ((s.modOrd fun o => { o with cbStall := 0 }).raise
      (s.ctx.atBundle 0x10 0 (target + s.die.ord.free % 2 ^ 12 * 2 ^ 16) 0))

/-! ### Timeline cycles (R24) -/

/-- The weight of a timeline cycle beside the slots of its bundle, with the commands of an idle run in it (R399). -/
def State.weigh (s : State) (issue : Bool) (eaten : List (Nat × Nat)) (cmds : List Instr) : Nat :=
  s.cycleWeight issue eaten cmds + 3 * s.idleCount

/-- The weight of a bundle's issue cycle. -/
def State.issueWeight (s : State) (is : List (Nat × Instr)) (eaten : List (Nat × Nat)) (cmds : List Instr) : Nat :=
  s.weigh true eaten cmds + (is.map fun x => s.slotWeight x.2).sum

/-- A timeline cycle issues a row of the active table (R278, R280). -/
def Ctx.rowDue (c : Ctx) : Bool := !c.inH && c.pump.active.isSome

/-- The first cycle of a bundle takes place. -/
def State.firstCycle (s : State) (ws : List Nat) (issued : Bool) : State :=
  s.modDie fun d => { d with
    adv := true, issued := issued, first := true, rows := d.ctx.rowDue, fills := !d.ctx.inH, pstn := pstnOf ws,
    lastB := isLast ws, ctl := false
    ctx := { d.ctx with
      noDbrk := false, safeB := false, hold := hdrHold ws, holdOf := (d.ctx.segVa, d.ctx.idx), target := none } }

/-- A slot word whose guard has been evaluated: it acts whatever the predicates become. -/
def unguarded (w : Nat) : Nat := setBits w 56 5 0

/-- Rank of a slot among those of its bundle: one that looks at a stream head runs before those that take entries, and the
control slot runs last. -/
def slotRank (n w : Nat) : Nat :=
  if n = 1 then 2
  else match slotInstr n w with
    | some (.qRmask _ _ _) => 0
    | _ => 1

/-- The acting slots of the bundle in the order in which they run: every slot reads what stood before the bundle (R24). -/
def Ctx.slotWork (c : Ctx) : List Work :=
  let l := (slotsOf c.bundle).filter fun x => c.acts x.2
  [0, 1, 2].flatMap fun k => (l.filter fun x => slotRank x.1 x.2 == k).map fun x => Work.slot (unguarded x.2) x.1

/-- An acting `DOMSW` has cleared the die before its bundle issues (R262). -/
def State.leaveDomain (s : State) : State :=
  s.ctx.acting.foldl (fun s x => match x.2 with
    | .domsw a => s.setDomain (s.domswId a)
    | _ => s) s

/-- A bundle issues: its acting slots run, then streams launch. The guards stand as they were before the bundle. -/
def State.issue (s : State) : State :=
  let ws := s.ctx.bundle
  let work := s.ctx.slotWork
  (s.leaveDomain.firstCycle ws true).push (work ++ [.draw true])

/-- A removed bundle with HOLD takes its first cycle (R72). -/
def State.passRemoved (s : State) : State :=
  let ws := s.ctx.bundle
  if s.pumpBlocks then s.pumpReady.stall false
  else match s.rowCheck false 0 with
    | .error e => s.raise (s.rowTrap e (s.ctx.segVa, s.ctx.idx) (s.ctx.segVa, s.ctx.idx))
    | .ok cmds =>
      let cmds := cmds.map Prod.snd
      match s.letIssue (s.weigh false [] cmds) (s.touches 0 false [] cmds) with
      | (s, false) => s.push [.instr .freezeCycle .none]
      | (s, true) => (s.firstCycle ws false).push [.draw false]

/-- A bundle that has met its waits and its traps: the commit buffer, the pump, its row, and the limiter. -/
def State.lastChecks (s : State) (is : List (Nat × Instr)) (eaten : List (Nat × Nat)) : State :=
  if s.cbWaits is then (s.modOrd fun o => { o with cbStall := max 1 o.cbStall }).stall false
  else
    let s := s.modOrd fun o => { o with cbStall := 0 }
    if s.pumpBlocks then s.pumpReady.stall false
    else match s.rowCheck false 0 with
      | .error e => s.raise (s.rowTrap e (s.ctx.segVa, s.ctx.idx) (s.ctx.segVa, s.ctx.idx))
      | .ok cmds =>
        let cmds := cmds.map Prod.snd
        match s.letIssue (s.issueWeight is eaten cmds) (s.touches (dstnOf s.ctx.bundle) true eaten cmds) with
        | (s, false) => s.push [.instr .freezeCycle .none]
        | (s, true) => s.issue

/-- Open sump groups of the bays in which the bundle has no acting update slot close (R218). -/
def State.closeIdleGroups (s : State) (is : List (Nat × Instr)) : State :=
  s.closeGroups fun b => !is.any fun x =>
    let n := slotNames x.2
    n.ports.contains .sump && n.bays.getLsbD b.val && n.eat != []

/-- The bundle at which issue stands is checked, and issues, waits or traps (R24, R423). -/
def State.tryIssue (s : State) : State :=
  let c := s.ctx
  let is := c.acting
  let safe := hdrSafe c.bundle || c.safeB
  let s := if safe then s.modCtx fun c => { c with safecnt := 0 } else s
  if safe && c.preq then s.haltNow
  else
    let s := s.closeIdleGroups is
    match c.dueNow.isSome, c.staticTrap with
    | false, some r => s.raise r
    | _, static =>
      let s := if static.isSome then s else is.foldl (fun s x => (s.startWait x.2).waitRead x.2) s
      let eaten := is.flatMap fun x => (slotNames x.2).eats
      let waits := if static.isSome then [] else is.flatMap fun x => s.slotWaits eaten x.2
      if waits ≠ [] then ((s.modOrd fun o => { o with cbStall := 0 }).drainFor is).stall (waits.any id)
      else match s.ctx.dueNow with
        | some d => (s.modCtx fun c => c.dropDue d).raise (s.ctx.atBundle d.cause 0 d.aux 0)
        | none =>
          match firstOf [s.ctx.safeTrap, s.ctx.boardTrap is] with
          | some r => s.raise r
          | none =>
            match s.slotsTrap eaten is with
            | some (r, i) =>
              (match i with
                | some i => s.slotReport i
                | none => s).raise r
            | none => s.lastChecks is eaten

/-- Fetch the next bundle and try to issue it; bundles that the nullifier removes at no cost are passed, however many
follow one another (R71, R72). -/
def State.attempt : Nat → State → State
  | 0, s => s.push [.instr .bundleIssue .none]
  | n + 1, s =>
    if s.ctx.restored then s.stall false
    else match s.follow 8 with
    | (s, .trapped) => s
    | (s, .wait) => s.stall false
    | (s, .ready) =>
      let c := s.ctx
      if !c.removed then s.tryIssue
      else if hdrHold c.bundle ≠ 0 then s.passRemoved
      else
        let (c', t, r) := c.backEdges 6
        let t := t.getD { va := c.segVa, idx := c.idx + 1, chain := true }
        let s := s.modCtx fun _ => { c' with target := some t, noDbrk := false }
        match r with
        | some r => s.raise r
        | none => s.attempt n

/-- `BUNDLE_ISSUE` (R24). -/
def execBundleIssue (s : State) : Host.Outcome State Fault Refusal := .next (s.attempt 1024)

/-- `HOLD_CYCLE` (R24, R25, R53): the identity pours, no draw launches, and the pump's row issues. -/
def execHoldCycle (s : State) : Host.Outcome State Fault Refusal :=
  if s.ctx.hold = 0 then .next s
  else if s.pumpBlocks then .next (s.pumpReady.stall false)
  else match s.rowCheck true s.ctx.hold with
    | .error e =>
      let (s, r) := s.settle
      .next (s.raise (s.rowTrap e s.ctx.holdOf r))
    | .ok cmds =>
      let cmds := cmds.map Prod.snd
      match s.letIssue (s.weigh false [] cmds) (s.touches 0 false [] cmds) with
      | (s, false) => .next (s.push [.instr .freezeCycle .none])
      | (s, true) =>
        .next ((s.modDie fun d => { d with
          adv := true, hcyc := true, rows := d.ctx.rowDue, fills := !d.ctx.inH, pstn := 0 }).push [.draw false])

/-- Causes of due traps that an `EXIT` wait does not take (R242). -/
def waitsForBundle (cause : Nat) : Bool := cause == 0x0E || cause == 0x12 || cause == 0x19

/-- The wait of an `EXIT` (R242): a failed store traps, results and pours land, the queues empty, and the kernel ends. -/
def State.exitWait (s : State) : State :=
  let c := s.ctx
  match c.due.find? fun d => (!c.inH || d.handler) && !waitsForBundle d.cause with
  | some d =>
    let x := c.holdOf
    (s.modCtx fun c => c.dropDue d).raise
      { cause := d.cause, idx := x.2, va := x.1, aux := d.aux, rIdx := x.2, rVa := x.1, exw := true }
  | none =>
    if c.pend ≠ [] then s.drain.stall false
    else if s.loadsDone && s.storesDone then s.push [.instr .kernelEnd .none]
    else s.stall false

/-- The issue part of a die's clock cycle. -/
def State.turn (s : State) : State :=
  let c := s.ctx
  if !s.die.running || !s.die.alive then s
  else match c.trap with
    | some r => if c.pend = [] then s.deliver r else s.drain.push [.instr .stallCycle .none]
    | none =>
      if c.hold ≠ 0 then s.push [.instr .holdCycle .none]
      else if c.exiting then s.exitWait
      else s.takeBroken.push [.instr .bundleIssue .none]

/-! ### Draws and rows (R24 steps 4 and 7) -/

/-- Draw for every bay that launches: the streams of the issue cycle of a bundle, and the data of the row's WRs. The
answers are the data of each WR in order. -/
def State.drawAll (s : State) (launch : Bool) (cmds : List Instr) : State × List (List (List Lane × Bool × Bool)) :=
  let dstn := if launch then dstnOf s.ctx.bundle else 0
  (List.finRange 8).foldl (fun acc b =>
    let (s, l) := acc
    let wrs := wrClients b cmds
    if launch then
      let (s, d) := s.drawBay dstn b wrs
      (s, l ++ [d])
    else (s, l ++ [wrs.map fun _ => (List.replicate 32 0, false, false)])) (s, [])

/-- The commands of a row as work, each WR with its data. -/
def rowWork (data : List (List (List Lane × Bool × Bool))) : List Instr → List Instr → List Work
  | _, [] => []
  | before, i :: l =>
    (match i with
     | .wr b col a =>
       let k := (before.filter fun x => match x with
         | .wr _ _ a' => adBay a'.toNat == adBay a.toNat
         | _ => false).length
       Work.instr i (.wrData (wrDataOf b col a ((data.getD (adBay a.toNat).val []).getD k (List.replicate 32 0, false, false))))
     | _ => .instr i .none) :: rowWork data (before ++ [i]) l

/-- The draws of a timeline cycle, then the commands of its row, then the pump fills that are due. -/
def State.drawPhase (s : State) (launch : Bool) : State :=
  let cmds := if s.die.rows then s.rowCmds else []
  let (s, data) := s.drawAll launch cmds
  s.push (rowWork data [] cmds)

/-- The pump fills that are due in the present cycle. -/
def State.fillPhase (s : State) : State :=
  if s.die.fills && s.ctx.pump.ret.any fun d => decide (d.due ≤ s.ctx.rtl) then s.push [.instr .pumpRdPresent .none] else s

/-! ### The end of a cycle -/

/-- The steps that land at the end of the present timeline cycle. -/
def State.landNow (s : State) : State :=
  if !s.die.adv then s
  else
    let c := s.ctx
    let now := c.pend.filter fun p => decide (p.at_ ≤ c.tl)
    (s.modCtx fun c => { c with pend := c.pend.filter fun p => decide (c.tl < p.at_) }).push
      (now.map fun p => .instr p.instr p.msg)

/-- The target after the first cycle of a bundle: the control slot's, a back-edge, or the bundle that follows. -/
def State.nextBundle (s : State) : State :=
  let c := s.ctx
  let t : Target := { va := c.segVa, idx := c.idx + 1, chain := true }
  if s.die.ctl then s
  else
    let (c', t', r) := c.backEdges 6
    let s := s.modCtx fun _ => { c' with target := some (t'.getD t) }
    match r with
    | some r => s.afterCommit r
    | none => s

/-- A branch whose target is known to fault has no effect: the fault is delivered after its bundle (R76, R258). -/
def State.branchFault (s : State) : State :=
  match s.ctx.target with
  | some t =>
    if t.fall.isNone then s
    else match s.targetFault t with
      | some r =>
        (s.modCtx fun c => { c with target := some { va := r.rVa, idx := r.rIdx }, trap := some r })
      | none => s
  | none => s

/-- A software trap resumes at the bundle that is then next; beside an `EXIT`, that is the wait of the `EXIT` (R258). -/
def State.settleTrap (s : State) : State :=
  match s.ctx.trap with
  | some r =>
    if r.cause ≠ 0x14 then s
    else if s.ctx.exiting then s.modCtx fun c => { c with trap := some { r with rIdx := r.idx, rVa := r.va, exw := true } }
    else
      let (s, va, idx) := s.settle
      s.modCtx fun c => { c with trap := some { r with rIdx := idx, rVa := va } }
  | none => s

/-- What the end of a bundle's first cycle settles; the waits of its slots are over. -/
def State.afterFirst (s : State) : State :=
  if s.die.first then (s.modCtx fun c => { c with wait := [] }).nextBundle.branchFault.settleTrap else s

/-- The counters that the timeline drives advance. -/
def Ctx.advance (c : Ctx) (adv time rows fills hcyc : Bool) : Ctx :=
  { c with
    tl := c.tl + b2n adv
    ptl := c.ptl + b2n fills
    rtl := c.rtl + b2n fills
    safecnt := if time then min (c.safecnt + 1) 1023 else c.safecnt
    hold := c.hold - b2n hcyc
    pump := if rows then c.pump.advance else c.pump }

/-- One event in order of channel and WHERE (R398). -/
def insertEvent (x : Nat × Nat × Nat) : List (Nat × Nat × Nat) → List (Nat × Nat × Nat)
  | [] => [x]
  | y :: l => if x.1 < y.1 ∨ (x.1 = y.1 ∧ x.2.2 < y.2.2) then x :: y :: l else y :: insertEvent x l

/-- KIND counts in the UE counter, in the CE counter, or in neither (R397). -/
def kindUe (k : Nat) : Bool := k == kUe || k == kNm
def kindCe (k : Nat) : Bool := k == kCe || k == kStripe || k == kLaneRet || k == kLaneUnrep || k == kHbmLast

/-- The 32 bytes of a log record (R397). -/
def logRecord (gtc chan kind count loc : Nat) : List Byte :=
  natBytes gtc 8 ++ natBytes chan 1 ++ natBytes kind 1 ++ natBytes 0 2 ++ natBytes count 4 ++ natBytes loc 8 ++ natBytes 0 8

/-- Count one event and record it (R396 to R398). -/
def State.logEvent (s : State) (x : Nat × Nat × Nat) : State :=
  let (chan, kind, loc) := x
  let add := fun (m : SMap Nat) => SMap.put 0 m chan ((SMap.get 0 m chan + 1) % 2 ^ 32)
  let s := s.modErr fun e => { e with
    ce := if kindCe kind then add e.ce else e.ce
    ue := if kindUe kind then add e.ue else e.ue }
  let e := s.die.err
  let n := if kindCe kind then SMap.get 0 e.ce chan else if kindUe kind then SMap.get 0 e.ue chan else 0
  if e.elbase ≠ 0 ∧ (e.tail + 512 - e.head) % 512 < 256 then
    (s.tabWrite e.elbase.toNat (32 * (e.tail % 256)) (logRecord s.gtc chan kind n loc)).modErr fun e =>
      { e with tail := (e.tail + 1) % 512 }
  else s.modErr fun e => { e with ovf := true, dropped := min (e.dropped + 1) (2 ^ 24 - 1) }

/-- Count and record the events of the cycle; the limiter's window moves on (R400, R401). -/
def State.endErr (s : State) : State :=
  let l := s.die.err.events.foldl (fun l x => insertEvent x l) []
  let s := l.foldl (fun s x => s.logEvent x) (s.modErr fun e => { e with events := [] })
  s.modErr fun e => { e with
    sum := (e.wnow + e.weights.sum) % 2 ^ 16
    weights := (e.wnow :: e.weights).take 63
    wnow := 0 }

/-- The end of a die-clock cycle on a die. -/
def State.retireCycle (s : State) : State :=
  let d := s.die
  let s := s.afterFirst
  let s := s.modCtx fun c => c.advance d.adv (d.first || d.hcyc) d.rows d.fills d.hcyc
  let s := s.pumpSettle.endErr
  s.push s.stencilDue

/-- The flags of a die's clock cycle are cleared. -/
def Die.startCycle (d : Die) : Die :=
  { d with adv := false, issued := false, first := false, hcyc := false, rows := false, fills := false, pstn := 0,
           lastB := false, ctl := false }

end Sys2Proof.Machine
end

