-- ==== Sys2Proof/Machine/Span.lean ====
section
/-!
DEFINITION. The span stage: the slots of a schedule (R353 to R355) and span slips (R356).
-/

namespace Sys2Proof.Machine

/-! ### Records (R353) -/

/-- Fields of a record. -/
def spSlot (r : Word) : Nat := bitsAt r.toNat 0 12
def spRefl (r : Word) : Bool := r.getLsbD 12
def spSrc (r : Word) : Nat := bitsAt r.toNat 13 8
def spBay (r : Word) : BayIx := ⟨bitsAt r.toNat 21 3, Nat.mod_lt _ (by decide)⟩
def spStream (r : Word) : Nat := bitsAt r.toNat 24 5
def spDst (r : Word) : Nat := bitsAt r.toNat 29 8
def spDstBay (r : Word) : BayIx := ⟨bitsAt r.toNat 37 3, Nat.mod_lt _ (by decide)⟩

/-- The die of the package at a rectangle index. -/
def State.rectDie (s : State) (k : Nat) : Option DieIx :=
  let c := s.ctx
  (List.finRange 8).find? fun d => decide (k < c.rectNr * c.rectNc) &&
    gridRow s.host.pkg d.val == c.rectRow + k / c.rectNc && gridCol s.host.pkg d.val == c.rectCol + k % c.rectNc

/-- The data records of which the die is the source. -/
def State.spanMine (s : State) : List Word := s.ctx.spanRecs.filter fun r => !spRefl r && s.rectDie (spSrc r) == some s.cur

/-- The die is halted, or is not running. -/
def Die.halted (d : Die) : Bool := !d.running || d.halting || !d.alive

/-- The slots of the die's records carry nothing: it is halted, it runs a trap handler (R380), or its link replaces a lane
(R391). -/
def Die.spanOff (d : Die) : Bool := d.halted || d.ctx.inH || d.err.down != []

/-! ### Slots (R355) -/

/-- Entries on their way to the span-in FIFO of a bay of a die. -/
def State.spanFlight (s : State) (d : DieIx) (b : BayIx) : Nat :=
  (s.timers.filter fun t => t.task.die == d && match t.task.work with
    | .instr (.spanEntryArrival b' _) _ => b' == b
    | _ => false).length

/-- A data slot carries nothing: SPEMPTY counts it (R370). -/
def State.spanEmpty (s : State) : State := s.modCtx fun c => { c with spEmpty := min (c.spEmpty + 1) (2 ^ 32 - 1) }

/-- `SPAN_SLOT` (R355): the slot of a data record, on its source die. -/
def execSpanSlot (r : Word) (s : State) : Host.Outcome State Fault Refusal :=
  match s.rectDie (spDst r) with
  | none => .next s.spanEmpty
  | some t =>
    let b := spBay r
    let y := (s.bayAt b).str (spStream r)
    let room := ((s.dieAt t).ctx.bayAt (spDstBay r)).spanIn.length + s.spanFlight t (spDstBay r) < 16
    match y.queue with
    | [] => .next s.spanEmpty
    | e :: _ =>
      if s.die.spanOff || (s.dieAt t).spanOff || !y.bound || y.port != 6 || !room then .next s.spanEmpty
      else
        let s := s.modStr b (spStream r) fun y => { y with queue := y.queue.drop 1, slip := 0 }
        let s := s.modErr fun e => { e with wnow := e.wnow + 2 }
        .next (s.at (s.now + 32) t (.spanEntryArrival (spDstBay r) e))

/-- `SPAN_ENTRY_ARRIVAL` (R355). -/
def execSpanEntryArrival (bay : BayIx) (e : Entry) (s : State) : Host.Outcome State Fault Refusal :=
  .next (s.modBay bay fun x => { x with spanIn := x.spanIn ++ [e] })

/-- The slots of the present die-clock cycle. -/
def State.spanWork (s : State) : List Work :=
  let n := s.spanNow s.ctx.spanN
  if s.ctx.spanN = 0 || s.die.halted then []
  else (s.spanMine.filter fun r => spSlot r == n).map fun r => .instr (.spanSlot r) .none

/-! ### Slips (R356) -/

/-- The first record that names a stream of the die. -/
def State.spanNames (s : State) (b : BayIx) (q : Nat) : Option Word :=
  s.spanMine.find? fun r => spBay r == b && spStream r == q

/-- The slip count of a stream pauses: while an end of its record carries nothing; for a stream that no record names,
while its die is halted or runs a trap handler. -/
def State.slipPaused (s : State) (r : Option Word) : Bool :=
  match r with
  | some r => s.die.spanOff || (s.rectDie (spDst r)).any fun t => (s.dieAt t).spanOff
  | none => s.die.halted || s.die.ctx.inH

/-- Count a cycle for the head entry of a stream; a slip is noted once per 2 × NSLOT cycles. -/
def State.slipCount (s : State) (b : BayIx) (q : Nat) : State :=
  let y := (s.bayAt b).str q
  if !y.bound || y.port != 6 || y.queue == [] then s
  else
    let r := s.spanNames b q
    if s.slipPaused r then s
    else if 2 * s.ctx.spanN ≤ y.slip + 1 then
      let slot := match r with
        | some r => spSlot r
        | none => s.spanNow s.ctx.spanN
      (s.modStr b q fun y => { y with slip := 0 }).push [.instr (.spanSlip b q slot) .none]
    else s.modStr b q fun y => { y with slip := y.slip + 1 }

/-- Count a cycle for every span-out stream of the die; without a schedule nothing slips. -/
def State.slipStep (s : State) : State :=
  if s.ctx.spanN = 0 then s
  else (List.finRange 8).foldl (fun s b => (List.range 32).foldl (fun s q => s.slipCount b q) s) s

/-- `SPAN_SLIP` (R356): the die's next bundle traps with cause 0x12. -/
def execSpanSlip (bay : BayIx) (q slot : Nat) (s : State) : Host.Outcome State Fault Refusal :=
  .next (s.dueTrap 0x12 (slot % 2 ^ 12 + bay.val * 2 ^ 12 + q % 32 * 2 ^ 15) false)

end Sys2Proof.Machine
end

