-- ==== Sys2Proof/Machine/Clock.lean ====
section
/-!
DEFINITION. The clocks (R10) and the order of work in one die-clock cycle (log 2): inputs, the slots of the span stage, the
turn of each die with its draws and pump row, the agents beside the timeline, the landings of the timeline, and the end
of the cycle.
-/

namespace Sys2Proof.Machine

/-! ### The GTC (R10, R253) -/

/-- One die-clock cycle passes. A tick has two cycles; slewing makes one tick in 512 a cycle shorter or longer, which is
1 tick in 1,024. -/
def State.clock (s : State) : State :=
  let s := { s with now := s.now + 1 }
  let slews := s.slew != 0 && decide (512 ≤ s.slewCnt)
  if slews && decide (s.slew < 0) && s.half then { s with slew := s.slew + 1, slewCnt := 0 }
  else if slews && decide (0 < s.slew) && !s.half then { s with gtc := s.gtc + 1, slew := s.slew - 1, slewCnt := 0 }
  else if s.half then { s with gtc := s.gtc + 1, half := false, slewCnt := s.slewCnt + 1 }
  else { s with half := true }

/-! ### The work of a cycle -/

/-- An expansion stands at the end of the cycle (R105, R107). -/
def isExpansion (t : Timer) : Bool :=
  match t.task.work with
  | .instr (.segmentExpansionDone _) _ => true
  | _ => false

/-- The same work for every die. -/
def eachTask (w : Work) : List Task := (List.finRange 8).map fun d => ⟨d, w⟩

/-- Span slots of every die. -/
def State.spanTasks (s : State) : List Task :=
  (List.finRange 8).flatMap fun d => ({ s with cur := d } : State).spanWork.map fun w => ⟨d, w⟩

/-- The entry of the command ring that the dispatcher takes next (R412, R414): one at a time, in ring order. -/
def State.ringTask (s : State) : State × List Task :=
  let h := s.host
  if !h.cren || !(h.ready || h.failsafe) || h.crhead == h.crtail || h.serving then (s, [])
  else
    let t := s.modHost fun h => { h with serving := true }
    match s.hostBytes h.entryAddr 64 with
    | some l => (t, [⟨0, .command ((List.range 8).map fun k => bytesNat ((l.drop (8 * k)).take 8))⟩])
    | none => (t.reply 4 0, [])

/-- Vector 2 fires at most once per 20,000 cycles (R411). -/
def State.vector2 (s : State) : State :=
  if s.host.v2due && decide (s.host.v2 ≤ s.now) then
    (s.modHost fun h => { h with v2due := false, v2 := s.now + 20000 }).msix 2
  else s

/-- A die-clock cycle begins. -/
def State.tick (s : State) : State :=
  let s := s.clock.vector2
  let s := if s.half then s else s.noteReach
  let (s, ring) := s.ringTask
  let s := { s with dies := s.dies.map Die.startCycle, sideW := [], sideB := [] }
  let due := fun (x : Timer) => decide (x.at_ ≤ s.now)
  let ts := s.timers.filter due
  let is := s.inputs.filter due
  let keep := fun (x : Timer) => decide (s.now < x.at_)
  { s with
    timers := s.timers.filter keep
    inputs := s.inputs.filter keep
    todo := is.map Timer.task ++ ring ++ s.fabricTasks ++ s.spanTasks ++ eachTask .turn ++ eachTask .side ++
      eachTask .agents ++ (ts.filter fun x => !isExpansion x).map Timer.task ++ eachTask .land ++ (ts.filter isExpansion).map Timer.task ++
      eachTask .retire }

/-- What goes on beside issue, and the quantum boundary of the die, which comes before every other use of the side ports
(R266). -/
def State.sidePhase (s : State) : State :=
  if !s.die.alive then s
  else
    let s := s.arrivals.waitStep
    s.push s.quantumWork

/-- The agents of a die beside the timeline. -/
def State.agentPhase (s : State) : State :=
  if !s.die.alive then s else s.setPoints.stencilReads.stageStep.idleStep.slipStep.fillPhase

/-! ### One piece of work -/

/-- A slot word that runs: the instruction of an acting slot. A word that holds none traps (R62). -/
def State.takeSlot (s : State) (w n : Nat) : State × Option Instr :=
  let s := { s with slot := n, msg := .none }
  if w = 0 then (s, some .nop)
  else if !s.ctx.acts w then (s, none)
  else match slotInstr n w with
    | some i => (s, some i)
    | none => (s.slotRaise ⟨0x02, 0, 0⟩, none)

/-- A pump word that runs; one that holds no command traps (R223). -/
def State.takePump (s : State) (w : Nat) (half : Option Nat) : State × Option Instr :=
  let s := { s with msg := .none }
  match decodePump w half with
  | .ok i => (s, some i)
  | .error _ => (s.raise (s.ctx.recOf ⟨0x02, pumpAux s.ctx.pump.row (rawBank w) 0 0 false 0 false, 0⟩ 0), none)

/-- A host command that runs; one that does not decode is malformed (R414), or refused in failsafe unless it is one that
failsafe serves (R418). -/
def State.takeCommand (s : State) (ws : List Nat) : State × Option Instr :=
  match decodeCommand ws with
  | .ok i => ({ s with msg := .none }, some i)
  | .error _ =>
    let opc := ws.headD 0 % 256
    let served := opc == 6 || opc == 7 || opc == 9
    (s.reply (if s.host.failsafe && !served then 2 else 1) 0, none)

/-- Take the next piece of work: the state, and the instruction to run in it. -/
def State.take (s : State) : State × Option Instr :=
  match s.todo with
  | [] => (s.tick, none)
  | t :: l =>
    let s := { s with todo := l, cur := t.die }
    match t.work with
    | .instr i m => ({ s with msg := m }, some i)
    | .slot w n => s.takeSlot w n
    | .pump w half => s.takePump w half
    | .command ws => s.takeCommand ws
    | .turn => (s.turn, none)
    | .draw launch => (s.drawPhase launch, none)
    | .side => (s.sidePhase, none)
    | .agents => (s.agentPhase, none)
    | .land => (s.landNow, none)
    | .retire => (s.retireCycle, none)

/-- An instruction as work: up to 64 bits a slot word, in slot 1 when its class is control (R57), up to 128 a near-memory
command of two halves, more a 64-byte entry of the command ring. -/
def workOf (nbits w : Nat) : Work :=
  if nbits ≤ 64 then .slot w (if bitsAt w 61 3 = 0 ∧ w ≠ 0 then 1 else 2)
  else if nbits ≤ 128 then .pump (bitsAt w 0 64) (some (bitsAt w 64 64))
  else .command ((List.range 8).map fun k => bitsAt w (64 * k) 64)

/-- The state whose next step runs the instruction: the load of a program from outside stands for it (log 2). -/
def State.withFetchWord (s : State) (nbits w : Nat) : State := { s with todo := ⟨s.cur, workOf nbits w⟩ :: s.todo }

end Sys2Proof.Machine
end

