-- ==== Sys2Proof/Machine/Crypto.lean ====
section
/-!
DEFINITION. The algorithms that the spec names for firmware images and attestation reports (R419, R421): SHA-384 and SHA-256,
ECDSA over P-384, and LMS with LM-OTS of width 4. They are those of the standards of these names (PRESUMED, log 101).
-/

namespace Sys2Proof.Machine

/-! ### SHA-2 -/

/-- A hash of the SHA-2 family: bytes of a word, rounds, the start value, and the rotations of its four functions. -/
structure Sha where
  bytes : Nat
  rounds : Nat
  iv : List Nat
  up0 : Nat × Nat × Nat
  up1 : Nat × Nat × Nat
  low0 : Nat × Nat × Nat
  low1 : Nat × Nat × Nat

/-- The round constants with 64 bits; those of the 32-bit hash are their upper halves. -/
def shaK : List Nat :=
  [0x428a2f98d728ae22, 0x7137449123ef65cd, 0xb5c0fbcfec4d3b2f, 0xe9b5dba58189dbbc] ++
  [0x3956c25bf348b538, 0x59f111f1b605d019, 0x923f82a4af194f9b, 0xab1c5ed5da6d8118] ++
  [0xd807aa98a3030242, 0x12835b0145706fbe, 0x243185be4ee4b28c, 0x550c7dc3d5ffb4e2] ++
  [0x72be5d74f27b896f, 0x80deb1fe3b1696b1, 0x9bdc06a725c71235, 0xc19bf174cf692694] ++
  [0xe49b69c19ef14ad2, 0xefbe4786384f25e3, 0xfc19dc68b8cd5b5, 0x240ca1cc77ac9c65] ++
  [0x2de92c6f592b0275, 0x4a7484aa6ea6e483, 0x5cb0a9dcbd41fbd4, 0x76f988da831153b5] ++
  [0x983e5152ee66dfab, 0xa831c66d2db43210, 0xb00327c898fb213f, 0xbf597fc7beef0ee4] ++
  [0xc6e00bf33da88fc2, 0xd5a79147930aa725, 0x6ca6351e003826f, 0x142929670a0e6e70] ++
  [0x27b70a8546d22ffc, 0x2e1b21385c26c926, 0x4d2c6dfc5ac42aed, 0x53380d139d95b3df] ++
  [0x650a73548baf63de, 0x766a0abb3c77b2a8, 0x81c2c92e47edaee6, 0x92722c851482353b] ++
  [0xa2bfe8a14cf10364, 0xa81a664bbc423001, 0xc24b8b70d0f89791, 0xc76c51a30654be30] ++
  [0xd192e819d6ef5218, 0xd69906245565a910, 0xf40e35855771202a, 0x106aa07032bbd1b8] ++
  [0x19a4c116b8d2d0c8, 0x1e376c085141ab53, 0x2748774cdf8eeb99, 0x34b0bcb5e19b48a8] ++
  [0x391c0cb3c5c95a63, 0x4ed8aa4ae3418acb, 0x5b9cca4f7763e373, 0x682e6ff3d6b2b8a3] ++
  [0x748f82ee5defb2fc, 0x78a5636f43172f60, 0x84c87814a1f0ab72, 0x8cc702081a6439ec] ++
  [0x90befffa23631e28, 0xa4506cebde82bde9, 0xbef9a3f7b2c67915, 0xc67178f2e372532b] ++
  [0xca273eceea26619c, 0xd186b8c721c0c207, 0xeada7dd6cde0eb1e, 0xf57d4f7fee6ed178] ++
  [0x6f067aa72176fba, 0xa637dc5a2c898a6, 0x113f9804bef90dae, 0x1b710b35131c471b] ++
  [0x28db77f523047d84, 0x32caab7b40c72493, 0x3c9ebe0a15c9bebc, 0x431d67c49c100d4c] ++
  [0x4cc5d4becb3e42b6, 0x597f299cfc657e2a, 0x5fcb6fab3ad6faec, 0x6c44198c4a475817]

def sha384Kind : Sha where
  bytes := 8
  rounds := 80
  iv := [0xcbbb9d5dc1059ed8, 0x629a292a367cd507, 0x9159015a3070dd17, 0x152fecd8f70e5939,
    0x67332667ffc00b31, 0x8eb44a8768581511, 0xdb0c2e0d64f98fa7, 0x47b5481dbefa4fa4]
  up0 := (28, 34, 39)
  up1 := (14, 18, 41)
  low0 := (1, 8, 7)
  low1 := (19, 61, 6)

def sha256Kind : Sha where
  bytes := 4
  rounds := 64
  iv := [0x6a09e667, 0xbb67ae85, 0x3c6ef372, 0xa54ff53a, 0x510e527f, 0x9b05688c, 0x1f83d9ab, 0x5be0cd19]
  up0 := (2, 13, 22)
  up1 := (6, 11, 25)
  low0 := (7, 18, 3)
  low1 := (17, 19, 10)

def Sha.width (h : Sha) : Nat := 8 * h.bytes

/-- A number as `n` bytes, the most significant first. -/
def bigBytes (x n : Nat) : List Byte := (natBytes x n).reverse

/-- The number that bytes form, the most significant first. -/
def bigNat (l : List Byte) : Nat := bytesNat l.reverse

/-- The upper functions: the exclusive or of three rotations. -/
def Sha.upper (h : Sha) (r : Nat × Nat × Nat) (x : Nat) : Nat :=
  let v := BitVec.ofNat h.width x
  (v.rotateRight r.1 ^^^ v.rotateRight r.2.1 ^^^ v.rotateRight r.2.2).toNat

/-- The lower functions: two rotations and a shift. -/
def Sha.lower (h : Sha) (r : Nat × Nat × Nat) (x : Nat) : Nat :=
  let v := BitVec.ofNat h.width x
  (v.rotateRight r.1 ^^^ v.rotateRight r.2.1 ^^^ v >>> r.2.2).toNat

/-- `n` more words of the message schedule; the words stand last first. -/
def Sha.expand (h : Sha) : Nat → List Nat → List Nat
  | 0, ws => ws
  | n + 1, ws =>
    let w := h.lower h.low1 (ws.getD 1 0) + ws.getD 6 0 + h.lower h.low0 (ws.getD 14 0) + ws.getD 15 0
    h.expand n (w % 2 ^ h.width :: ws)

/-- One round, on the eight working words. -/
def Sha.round (h : Sha) (s : List Nat) (kw : Nat × Nat) : List Nat :=
  let g := fun (i : Nat) => s.getD i 0
  let not := 2 ^ h.width - 1 - g 4
  let ch := (g 4 &&& g 5) ^^^ (not &&& g 6)
  let maj := (g 0 &&& g 1) ^^^ (g 0 &&& g 2) ^^^ (g 1 &&& g 2)
  let t := g 7 + h.upper h.up1 (g 4) + ch + kw.1 + kw.2
  [(t + h.upper h.up0 (g 0) + maj) % 2 ^ h.width, g 0, g 1, g 2, (g 3 + t) % 2 ^ h.width, g 4, g 5, g 6]

/-- One block of 16 words. -/
def Sha.block (h : Sha) (s : List Nat) (b : List Byte) : List Nat :=
  let ws := (List.range 16).map fun k => bigNat ((b.drop (h.bytes * k)).take h.bytes)
  let ks := shaK.map fun k => k / 2 ^ (64 - h.width)
  let r := (ks.zip (h.expand (h.rounds - 16) ws.reverse).reverse).foldl h.round s
  (s.zip r).map fun x => (x.1 + x.2) % 2 ^ h.width

/-- The message with its padding: a bit 1, zeros, and the length in bits. -/
def Sha.pad (h : Sha) (l : List Byte) : List Byte :=
  let zeros := (16 * h.bytes - (l.length + 1 + 2 * h.bytes) % (16 * h.bytes)) % (16 * h.bytes)
  l ++ 0x80#8 :: List.replicate zeros 0 ++ bigBytes (8 * l.length) (2 * h.bytes)

/-- The final words of the hash of some bytes. -/
def Sha.run (h : Sha) (l : List Byte) : List Nat :=
  let m := h.pad l
  (List.range (m.length / (16 * h.bytes))).foldl (fun s k => h.block s ((m.drop (16 * h.bytes * k)).take (16 * h.bytes))) h.iv

/-- SHA-384: 48 bytes. -/
def sha384 (l : List Byte) : List Byte := ((sha384Kind.run l).take 6).flatMap fun x => bigBytes x 8

/-- SHA-256: 32 bytes. -/
def sha256 (l : List Byte) : List Byte := (sha256Kind.run l).flatMap fun x => bigBytes x 4

/-! ### ECDSA over P-384 -/

def p384P : Nat := 2 ^ 384 - 2 ^ 128 - 2 ^ 96 + 2 ^ 32 - 1
def p384B : Nat := 0xb3312fa7e23ee7e4988e056be3f82d19181d9c6efe8141120314088f5013875ac656398d8a2ed19d2a85c8edd3ec2aef
def p384N : Nat := 0xffffffffffffffffffffffffffffffffffffffffffffffffc7634d81f4372ddf581a0db248b0a77aecec196accc52973
def p384G : Nat × Nat :=
  (0xaa87ca22be8b05378eb1c71ef320ad746e1d3b628ba79b9859f741e082542a385502f25dbf55296c3a545e3872760ab7,
   0x3617de4a96262c6f5d9e98bf9292dc29f8f41dbd289a147ce9da3113b5f0b8c00a60b1ce1d7e819d7a431d7c90ea0e5f)

/-- `x ^ e` modulo `m`, with the low `n` bits of `e`. -/
def powMod (m : Nat) : Nat → Nat → Nat → Nat
  | 0, _, _ => 1 % m
  | n + 1, x, e => powMod m n (x * x % m) (e / 2) * (if e % 2 = 1 then x else 1) % m

/-- The inverse modulo a prime of 384 bits. -/
def invMod (m x : Nat) : Nat := powMod m 384 (x % m) (m - 2)

/-- The sum of two points of the curve; none is the point at infinity. -/
def p384Add (a b : Option (Nat × Nat)) : Option (Nat × Nat) :=
  match a, b with
  | none, b => b
  | a, none => a
  | some (x1, y1), some (x2, y2) =>
    if x1 = x2 ∧ (y1 + y2) % p384P = 0 then none
    else
      let slope := if x1 = x2 then (3 * x1 * x1 + p384P - 3) * invMod p384P (2 * y1)
        else (y2 + p384P - y1) * invMod p384P (x2 + p384P - x1)
      let x := (slope * slope + 2 * p384P - x1 - x2) % p384P
      some (x, (slope % p384P * (x1 + p384P - x) + p384P - y1) % p384P)

/-- A multiple of a point, by the low `n` bits of the factor. -/
def p384Mul : Nat → Nat → Option (Nat × Nat) → Option (Nat × Nat)
  | 0, _, _ => none
  | n + 1, e, a =>
    let r := p384Mul n (e / 2) (p384Add a a)
    if e % 2 = 1 then p384Add r a else r

/-- A point lies on the curve. -/
def p384On (a : Nat × Nat) : Bool :=
  decide (a.1 < p384P) && decide (a.2 < p384P) && a.2 * a.2 % p384P == (a.1 ^ 3 + (p384P - 3) * a.1 + p384B) % p384P

/-- A signature, `r` then `s` of 48 bytes each, of some bytes holds under a public key. -/
def ecdsaVerify (key : Nat × Nat) (l sig : List Byte) : Bool :=
  let r := bigNat (sig.take 48)
  let s := bigNat ((sig.drop 48).take 48)
  let z := bigNat (sha384 l)
  let w := invMod p384N s
  let at_ := p384Add (p384Mul 384 (z * w % p384N) (some p384G)) (p384Mul 384 (r * w % p384N) (some key))
  p384On key && decide (0 < r) && decide (r < p384N) && decide (0 < s) && decide (s < p384N) &&
    (match at_ with
     | some (x, _) => x % p384N == r
     | none => false)

/-- The signature of some bytes under a private key, with a nonce. -/
def ecdsaSign (key nonce : Nat) (l : List Byte) : List Byte :=
  let r := ((p384Mul 384 (nonce % p384N) (some p384G)).map Prod.fst).getD 0 % p384N
  let s := invMod p384N nonce * (bigNat (sha384 l) + r * key) % p384N
  bigBytes r 48 ++ bigBytes s 48

/-! ### LMS with LM-OTS, SHA-256, N32 and W4 -/

/-- Steps `a` to `a + n - 1` of chain `i` of a one-time key, from a value. -/
def otsChain (id : List Byte) (q i : Nat) : Nat → Nat → List Byte → List Byte
  | 0, _, v => v
  | n + 1, a, v => otsChain id q i n (a + 1) (sha256 (id ++ bigBytes q 4 ++ bigBytes i 2 ++ bigBytes a 1 ++ v))

/-- The 67 digits of the hash of a message and their checksum. -/
def otsDigits (id : List Byte) (q : Nat) (c msg : List Byte) : List Nat :=
  let h := sha256 (id ++ bigBytes q 4 ++ bigBytes 0x8181 2 ++ c ++ msg)
  let ds := h.flatMap fun b => [b.toNat / 16, b.toNat % 16]
  let sum := (ds.map fun d => 15 - d).sum
  ds ++ [sum / 256 % 16, sum / 16 % 16, sum % 16]

/-- The hash that stands for a one-time public key with some chain ends. -/
def otsKey (id : List Byte) (q : Nat) (ends : List (List Byte)) : List Byte :=
  sha256 (id ++ bigBytes q 4 ++ bigBytes 0x8080 2 ++ ends.flatten)

/-- From a node of the tree up to its root along a path. -/
def lmsRoot (id : List Byte) : List (List Byte) → Nat → List Byte → List Byte
  | [], _, v => v
  | p :: ps, node, v =>
    let pair := if node % 2 = 1 then p ++ v else v ++ p
    lmsRoot id ps (node / 2) (sha256 (id ++ bigBytes (node / 2) 4 ++ bigBytes 0x8383 2 ++ pair))

/-- The `k`-th 32 bytes. -/
def part32 (l : List Byte) (k : Nat) : List Byte := (l.drop (32 * k)).take 32

/-- An LMS signature of a message holds under a key: its tree of height `h` has type `ty`, its identifier and its root. -/
def lmsVerify (ty h : Nat) (id root msg sig : List Byte) : Bool :=
  let q := bigNat (sig.take 4)
  let c := (sig.drop 8).take 32
  let ys := sig.drop 40
  let ds := otsDigits id q c msg
  let ends := (List.range 67).map fun i => otsChain id q i (15 - ds.getD i 0) (ds.getD i 0) (part32 ys i)
  let leaf := sha256 (id ++ bigBytes (2 ^ h + q) 4 ++ bigBytes 0x8282 2 ++ otsKey id q ends)
  let path := (List.range h).map fun i => part32 (sig.drop 2188) i
  sig.length == 2188 + 32 * h && decide (q < 2 ^ h) && bigNat ((sig.drop 4).take 4) == 3 &&
    bigNat ((sig.drop 2184).take 4) == ty && decide (lmsRoot id path (2 ^ h + q) leaf = root)

/-- The LMS signature of a message with leaf `q`: the start of the leaf's chains, the randomiser and the path are the key's. -/
def lmsSign (ty h q : Nat) (id c : List Byte) (starts path : Nat → List Byte) (msg : List Byte) : List Byte :=
  let ds := otsDigits id q c msg
  bigBytes q 4 ++ bigBytes 3 4 ++ c ++ ((List.range 67).flatMap fun i => otsChain id q i (ds.getD i 0) 0 (starts i)) ++
    bigBytes ty 4 ++ (List.range h).flatMap path

end Sys2Proof.Machine
end

