-- ==== Sys2Proof/Machine/Image.lean ====
section
/-!
DEFINITION. Launch records and launch images (R344, R350 to R352), span images (R354) and rota images (R332): what they
hold, and what the dispatcher refuses.
-/

namespace Sys2Proof.Machine

/-! ### Rectangles (R21) -/

/-- A rectangle of the domain's grid. -/
structure Rect where
  row : Nat
  col : Nat
  nr : Nat
  nc : Nat
  deriving DecidableEq, Repr

/-- Package and die at a place of the grid. -/
def gridDie (r c : Nat) : Nat × Nat := (r / 2 * 8 + c / 4, r % 2 * 4 + c % 4)

/-- The dies of a rectangle in the order of their rectangle indices. -/
def Rect.cells (r : Rect) : List (Nat × Nat) :=
  (List.range r.nr).flatMap fun i => (List.range r.nc).map fun j => gridDie (r.row + i) (r.col + j)

/-- The packages that a rectangle touches, in increasing number (R332). -/
def Rect.pkgs (r : Rect) : List Nat := (List.range 32).filter fun p => r.cells.any fun x => x.1 == p

/-- The dies of a rectangle in a package, in increasing number. -/
def Rect.own (r : Rect) (pkg : Nat) : List Nat := (List.range 8).filter fun d => r.cells.contains (pkg, d)

/-- A rectangle lies in the grid of the domain; a package outside a domain has its own dies only. -/
def State.inGrid (s : State) (r : Rect) : Bool :=
  decide (0 < r.nr) && decide (0 < r.nc) && decide (r.row + r.nr ≤ 8) && decide (r.col + r.nc ≤ 32) &&
    (s.host.domain || r.pkgs == [s.host.pkg])

/-! ### Reading a context's virtual memory -/

/-- A context's descriptor in a die's context. -/
def Ctx.describe (c : Ctx) (n : Nat) (d : CtxDesc) : Ctx :=
  { c with
    ctxNo := .ofNat 16 n, leafBase := d.leafBase, leafN := d.leafN, codeBase := d.codeBase, rbase := d.rbase,
    rlen := d.rlen }

/-- Do something on a die as context `n` would, and put the die's own context back. -/
def State.asContext {α : Type} (s : State) (d : DieIx) (n : Nat) (f : State → State × α) : State × α :=
  let old := s.dieAt d
  let c := s.disp.ctxAt n
  let own : Ctx := { old.ctx.describe n c with domid := .ofNat 16 c.domid }
  let (s', x) := f ({ s with cur := d }.setDie { old with ctx := own, tlb := [] })
  ({ s'.modDie (fun y => { y with ctx := old.ctx, tlb := old.tlb }) with cur := s.cur }, x)

/-- Read `n` chunks of 64 bytes; none where a translation fails. -/
def State.vaChunks (s : State) (va : Nat) : Nat → List Byte → Bool → State × Option (List Byte × Bool)
  | 0, l, p => (s, some (l, p))
  | n + 1, l, p =>
    match s.codeRead va with
    | (s, some (bs, q)) => s.vaChunks (va + 64) n (l ++ bs) (p || q)
    | (s, none) => (s, none)

/-- Read bytes at a virtual address, with their poison; none where no page holds them. -/
def State.vaTry (s : State) (va n : Nat) : State × Option (List Byte × Bool) :=
  match s.vaChunks (va / 64 * 64) (ceilDiv (va % 64 + n) 64) [] false with
  | (s, some (l, p)) => (s, some ((l.drop (va % 64)).take n, p))
  | (s, none) => (s, none)

/-- Read bytes at a virtual address; none where they cannot be read or are poisoned. -/
def State.vaBytes (s : State) (va n : Nat) : State × Option (List Byte) :=
  match s.vaTry va n with
  | (s, some (l, false)) => (s, some l)
  | (s, _) => (s, none)

/-- The 64-bit words of some bytes. -/
def wordsOf (l : List Byte) (n : Nat) : List Nat := (List.range n).map fun k => bytesNat ((l.drop (8 * k)).take 8)

/-- Read words. -/
def State.vaWords (s : State) (va n : Nat) : State × Option (List Nat) :=
  match s.vaBytes va (8 * n) with
  | (s, some l) => (s, some (wordsOf l n))
  | (s, none) => (s, none)

/-! ### Launch records (R344) -/

/-- Bytes of the reservoir; none where they lie outside it or are poisoned. -/
def State.resBytes (s : State) (a n : Nat) : Option (List Byte) :=
  if 2 ^ 40 < a + n ∨ (List.range (n / 16 + 1)).any (fun k => 16 * (a / 16 + k) < a + n && SMap.get false s.mem.resPz (a / 16 + k))
  then none else some (rdBytes s.mem.res a n)

/-- The words of a queue's head record, or of the recovery record that stands in its place (R404). -/
def State.record (s : State) (n : Nat) (q : Queue) : Option (List Nat) :=
  if q.recov then
    let w := SMap.get 0 s.disp.recovery n
    some ((List.range 8).map fun k => bitsAt w (64 * k) 64)
  else (s.resBytes (q.ring + 64 * (q.head % 2 ^ q.rlog)) 64).map fun l => wordsOf l 8

/-- A record with a misaligned address or a reserved bit. -/
def recordBad (ws : List Nat) : Bool :=
  ws.getD 0 0 % 64 != 0 || ws.getD 2 0 % 16 != 0 || decide (2 ^ 40 ≤ ws.getD 2 0) || (ws.drop 4).any (· != 0)

/-! ### Launch images (R350, R351) -/

/-- The header of a launch image, by word. -/
structure Image where
  ws : List Nat
  deriving DecidableEq, Repr

def Image.w (i : Image) (k : Nat) : Nat := i.ws.getD k 0
def Image.entry (i : Image) : Nat := i.w 1
def Image.row (i : Image) : Nat := bitsAt (i.w 2) 0 8
def Image.col (i : Image) : Nat := bitsAt (i.w 2) 8 8
def Image.nr (i : Image) : Nat := bitsAt (i.w 2) 16 8
def Image.nc (i : Image) : Nat := bitsAt (i.w 2) 24 8
def Image.tier (i : Image) : Nat := bitsAt (i.w 2) 32 3
def Image.qlog2 (i : Image) : Nat := bitsAt (i.w 2) 40 4
def Image.region (i : Image) : Nat := bitsAt (i.w 2) 48 16
def Image.reldl (i : Image) : Nat := i.w 3
def Image.span (i : Image) : Nat := i.w 4
def Image.rota (i : Image) : Nat := i.w 5
def Image.graph (i : Image) : Nat := bitsAt (i.w 6) 0 32
def Image.nscal (i : Image) : Nat := bitsAt (i.w 6) 32 8
def Image.ndata (i : Image) : Nat := bitsAt (i.w 7) 0 24
def Image.doff (i : Image) : Nat := bitsAt (i.w 7) 32 32

/-- The dispatcher places the rectangle. -/
def Image.free (i : Image) : Bool := i.row == 0xFF

/-- A magic, version, alignment or reserved field of the header is wrong, or a field is outside its range. -/
def Image.bad (i : Image) : Bool :=
  bitsAt (i.w 0) 0 32 != 0x4E4C524A || bitsAt (i.w 0) 32 32 != 1 || bitsAt (i.w 2) 35 5 != 0 || bitsAt (i.w 2) 44 4 != 0 ||
    bitsAt (i.w 6) 40 24 != 0 || bitsAt (i.w 7) 24 8 != 0 || i.nr == 0 || decide (8 < i.nr) || i.nc == 0 ||
    decide (32 < i.nc) || (i.free && i.col != 0) || decide (62 < i.nscal) ||
    (i.qlog2 != 0 && !(decide (6 ≤ i.qlog2) && decide (i.qlog2 ≤ 12))) || i.doff % 16 != 0 || (i.ndata == 0 && i.doff != 0)

/-- The header differs from its queue (R351). -/
def Image.differs (i : Image) (q : Queue) : Bool :=
  i.tier != q.tier || i.region != q.region || i.nr != q.shr || i.nc != q.shc

/-- Read the header of an image through the first of some dies that translates it. -/
def State.headAt (s : State) (ctx va : Nat) : List DieIx → State × Option (DieIx × Image)
  | [] => (s, none)
  | d :: l =>
    if !(s.dieAt d).alive then s.headAt ctx va l
    else match s.asContext d ctx fun s => s.vaWords va 8 with
      | (s, some ws) => (s, some (d, ⟨ws⟩))
      | (s, none) => s.headAt ctx va l

/-- The header of a queue's image, or the status with which its record completes. -/
def State.headOf (s : State) (n : Nat) (q : Queue) : State × Except Nat (Nat × DieIx × Image) :=
  match s.record n q with
  | none => (s, .error 0x0A)
  | some ws =>
    if recordBad ws then (s, .error 0x01)
    else match s.headAt q.ctx (ws.getD 0 0) (List.finRange 8) with
      | (s, none) => (s, .error 0x0A)
      | (s, some (d, i)) => (s, .ok (ws.getD 0 0, d, i))

/-! ### Data records (R352) -/

/-- The bytes of a data record from its cistern address. -/
structure DataRec where
  caddr : Nat
  bytes : List Byte
  deriving DecidableEq, Repr

/-- Read `n` data records from an address on; or a status: one is malformed or runs past the pages of the image, or a word
of it cannot be read. -/
def State.readData (s : State) : Nat → Nat → List DataRec → State × Except Nat (List DataRec)
  | 0, _, l => (s, .ok l)
  | n + 1, va, l =>
    match s.vaTry va 16 with
    | (s, none) => (s, .error 0x01)
    | (s, some (_, true)) => (s, .error 0x0A)
    | (s, some (h, false)) =>
      let w := bytesNat (h.take 8)
      let len := bitsAt w 32 21
      if bitsAt w 53 11 ≠ 0 ∨ bytesNat (h.drop 8) ≠ 0 ∨ bitsAt w 30 2 ≠ 0 ∨ len = 0 ∨ 2 ^ 20 < len then (s, .error 0x01)
      else match s.vaTry (va + 16) len with
        | (s, none) => (s, .error 0x01)
        | (s, some (_, true)) => (s, .error 0x0A)
        | (s, some (bs, false)) => s.readData n (va + 16 + ceilDiv len 16 * 16) (l ++ [⟨bitsAt w 0 30, bs⟩])

/-- The granules that the bytes of a record lie in, by an address in each. -/
def DataRec.addrs (r : DataRec) : List Nat :=
  (List.range (r.bytes.length / 8192 + 2)).map fun k => tabAddr r.caddr (min (8192 * k) (r.bytes.length - 1))

/-- A record passes R352 for a rectangle and a domain. -/
def State.dataOk (s : State) (r : Rect) (dom : Nat) (x : DataRec) : Bool :=
  let d := (adDie x.caddr).val
  r.cells.any (fun c => c.2 == d) &&
    (!(r.own s.host.pkg).contains d || x.addrs.all fun a =>
      let e := s.mem.entryOf a
      granAllows e dom 0 .engine && (granMode e == 1 || granMode e == 2 || granMode e == 4))

/-- Write the bytes of a record as an engine does, word by word (R250); past the last bank of the bay they continue at its
first. -/
def State.dataWrite (s : State) (x : DataRec) : State :=
  let first := 16 - x.caddr % 16
  let s := s.engWrite x.caddr (x.bytes.take first)
  (List.range (ceilDiv (x.bytes.length - first) 16)).foldl (fun s k =>
    s.engWrite (tabAddr x.caddr (first + 16 * k)) ((x.bytes.drop (first + 16 * k)).take 16)) s

/-! ### Span images (R353, R354) -/

/-- A record breaks R354 in itself. -/
def spanBad (n : Nat) (cells : List (Nat × Nat)) (r : Word) : Bool :=
  let src := cells[spSrc r]?
  let dst := cells[spDst r]?
  bitsAt r.toNat 40 24 != 0 || spSlot r % 16 == 15 || decide (n ≤ spSlot r) || src.isNone || dst.isNone ||
    (if spRefl r then spStream r != 0 || spDst r != 0 || spDstBay r != 0
     else spSrc r == spDst r || src.map Prod.fst != dst.map Prod.fst)

/-- Two records break R354. -/
def spanClash (x y : Word) : Bool :=
  spSlot x == spSlot y &&
    ((spSrc x == spSrc y && spBay x == spBay y) ||
     (spDst x == spDst y && spDstBay x == spDstBay y) ||
     ((spRefl x || spRefl y) && spSrc x == spSrc y))

/-- Some two records break R354. -/
def spansClash : List Word → Bool
  | [] => false
  | x :: l => l.any (spanClash x) || spansClash l

/-- The number of slots that a header gives; none where the header is refused. -/
def spanSlots (ws : List Nat) : Option Nat :=
  let w := ws.getD 0 0
  let n := bitsAt w 0 13
  if bitsAt w 13 3 = 0 ∧ bitsAt w 32 32 = 0 ∧ (ws.drop 1).all (· == 0) ∧ 16 ≤ n ∧ n ≤ 4096 ∧ 2 ^ Nat.log2 n = n then some n
  else none

/-- Read and check a span image: slots and records, or a status. -/
def State.readSpan (s : State) (va : Nat) (r : Rect) : State × Except Nat (Nat × List Word) :=
  match s.vaWords va 8 with
  | (s, none) => (s, .error 0x0A)
  | (s, some ws) =>
    match spanSlots ws with
    | none => (s, .error 0x03)
    | some n =>
      match s.vaWords (va + 64) (bitsAt (ws.getD 0 0) 16 16) with
      | (s, none) => (s, .error 0x0A)
      | (s, some rs) =>
        let rs := rs.map (BitVec.ofNat 64)
        if rs.any (spanBad n r.cells) || spansClash rs then (s, .error 0x03) else (s, .ok (n, rs))

/-! ### Rota images (R332) -/

/-- A header of a rota image breaks R332 for a rectangle of `n` packages. -/
def State.rotaHeadBad (s : State) (ws : List Nat) (n : Nat) : Bool :=
  let slots := bitsAt (ws.getD 0 0) 0 16
  let len := bitsAt (ws.getD 0 0) 32 32
  let guard_ := bitsAt (ws.getD 1 0) 0 32
  bitsAt (ws.getD 0 0) 24 8 != 0 || (ws.drop 2).any (· != 0) || slots == 0 || decide (4096 < slots) ||
    bitsAt (ws.getD 0 0) 16 8 != n || decide (guard_ < 1800) || decide (len ≤ guard_) ||
    decide (s.fab.slack < bitsAt (ws.getD 1 0) 32 32)

/-- The 16 bytes of one port of package `p`, in one slot, break R332: R328 asks for different wavelengths. -/
def rotaPortBad (n p : Nat) (l : List Nat) : Bool :=
  let on := l.filter (· != 0xFF)
  on.any (fun x => x == p || decide (n ≤ x)) || on.dedup != on

/-- The RING bytes from `o` on. -/
def ringsAt (bs : List Byte) (o n : Nat) : List Nat := ((bs.drop o).take n).map BitVec.toNat

/-- The RING bytes of a rota image of `n` packages and some slots break R332. -/
def rotaBad (n slots : Nat) (bs : List Byte) : Bool :=
  (List.range slots).any fun t => (List.range n).any fun p => (List.range 16).any fun k =>
    rotaPortBad n p (ringsAt bs (256 * (n * t + p) + 16 * k) 16)

/-- The wavelengths of a package's rings in one slot: one byte each. -/
def ringWaves (pkg : Nat) (pkgs l : List Nat) : List Byte :=
  l.map fun x => if x = 0xFF then 0xFF else .ofNat 8 ((pkgs.getD x 0 + 32 - pkg) % 32)

/-- Read and check a rota image: what the fabric loads of it, or a status. -/
def State.readRota (s : State) (va : Nat) (r : Rect) : State × Except Nat (List Word) :=
  let pkgs := r.pkgs
  let n := pkgs.length
  match s.vaWords va 8 with
  | (s, none) => (s, .error 0x0A)
  | (s, some ws) =>
    if s.rotaHeadBad ws n then (s, .error 0x04)
    else
      let slots := bitsAt (ws.getD 0 0) 0 16
      match s.vaBytes (va + 64) (256 * n * slots) with
      | (s, none) => (s, .error 0x0A)
      | (s, some bs) =>
        let me := (pkgs.findIdx? fun p => p == s.host.pkg).getD 0
        let mine := fun (t : Nat) => ringsAt bs (256 * (n * t + me)) 256
        let fm := (List.range (n * slots)).any fun t => (ringsAt bs (256 * t) 256).zipIdx.any fun x =>
          x.1 != 0xFF && !s.fab.rotaMode (x.2 / 16)
        if rotaBad n slots bs || fm then (s, .error 0x04)
        else
          let waves := (List.range slots).flatMap fun t => wordsOf (ringWaves s.host.pkg pkgs (mine t)) 32
          (s, .ok (((ws.take 2) ++ waves).map (BitVec.ofNat 64)))

/-! ### The whole check (R351) -/

/-- What a launch writes before its dies start. -/
structure Loads where
  inits : List (Nat × Nat) := []
  data : List DataRec := []
  spanN : Nat := 0
  spanRecs : List Word := []
  rota : List Word := []
  deriving DecidableEq, Repr

/-- The INITs of an image. -/
def initsOf (ws : List Nat) (n : Nat) : List (Nat × Nat) :=
  (List.range n).map fun k => (ws.getD (2 * k) 0, ws.getD (2 * k + 1) 0)

/-- An INIT names `s0` or `s63`, or sets a reserved bit. -/
def initBad (x : Nat × Nat) : Bool := x.1 == 0 || decide (62 < x.1)

/-- Entries of the granule table (R310) from address `a` on, out of the cells from there on. -/
def granEntries : Nat → Nat → List Host.Cell → List Nat
  | 0, _, _ => []
  | n + 1, a, l =>
    bytesNat (rdBytes (l.takeWhile fun c => decide (c.1 < a + 4)) a 4) ::
      granEntries n (a + 4) (l.dropWhile fun c => decide (c.1 < a + 4))

/-- Granules that a save of a context stores on a die: modes 1 to 3, owned by its domain (R364). -/
def State.ownGranules (s : State) (d dom : Nat) : List Nat :=
  let a := wordAddr d 7 127 4096
  let es := granEntries 16384 a (s.mem.cistern.dropWhile fun c => decide (c.1 < a))
  (es.zipIdx.filter fun x => granOwner x.1 == dom && decide (1 ≤ granMode x.1) && decide (granMode x.1 ≤ 3)).map Prod.snd

/-- Bytes that a save of a die takes with some granules (R364). -/
def saveBytes (granules : Nat) : Nat := 12 * 2 ^ 20 + 8192 * granules

/-- The save area holds what a save of a die of the rectangle needs (R363, R364, log 22). -/
def State.csaOk (s : State) (r : Rect) (c : CtxDesc) : Bool :=
  (r.own s.host.pkg).all fun d => decide (saveBytes (s.ownGranules d c.domid).length ≤ 8 * 2 ^ 20 * c.csan)

/-- Read INITs, data records, span and rota of an image in its context. -/
def State.readLoads (s : State) (va : Nat) (i : Image) (r : Rect) (dom : Nat) : State × Except Nat Loads :=
  match s.vaWords (va + 64) (2 * i.nscal) with
  | (s, none) => (s, .error 0x0A)
  | (s, some ws) =>
    let inits := initsOf ws i.nscal
    if inits.any initBad then (s, .error 0x01)
    else match s.readData i.ndata (va + i.doff) [] with
      | (s, .error e) => (s, .error e)
      | (s, .ok data) =>
        if !data.all (s.dataOk r dom) then (s, .error 0x01)
        else match (if i.span = 0 then (s, .ok (0, [])) else s.readSpan i.span r) with
          | (s, .error e) => (s, .error e)
          | (s, .ok (n, recs)) =>
            match (if i.rota = 0 then (s, .ok []) else s.readRota i.rota r) with
            | (s, .error e) => (s, .error e)
            | (s, .ok rota) => (s, .ok { inits := inits, data := data, spanN := n, spanRecs := recs, rota := rota })

/-- The checks of R351 for a queue's launch in a rectangle. -/
def State.launchLoads (s : State) (q : Queue) (va : Nat) (d : DieIx) (i : Image) (r : Rect) : State × Except Nat Loads :=
  let c := s.disp.ctxAt q.ctx
  if i.bad || i.differs q || !s.csaOk r c then (s, .error 0x01)
  else s.asContext d q.ctx fun s => s.readLoads va i r c.domid

end Sys2Proof.Machine
end

