-- ==== Sys2Proof/Machine/Launch.lean ====
section
/-!
DEFINITION. The dispatcher (R343 to R349, R351, R361 to R366, R404): queues and their records, decisions, the start of a
launch on its dies, halts with save and restore, and the end of a launch.
-/

namespace Sys2Proof.Machine

/-! ### Queues (R343, R344, R346) -/

def Disp.queueAt (p : Disp) (n : Nat) : Queue := SMap.get {} p.queues n

/-- Change a queue. -/
def State.modQueue (s : State) (n : Nat) (f : Queue → Queue) : State :=
  s.modDisp fun p => { p with queues := SMap.put {} p.queues n (f (p.queueAt n)) }

/-- Change a launch. -/
def State.modLaunch (s : State) (id : Nat) (f : Launch → Launch) : State :=
  s.modDisp fun p => { p with launches := p.launches.map fun l => if l.id = id then f l else l }

def State.launch (s : State) (id : Nat) : Option Launch := s.disp.launches.find? fun l => l.id == id

/-- The launch that holds a die of the package. -/
def State.launchOn (s : State) (d : Nat) : Option Launch :=
  s.disp.launches.find? fun l => l.phase != .parked && l.phase != .waiting && l.dies.contains d

def Launch.rect (l : Launch) : Rect := ⟨l.row, l.col, l.nr, l.nc⟩

/-- The dies of a launch as indices. -/
def Launch.dieIxs (l : Launch) : List DieIx := (List.finRange 8).filter fun d => l.dies.contains d.val

/-- The deadline of a record with an enqueue time: DL, the image's relative deadline, or none (R346). -/
def State.deadlineOf (s : State) (n e : Nat) : State × Nat :=
  let q := s.disp.queueAt n
  let dl := ((s.record n q).getD []).getD 1 0
  if dl ≠ 0 then (s, dl)
  else match s.headOf n q with
    | (s, .ok (_, _, i)) => (s, if i.reldl = 0 then 2 ^ 64 - 1 else min (e + i.reldl) (2 ^ 64 - 1))
    | (s, .error _) => (s, 2 ^ 64 - 1)

/-- The horizon of a tier. -/
def Disp.horizonOf (p : Disp) (t : Nat) : Nat := p.horizon.toList.getD t 0

/-- The head record is enqueued at an enqueue time (R344, R346). -/
def State.enqueueAt (s : State) (n e : Nat) : State :=
  let (s, d) := s.deadlineOf n e
  s.modQueue n fun q =>
    { q with queued := true, enq := e, deadline := d, eff := min (max d e) (e + s.disp.horizonOf q.tier) }

/-- The dispatcher observes whether a record stands in a queue. -/
def State.enqueueHead (s : State) (n : Nat) : State :=
  let q := s.disp.queueAt n
  if q.queued || q.head == q.tail then s else s.enqueueAt n s.gtc

/-- The dispatcher reads a doorbell (R413). A TAIL beyond the ring disables the queue, whether it is new or the queue has
been enabled since. -/
def State.observeQueue (s : State) (n : Nat) : State :=
  let q := s.disp.queueAt n
  let s := if q.bell = q.tail then s else s.modQueue n fun q => { q with tail := q.bell }
  let s :=
    if (q.bell ≠ q.tail ∨ q.en) ∧ 2 ^ q.rlog < (q.bell + 2 ^ 16 - q.head) % 2 ^ 16 then
      (s.modQueue n fun q => { q with en := false }).postFault (s.gdie s.cur) faultQueue [.ofNat 64 n]
    else s
  s.enqueueHead n

/-- It reads every doorbell. -/
def State.observe (s : State) : State := (s.disp.queues.map Prod.fst).foldl (fun s n => s.observeQueue n) s

/-- Q precedes R (R346). -/
def Disp.precedes (p : Disp) (a b : Nat) : Bool :=
  let x := p.queueAt a
  let y := p.queueAt b
  decide (x.eff < y.eff) || (x.eff == y.eff && (decide (x.tier < y.tier) || (x.tier == y.tier && decide (a < b))))

/-- A queue is ready (R344): EN, a head record, and no context of it that runs or halts. -/
def Disp.ready (p : Disp) (n : Nat) : Bool :=
  let q := p.queueAt n
  q.en && q.queued && p.launches.all fun l => l.queue != n || l.phase == .parked

/-- Put a queue into a list in order of precedence. -/
def Disp.insertQueue (p : Disp) (n : Nat) : List Nat → List Nat
  | [] => [n]
  | m :: l => if p.precedes n m then n :: m :: l else m :: p.insertQueue n l

/-- The ready queues in order of precedence. -/
def Disp.readyQueues (p : Disp) : List Nat :=
  ((p.queues.map Prod.fst).filter p.ready).foldl (fun l n => p.insertQueue n l) []

/-- Have the dispatcher decide in the next cycle. -/
def State.poke (s : State) : State := s.at (s.now + 1) 0 .doorbellPoll

/-- Write bytes of the reservoir: a word of which all 16 bytes are written is no longer poisoned. -/
def State.resPut (s : State) (a : Nat) (bs : List Byte) : State :=
  let whole := (List.range (bs.length / 16 + 2)).filterMap fun k =>
    let w := a / 16 + k
    if a ≤ 16 * w ∧ 16 * w + 16 ≤ a + bs.length then some w else none
  s.modMem fun m => { m with res := wrBytes m.res a bs, resPz := whole.foldl (fun z w => SMap.put false z w false) m.resPz }

/-- The word of a completion record that holds the status (R344). -/
def statusWord (status code cause : Nat) : Nat := status + code % 2 ^ 16 * 2 ^ 8 + cause % 2 ^ 32 * 2 ^ 32

/-- The head record of a queue completes (R344): its completion record is written, unless it cannot be read or the record
is another package's to complete, and HEAD advances. -/
def State.completeRecord (s : State) (n status code cause : Nat) (write : Bool := true) : State :=
  let s := match s.record n (s.disp.queueAt n) with
    | some ws =>
      let a := ws.getD 2 0
      if write ∧ a % 16 = 0 ∧ a < 2 ^ 40 then
        (s.resPut a (natBytes (ws.getD 3 0) 8 ++ natBytes (statusWord status code cause) 8)).modHost fun h =>
          { h with v2due := true }
      else s
    | none => s
  let s := s.modQueue n fun q =>
    { q with head := (q.head + 1) % 2 ^ 16, queued := false, recov := false, repeats := 0, cancels := 0 }
  (s.enqueueHead n).poke

/-! ### The start of a launch (R351) -/

/-- What a new context finds in a bay of the die: storage that the tables give no reset value is left as it stands. -/
def Bay.fresh (x : Bay) : Bay :=
  { v := x.v, o := x.o, k := x.k, full := x.full, m := x.m, carry := x.carry,
    mxu := { acca := x.mxu.acca, accb := x.mxu.accb, ea := x.mxu.ea, eb := x.mxu.eb } }

/-- A context is created where another one stood (R5, R12). What makes a launch the creation of its context: see
`State.setUpDie` (log 98). -/
def Ctx.fresh (c : Ctx) : Ctx :=
  { s := c.s, p := c.p, h := c.h, tscr := c.tscr, domid := c.domid, bay := c.bay.map Bay.fresh }

/-- The state with the kernel's lifetime, and where the sequencer stands, at the start of a launch (R5, R351, R370). -/
def Ctx.begin (c : Ctx) (l : Launch) (d : CtxDesc) : Ctx :=
  { c.describe l.ctx d with
    queue := .ofNat 16 l.queue, preq := false, launchId := .ofNat 64 l.id, token := false, confirmed := false, t0 := 0,
    spanBase := 0, spanN := 0, spanRecs := [], spEmpty := 0, dead := false, tvec := .ofNat 64 d.tvec,
    rectRow := l.row, rectCol := l.col, rectNr := l.nr, rectNc := l.nc, priv := 0,
    seg := none, half := .empty, idx := 0, hold := 0, owed := 0, target := none, exit := none, exiting := false,
    hoist := [], trap := none, wait := [], pump := { openRec := c.pump.openRec }, walk := {} }

/-- The value of `s63` (R351). -/
def State.launchWord (s : State) (l : Launch) : Word :=
  let d := s.cur.val
  let p := s.host.pkg
  .ofNat 64 ((gridRow p d - l.row) + (gridCol p d - l.col) * 2 ^ 8 + l.nr * 2 ^ 16 + l.nc * 2 ^ 24 + d * 2 ^ 32 + p * 2 ^ 40)

/-- Replace entry `g` of the granule table of die `d`. -/
def State.setGran (s : State) (d g e : Nat) : State :=
  s.putBytes (wordAddr d 7 127 (4096 + g / 4) + 4 * (g % 4)) (natBytes e 4)

/-- The granules of lost banks are unmapped for a context that is placed (R393). -/
def State.unmapLost (s : State) : State :=
  let ks := (s.die.err.lost.filter fun x => x.2).map Prod.fst
  (ks.flatMap fun k => (List.range 16).map fun j => 16 * k + j).foldl (fun s g =>
    s.setGran s.cur.val g (setBits (s.mem.granEntry s.cur.val g) 0 3 0)) s

/-- QCTL at the start of a kernel (R274): the reset value, then the quantum of the launch image. -/
def State.kernelQuantum (s : State) : State :=
  let q := s.ctx.quantum
  s.modOrd fun o => { o with qlog2 := if q = 0 then 7 else q, cbwait := 64 }

/-- Set up a die for a launch. DESIGN CHOICE (log 98): the launch creates its context where the die has held another one
since, or where a fault has ended it. A register bank that passes to another domain has its TSCRs cleared (R12). -/
def State.setUpDie (s : State) (l : Launch) (i : Image) (x : Loads) : State :=
  let d := s.disp.ctxAt l.ctx
  let s := if s.ctx.domid = .ofNat 16 d.domid then s else s.modCtx fun c => { c with tscr := Vector.replicate 4 0 }
  let s := s.setDomain (.ofNat 16 d.domid)
  let s := if s.ctx.ctxNo = .ofNat 16 l.ctx ∧ s.ctx.dead = false then s else s.modCtx Ctx.fresh
  let s := s.modCtx fun c => { c.begin l d with quantum := i.qlog2 }
  let s := (s.modDie fun y => { y with tlb := [], halting := false }).kernelQuantum
  let s := x.inits.foldl (fun s (y : Nat × Nat) => s.modCtx fun c => (c.unhoist (.ofNat 6 y.1)).ws (.ofNat 6 y.1) (.ofNat 64 y.2)) s
  let w := s.launchWord l
  let s := s.modCtx fun c => c.ws 63 w
  let s := s.unmapLost
  let s := (x.data.filter fun y => adDie y.caddr == s.cur).foldl (fun s y => s.dataWrite y) s
  if x.spanN = 0 then s
  else
    let b := Config.freeWord s.free
    ({ s with free := s.free + 1 } : State).modCtx fun c =>
      { c with spanBase := b.setWidth 32, spanN := x.spanN, spanRecs := x.spanRecs }

/-- Do something on the dies of a launch in the package. -/
def State.onDies (s : State) (l : Launch) (f : State → State) : State := l.dieIxs.foldl (fun s d => s.onDie d f) s

/-- Load a rota; it does not run yet. Without one, ROTAST takes its reset value where no rota runs (R5, R323). -/
def State.loadRota (s : State) (ws : List Word) (t0 : Nat) : State :=
  if ws = [] then if s.fab.rotaOn then s else s.modFab fun f => { f with slot := 0, rot := 0, deads := 0 }
  else s.modFab fun f => { f with
    rota := ws, rotaOn := false, rotaT0 := t0, rotaN := 0, slot := 0, rot := 0, deads := 0, slotHit := none, rotaStop := 0,
    rotaDark := [] }

/-- The rota runs from its first rotation boundary at or after the present GTC (R333, R362). -/
def State.runRota (s : State) (l : Launch) : State :=
  if !l.rota then s
  else
    let n := s.fab.rotaSlots
    let len := bitsAt (s.fab.rota.getD 0 0).toNat 32 32
    s.modFab fun f => { f with rotaOn := true, rotaStop := 0, rotaN := ceilDiv (s.gtc - f.rotaT0) (n * len) * n }

/-- The rota of a launch that is restored stands as it was saved, also where another launch has loaded its own (R362). -/
def State.backRota (s : State) (l : Launch) : State :=
  match l.kept with
  | none => s
  | some (ws, t0, rot, deads) =>
    if s.fab.rota = ws ∧ s.fab.rotaT0 = t0 then s
    else (s.loadRota ws t0).modFab fun f => { f with rot := rot, deads := deads }

/-- What a bay reports of cuts and stencil loads at the start of a kernel (R120, R121). -/
def Bay.noCuts (x : Bay) : Bay := { x with cutWord := 0, cutNew := false, cutPasses := 0, cutErr := none, ldErr := [] }

/-- A kernel starts on the current die; entries of the hoist table do not outlive the one before (R144). -/
def State.runKernel (s : State) (va : Nat) : State :=
  s.kernelQuantum.modDie fun d => { d with
    running := true, halting := false
    ctx := { d.ctx with
      seg := none, half := .empty, idx := 0, hold := 0, exit := none, exiting := false, spEmpty := 0, hoist := []
      bay := d.ctx.bay.map Bay.noCuts
      target := some { va := va, idx := 0 } } }

/-- The step of a node of the graph, after its 64 die-clock cycles (R368). -/
def walkerStep (kind : Nat) : Instr :=
  match kind with
  | 1 => .walkerConditionalNode
  | 2 => .walkerWhileNode
  | 3 => .walkerJoinNode
  | _ => .walkerKernelNode

/-- Address of the walker's current node (R367). -/
def Walker.addr (w : Walker) : Nat := w.graph + 32 * w.node

/-- The walker of the die comes to its current node. -/
def State.walkerAt (s : State) : State :=
  let s := s.modCtx fun c => { c with walk := { c.walk with busy := true } }
  let a := s.cur.val * 2 ^ 27 + s.ctx.walk.addr / 8 * 8 % 2 ^ 27
  s.after 64 (walkerStep (bitsAt (s.mem.num a 8) 0 3))

/-- Fetch starts at ENTRY, or the walker at its first node (R351). -/
def State.beginDie (s : State) (i : Image) : State :=
  if i.graph = 0 then s.runKernel i.entry
  else (s.modCtx fun c => { c with walk := { graph := i.graph, node := bitsAt i.entry 0 16 } }).walkerAt

/-- Read the image of a launch anew, with what it loads. -/
def State.launchImage (s : State) (l : Launch) : State × Except Nat (Image × Loads) :=
  match s.headAt l.ctx l.image (List.finRange 8) with
  | (s, none) => (s, .error 0x0A)
  | (s, some (d, i)) =>
    match s.launchLoads (s.disp.queueAt l.queue) l.image d i l.rect with
    | (s, .error e) => (s, .error e)
    | (s, .ok x) => (s, .ok (i, x))

/-- Remove a launch. -/
def State.dropLaunch (s : State) (id : Nat) : State :=
  s.modDisp fun p => { p with launches := p.launches.filter fun l => l.id != id }

/-- Every die of a gang's launch in the package starts, or a launch within the package does (R249, R358). -/
def State.goDies (s : State) (l : Launch) (i : Image) : State :=
  let s := (s.onDies l fun s => s.beginDie i).modLaunch l.id fun l =>
    { l with phase := .running, begun := true, runs := l.dies }
  s.runRota l

/-- A launch whose dies are idle is set up; within the package it starts at once (R249). -/
def State.setUp (s : State) (l : Launch) : State :=
  match s.launchImage l with
  | (s, .error e) => (s.dropLaunch l.id).completeRecord l.queue e 0 0 l.coord
  | (s, .ok (i, x)) =>
    let s := s.onDies l fun s => s.setUpDie l i x
    let t0 := if l.gang then l.t0 else s.gtc
    let s := (s.loadRota x.rota t0).onDies l fun s => s.modCtx fun c => { c with t0 := .ofNat 64 t0 }
    if l.gang then
      (s.modLaunch l.id fun l => { l with phase := .prepared, confirmed := false }).push
        [.instr .gangReady (.package s.host.pkg l.id)]
    else
      ((s.onDies l fun s => s.modCtx fun c => { c with token := true, confirmed := true }).modLaunch l.id fun l =>
        { l with confirmed := true }).goDies { l with t0 := t0 } i

/-- No other launch holds a die of the launch. -/
def State.diesIdle (s : State) (l : Launch) : Bool :=
  s.disp.launches.all fun x => x.id == l.id || x.phase == .parked || x.phase == .waiting ||
    !x.dies.any fun d => l.dies.contains d

/-- Start, or begin to restore, the granted launches whose dies have become idle. -/
def State.startReady (s : State) : State :=
  (s.disp.launches.filter fun l => l.phase == .waiting).foldl (fun s l =>
    if !s.diesIdle l then s
    else if l.begun then
      let (w, s) := (s.modLaunch l.id fun l => { l with phase := .restoring }).takeWait
      s.at (s.now + w) 0 (.contextRestore l.id)
    else s.setUp l) s

/-! ### Decisions (R347, R348) -/

/-- Every die of a rectangle holds a resident region. -/
def Disp.holdsRegion (p : Disp) (n : Nat) (r : Rect) : Bool :=
  n == 0 || r.cells.all fun c => p.regions.any fun x => x.1 == n && x.2.1 == 8 * c.1 + c.2

/-- A rectangle can satisfy steps 1 to 3 of R347 for a queue. -/
def State.rectOk (s : State) (q : Queue) (r : Rect) : Bool :=
  s.inGrid r && s.disp.holdsRegion q.region r && (r.own s.host.pkg).all fun d => !s.disp.lostmap.getLsbD d

/-- The rectangles of an image in the domain, in the order in which they are sought. -/
def Image.rects (i : Image) : List Rect :=
  if !i.free then [⟨i.row, i.col, i.nr, i.nc⟩]
  else (List.range 8).flatMap fun r => (List.range 32).map fun c => Rect.mk r c i.nr i.nc

/-- The package holds the first die of a rectangle: its dispatcher coordinates the launch. -/
def State.first (s : State) (r : Rect) : Bool := (gridDie r.row r.col).1 == s.host.pkg

/-- A launch gives way to a queue: it runs, or has not started, and the queue precedes its own. -/
def Disp.yields (p : Disp) (n : Nat) (l : Launch) : Bool :=
  (l.phase == .running || (l.phase == .waiting && !l.gang)) && p.precedes n l.queue

/-- Steps 4 and 5 of R347. -/
def State.diesOpen (s : State) (n : Nat) (taken : List Nat) (r : Rect) : Bool :=
  (r.own s.host.pkg).all fun d => !taken.contains d &&
    s.disp.launches.all fun l => l.phase == .parked || !l.dies.contains d || s.disp.yields n l

/-- Ask the dies of a launch to halt (R361): within 60 cycles. -/
def State.askHalt (s : State) (l : Launch) : State :=
  let s := if l.rota then s.modFab fun f => { f with rotaStop := 2 } else s
  ((List.finRange 8).filter fun d => l.runs.contains d.val).foldl (fun s d =>
    let (w, s) := s.takeWait
    s.at (s.now + min w 60) d .preemptionRequest (.launch l.id)) s

/-- A launch is pre-empted (R347, R348): its queue is enqueued anew. One that has not started, or is to be restored, gives
up its grant. -/
def State.preempt (s : State) (l : Launch) : State :=
  if l.phase = .waiting then
    if l.begun then s.modLaunch l.id fun l => { l with phase := .parked } else s.dropLaunch l.id
  else
    let s := s.modLaunch l.id fun l => { l with phase := .halting }
    (s.enqueueAt l.queue s.gtc).askHalt l

/-- Pre-empt the launches that hold some dies. -/
def State.preemptOn (s : State) (id : Nat) (dies : List Nat) : State :=
  (s.disp.launches.filter fun l => l.id != id && l.phase != .parked && l.dies.any fun d => dies.contains d).foldl
    (fun s l => s.preempt l) s

/-- A slice begins (R348). -/
def State.newSlice (s : State) (id : Nat) : State :=
  let t := s.now + 2 * s.disp.maxSlice
  (s.modLaunch id fun l => { l with sliceAt := t }).at t 0 (.sliceEnd id)

/-- A queue is granted a rectangle for a new launch, whose context touches its dies (R366). -/
def State.grant (s : State) (n : Nat) (r : Rect) (va : Nat) (i : Image) (id t0 : Nat) (coord : Bool) : State :=
  let q := s.disp.queueAt n
  let pkgs := r.pkgs
  let dies := r.own s.host.pkg
  let gang := decide (1 < pkgs.length)
  let l : Launch :=
    { id := id, queue := n, ctx := q.ctx, row := r.row, col := r.col, nr := r.nr, nc := r.nc, dies := dies, image := va,
      gang := gang, coord := coord, t0 := t0, graph := i.graph, rota := i.rota != 0 }
  let touch := r.cells.foldl (fun (m : BitVec 256) c => m ||| (1#256 <<< (8 * c.1 + c.2))) 0
  let s := s.modDisp fun p => { p with launches := p.launches ++ [l] }
  let s := s.modCtxDesc q.ctx fun c => { c with touch := c.touch ||| touch }
  (s.preemptOn id dies).newSlice id

/-- Cycles until the first die-clock cycle of a GTC tick to come (R358). -/
def State.cyclesTo (s : State) (t : Nat) : Nat := 2 * (t - s.gtc) - b2n s.half

/-- A queue that the package's dispatcher decides on is granted a rectangle; for a gang, the start time is fixed and the
cut-off runs (R358, R360). -/
def State.grantOwn (s : State) (n : Nat) (r : Rect) (va : Nat) (i : Image) : State :=
  let id := s.disp.nextId
  let t0 := s.gtc + s.disp.prepLead
  let s := (s.modDisp fun p => { p with nextId := p.nextId + 1 }).grant n r va i id t0 true
  if r.pkgs.length ≤ 1 then s
  else s.at (s.now + s.cyclesTo (t0 - s.disp.goLead)) 0 .gangReadyDeadline (.launch id)

/-- Seek a placement for a ready queue; `taken` are the dies that earlier queues of the decision reserve. A rectangle whose
first die lies in another package is placed by that package (R358). -/
def State.seek (s : State) (taken : List Nat) (n : Nat) : State × List Nat :=
  let q := s.disp.queueAt n
  match s.disp.launches.find? fun l => l.queue == n && l.phase == .parked with
  | some l =>
    if s.rectOk q l.rect && s.diesOpen n taken l.rect then
      (((s.modLaunch l.id fun l => { l with phase := .waiting }).preemptOn l.id l.dies).newSlice l.id, taken ++ l.dies)
    else (s, taken)
  | none =>
    match s.headOf n q with
    | (s, .error e) => (s.completeRecord n e 0 0, taken)
    | (s, .ok (va, d, i)) =>
      if i.bad || i.differs q then (s.completeRecord n 1 0 0, taken)
      else
        let rs := i.rects.filter (s.rectOk q)
        if rs = [] then (s.completeRecord n 2 0 0, taken)
        else match (rs.filter s.first).find? (s.diesOpen n taken) with
          | none => (s, taken)
          | some r =>
            match s.launchLoads q va d i r with
            | (s, .error e) => (s.completeRecord n e 0 0, taken)
            | (s, .ok _) => (s.grantOwn n r va i, taken ++ r.own s.host.pkg)

/-- A decision (R347): the doorbells are read, the ready queues are placed, and launches with idle dies start. -/
def State.dispatch (s : State) : State :=
  if s.host.failsafe || !s.host.ready then s
  else
    let s := s.observe
    (s.disp.readyQueues.foldl (fun (acc : State × List Nat) n => acc.1.seek acc.2 n) (s, [])).1.startReady

/-- `DOORBELL_POLL` (R413). -/
def execDoorbellPoll (s : State) : Host.Outcome State Fault Refusal := .next s.dispatch

/-- `SLICE_END` (R348): the queue is enqueued anew, and its context goes on in a new slice unless a queue that precedes it
takes its dies. -/
def execSliceEnd (id : Nat) (s : State) : Host.Outcome State Fault Refusal :=
  match s.launch id with
  | some l =>
    if l.phase = .halting ∨ l.phase = .parked ∨ l.phase = .ending ∨ s.now < l.sliceAt then .next s
    else .next ((s.enqueueAt l.queue s.gtc).newSlice id).dispatch
  | none => .next s

/-! ### The end of a launch (R344, R404) -/

/-- Clear the granules of modes 1 to 3 that a domain owns on the die. -/
def State.clearOwn (s : State) (dom : Nat) : State :=
  (s.ownGranules s.cur.val dom).foldl (fun s g => s.zeroGranule g) s

/-- What is left of a context on a die that another context may use. -/
def Ctx.strip (c : Ctx) : Ctx :=
  { c with pend := [], ldq := [], stq := [], gets := [], sump := [], cut := none, cutq := [], lds := [], seg := none, half := .empty,
           wait := [], trap := none, due := [], hoist := [], target := none, hold := 0, exiting := false, preq := false,
           pump := {}, walk := {} }

/-- Statuses with which a context is ended (R404): gang abort, double trap, die loss. -/
def endsContext (status : Nat) : Bool := status == 6 || status == 8 || status == 9

/-- What the pump of the die still had to do for a context that is gone: its WRs will send nothing. -/
def State.dropColumns (s : State) (ctx : Nat) : State :=
  s.modPump fun p => { p with wrs := p.wrs.filter fun w => w.2.2 != ctx }

/-- The recovery record takes the place of a queue's record; a recovery is repeated once, and completes with status 0x09
when that does not suffice (R404, R405). -/
def State.recover (s : State) (n : Nat) : State :=
  let q := s.disp.queueAt n
  if q.recov then
    if 1 ≤ q.repeats then s.completeRecord n 9 0 0
    else (s.modQueue n fun q => { q with repeats := 1, queued := true, cancels := 0 }).poke
  else (s.modQueue n fun q => { q with recov := true, repeats := 0, queued := true, cancels := 0 }).poke

/-- A launch ends by a fault (R344, R360, R404): its contexts may be ended with it, and the recovery record then takes the
place of the record if the queue has one. -/
def State.endFault (s : State) (l : Launch) (status cause : Nat) : State :=
  let dom := (s.disp.ctxAt l.ctx).domid
  let s := s.onDies l fun s => if s.ctx.launchId ≠ .ofNat 64 l.id then s.dropColumns l.ctx else
    let s := (if status = 6 then s.clearOwn dom else s).dropColumns l.ctx
    s.modDie fun d => { d with running := false, halting := false, ctx := { d.ctx.strip with dead := d.ctx.dead || endsContext status } }
  let s := s.dropLaunch l.id
  if l.coord ∧ endsContext status ∧ SMap.get 0 s.disp.recovery l.queue ≠ 0 then s.recover l.queue
  else s.completeRecord l.queue status l.code (if status = 8 then cause else 0) l.coord

/-- A launch has ended on all of its dies. -/
def State.endLaunch (s : State) (l : Launch) : State :=
  let s := if l.rota then s.modFab fun f => { f with rotaStop := max f.rotaStop 1 } else s
  match l.fault with
  | some (st, cause) => s.endFault l st cause
  | none => (s.dropLaunch l.id).completeRecord l.queue 0 l.code 0 l.coord

/-- A launch ends when its dies of every package have ended their kernels and, for a gang, CONFIRM has come (R344, R359,
R372). -/
def State.endCheck (s : State) (id : Nat) : State :=
  match s.launch id with
  | some l => if l.confirmed && l.rect.pkgs.all l.ended.contains then s.endLaunch l else s
  | none => s

/-- The dies of a launch in a package have ended their kernels. -/
def State.partEnded (s : State) (id pkg : Nat) : State :=
  (s.modLaunch id fun l => { l with ended := (pkg :: l.ended).dedup }).endCheck id

/-- A launch begins to end by a fault: the dies that still run are halted. -/
def State.failLaunch (s : State) (id status cause : Nat) : State :=
  match s.launch id with
  | none => s
  | some l =>
    if l.fault.isSome then s
    else
      let l := { l with fault := some (status, cause), phase := .ending }
      (s.modLaunch id fun _ => l).askHalt l

/-! ### Halts, saves and restores (R361, R362, R364) -/

/-- Saved dies, and dies still to halt. -/
def Launch.savedDies (l : Launch) : List Nat := l.saved.map Saved.die

/-- Timers of a die that belong to its context's queues, loop buffer and walker. -/
def ofContext : Work → Bool
  | .instr .queuedLoadPerform _ => true
  | .instr .queuedStorePerform _ => true
  | .instr (.segmentExpansionDone _) _ => true
  | .instr .walkerKernelNode _ => true
  | .instr .walkerConditionalNode _ => true
  | .instr .walkerWhileNode _ => true
  | .instr .walkerJoinNode _ => true
  | _ => false

/-- The save is written to the frames of the context's save area (R363, R364, log 60). -/
def State.writeSave (s : State) (d : CtxDesc) (granules : Nat) : State :=
  let n := s.free
  (List.range d.csan).foldl (fun s j =>
    let leaf := d.csaLeaf + j
    let w := s.leafAt (s.leafAddr leaf)
    let g := s.leafGeom leaf
    if !lfValid w then s
    else (List.range (min g.bytes (saveBytes granules - j * g.bytes) / 64)).foldl (fun s k =>
      s.writeChunk g (lfTier w) (lfFrame w) (64 * k)
        ((List.range 64).map fun i => Config.saveByte n (j * g.bytes + 64 * k + i)) false false) s)
    { s with free := s.free + 1 }

/-- A column command of the die waits for a WR of the context. -/
def Pump.waits (p : Pump) (ctx pc n : Nat) : Bool := p.wrs.any fun w => w.2.1 == pc && decide (w.1 < n) && w.2.2 == ctx

/-- What a save stores of the current die, and the die afterwards: the granules of modes 1 to 3 that the context owns are
cleared. Gets in flight go back to the load queue (R362). RDs and near-memory commands that wait for a WR of the context
are saved with it, in the order of their rows (R227). -/
def State.saveDie (s : State) : State × Saved :=
  let c := s.ctx
  let n := c.ctxNo.toNat
  let p := s.die.pump
  let rd := fun (d : RdData) => d.ctx == n && p.waits n d.bank.pc.toNat d.seq
  let nm := fun (j : NmcJob) => j.ctx == n && p.waits n j.bank.pc.toNat j.seq
  let gs := s.ownGranules s.cur.val c.domid.toNat
  let own := fun (a : Nat) => adDie a == s.cur && gs.contains (granule a)
  let x : Saved :=
    { die := s.cur.val, ctx := { c with ldq := c.gets ++ c.ldq, gets := [], preq := false, hoist := [] },
      cells := s.mem.cistern.filter fun y => own y.1
      hidden := (s.mem.pz.filter fun y => own (16 * y.1), s.mem.nr.filter fun y => own (16 * y.1))
      ecc := s.mem.ecc.filter fun y => own (16 * y.1), qlog2 := s.die.ord.qlog2, cbwait := s.die.ord.cbwait
      rds := p.rds.filter rd, nmc := p.nmc.filter nm, wrs := p.wrs.filter fun w => w.2.2 == n }
  let s := s.writeSave (s.disp.ctxAt n) gs.length
  let s := s.modPump fun p => { p with
    rds := p.rds.filter fun d => !rd d, nmc := p.nmc.filter fun j => !nm j, wrs := p.wrs.filter fun w => w.2.2 != n }
  let s := gs.foldl (fun s g => s.zeroGranule g) s
  let s := { s with timers := s.timers.filter fun t => t.task.die != s.cur || !ofContext t.task.work }
  (s.modDie fun d => { d with running := false, halting := false, ctx := d.ctx.strip }, x)

/-- Save a die of a launch. -/
def State.saveInto (s : State) (id : Nat) : State :=
  let (s, x) := s.saveDie
  s.modLaunch id fun l => { l with saved := l.saved ++ [x] }

/-- Every engine request of the die has written its completion word, and its sump updates are applied; a cut does not
complete (R117, R364). -/
def State.requestsDone (s : State) : Bool :=
  s.die.engine == [] && s.die.pageq == [] && s.die.groups == [] && s.die.snaps == 0 &&
    s.die.ord.verbs.all fun v => v.kind != .atomic

/-- The dies of a launch that are not lost. -/
def State.aliveOf (s : State) (l : Launch) : List DieIx := l.dieIxs.filter fun d => (s.dieAt d).alive

/-- When every die of a launch that still runs has halted, and every engine request of the context is done on all of its
dies, the dies are saved together, those whose kernels had ended too (R364). The save completes after an open time; where
the dies have halted for a trap that goes to the dispatcher (R379) the launch then ends by its fault. A launch whose dies
have all ended by themselves is at its end in the package. -/
def State.haltCheck (s : State) (id : Nat) : State :=
  match s.launch id with
  | none => s
  | some l =>
    if !l.runs.all l.halted.contains then s
    else if l.saved ≠ [] then (if l.fault.isSome then s.endLaunch l else s)
    else if l.runs = [] ∧ l.fault = none then s.partEnded id s.host.pkg
    else if l.fault = none ∧ l.phase ≠ .halting then s
    else if l.fault.any (fun f => !endsContext f.1) then s.endLaunch l
    else
      let ds := s.aliveOf l
      match ds.find? fun d => !({ s with cur := d } : State).requestsDone with
      | some d => s.onDie d fun s => s.after 1 .preemptionHalt (.status 0)
      | none =>
        let s := ds.foldl (fun s d => s.onDie d fun s => s.saveInto id) s
        match l.fault with
        | some _ => ((s.launch id).map s.endLaunch).getD s
        | none =>
          let (w, s) := s.takeWait
          s.at (s.now + w) 0 (.contextSaveComplete id)

/-- A die of a launch is done: its kernel or graph has ended. -/
def State.dieDone (s : State) (id : Nat) : State :=
  (s.modLaunch id fun l => { l with runs := l.runs.filter fun d => d != s.cur.val }).haltCheck id

/-- `PREEMPTION_REQUEST` (R361): PREQ is set. One that another package sends for its gang halts the gang's dies here too
(R362). -/
def execPreemptionRequest (s : State) : Host.Outcome State Fault Refusal :=
  match s.msg, s.launchOn s.cur.val with
  | .launch id, some l =>
    if l.id = id ∧ l.runs.contains s.cur.val ∧ (l.phase = .halting ∨ l.phase = .ending) then
      .next (s.modCtx fun c => { c with preq := true })
    else if l.id = id ∧ l.gang ∧ l.phase = .running then .next (s.preempt l)
    else .next s
  | _, _ => .next s

/-- The status of a record whose context ends by a trap that went to the dispatcher (R344, R379). -/
def faultStatus (n : Nat) : Nat :=
  if 0x200 ≤ n then 8 else if n % 256 = 0x0F then 9 else if n % 256 = 0x13 then 6 else 8

/-- `PREEMPTION_HALT` (R361, R218): the die is halted, and a set that is open is never published (R251). The context is
saved once every die that runs it has halted and its engine requests are done; a trap that went to the dispatcher then ends
the launch (R379). -/
def execPreemptionHalt (s : State) : Host.Outcome State Fault Refusal :=
  match s.msg with
  | .status n =>
    let s := ((s.closeGroups fun _ => true).modCtx fun c => { c with hoist := [] }).freeSets
    match s.launchOn s.cur.val with
    | none => .next (s.modDie fun d => { d with halting := false })
    | some l =>
      let s := if n = 0 then s else s.failLaunch l.id (faultStatus n) (n % 256)
      let s := (s.modLaunch l.id fun l => { l with halted := (s.cur.val :: l.halted).dedup }).haltCheck l.id
      .next (if (s.launch l.id).isNone then s.dispatch else s)
  | _ => .next s

/-- `CONTEXT_SAVE_COMPLETE` (R364), a decision point. -/
def execContextSaveComplete (id : Nat) (s : State) : Host.Outcome State Fault Refusal :=
  match s.launch id with
  | some l =>
    if l.phase != .halting then .next s
    else
      let f := s.fab
      let k := if l.rota then some (f.rota, f.rotaT0, f.rot, f.deads) else none
      .next (s.modLaunch id fun l => { l with phase := .parked, kept := k }).dispatch
  | none => .next s

/-- The segment in force of a restored context is expanded again, and issue waits for it (R27, R364). -/
def State.reexpand (s : State) : State :=
  match s.ctx.seg with
  | none =>
    (match s.ctx.half with
     | .expanding va => s.startExpand va
     | .ready g => s.startExpand g.va
     | .empty => s)
  | some g => (s.startExpand g.va).modCtx fun c => { c with restored := true }

/-- Queued accesses perform again. -/
def State.requeue (s : State) : State :=
  let s := s.ctx.ldq.foldl (fun s _ => s.whenever .queuedLoadPerform) s
  s.ctx.stq.foldl (fun s _ => s.whenever .queuedStorePerform) s

/-- The pump of a restored context opens the recorded rows again (R278, R289). -/
def State.reopenRows (s : State) : State :=
  if s.ctx.pump.openRec = [] then s
  else
    let l := s.ctx.pump.openRec
    s.modPump fun p => { p with idle := some (match p.idle with
      | some r => if r.phase = .run then r else { r with phase := .reopen (l.filter fun x => p.bankAt x.1 == .closed) }
      | none => { start := s.now, phase := .reopen (l.filter fun x => p.bankAt x.1 == .closed) }) }

/-- Restore what was saved of the current die; a cut or stencil load that the halt broke off starts again (R117). -/
def State.restoreDie (s : State) (l : Launch) (x : Saved) : State :=
  let d := s.disp.ctxAt l.ctx
  let cut := x.ctx.cut.map fun (j : CutJob) => { j with start := s.now, lanes := [], bad := none }
  let lds := x.ctx.lds.map fun (j : LdJob) => { j with start := s.now, bytes := [], bad := none }
  let s := s.modOrd fun o => { o with qlog2 := x.qlog2, cbwait := x.cbwait }
  let s := s.modPump fun p => { p with rds := x.rds ++ p.rds, nmc := x.nmc ++ p.nmc, wrs := x.wrs ++ p.wrs }
  let s := x.rds.foldl (fun s d => s.after 1 .rdDataReturn (.rdData d)) s
  let s := x.nmc.foldl (fun s j => s.after 1 .nmcCompletion (.nmc j)) s
  let s := s.modDie fun y => { y with
    tlb := [], halting := false, running := l.runs.contains s.cur.val && !x.ctx.walk.busy
    ctx := { x.ctx with cut := cut, lds := lds, tvec := .ofNat 64 d.tvec } }
  let s := s.modMem fun m => { m with
    cistern := x.cells.foldl (fun c y => SMap.put 0 c y.1 y.2) m.cistern
    pz := x.hidden.1.foldl (fun z y => SMap.put false z y.1 y.2) m.pz
    nr := x.hidden.2.foldl (fun z y => SMap.put false z y.1 y.2) m.nr
    ecc := x.ecc.foldl (fun z y => SMap.put .ok z y.1 y.2) m.ecc }
  let s := s.requeue.reopenRows
  if !l.runs.contains s.cur.val then s
  else if x.ctx.walk.busy then s.walkerAt
  else s.reexpand

/-- `CONTEXT_RESTORE` (R364, R362). -/
def execContextRestore (id : Nat) (s : State) : Host.Outcome State Fault Refusal :=
  match s.launch id with
  | some l =>
    if l.phase != .restoring then .next s
    else
      let s := (List.finRange 8).foldl (fun s d =>
        match l.saved.find? fun x => x.die == d.val with
        | some x => s.onDie d fun s => s.restoreDie l x
        | none => s) s
      .next (((s.modLaunch id fun l => { l with phase := .running, saved := [], halted := [], kept := none }).backRota l).runRota l).dispatch
  | none => .next s

end Sys2Proof.Machine
end

