-- ==== Sys2Proof/Machine/Loss.lean ====
section
/-!
DEFINITION. Scrubbing, the rebuild of a bank, UCIe lanes (R385, R391, R392, R396), and the loss of dies (R402, R403, R405).
-/

namespace Sys2Proof.Machine

/-! ### The scrubber (R385) -/

/-- `SCRUB_READ` (R385): the next word of the bay's data banks, bank by bank. -/
def execScrubRead (bay : BayIx) (s : State) : Host.Outcome State Fault Refusal :=
  let n := SMap.get 0 s.die.err.scrubPos bay.val
  let (s, _, _) := s.decodeWord (wordAddr s.cur.val bay.val (n / 8192 % 128) (n % 8192) / 16) false
  let s := s.modErr fun e => { e with scrubPos := SMap.put 0 e.scrubPos bay.val ((n + 1) % 2 ^ 20) }
  .next (s.after s.die.err.scrub (.scrubRead bay))

/-! ### Rebuild (R392) -/

/-- `BANK_REBUILD_WORD` (R392): one word, when the side ports are free for it; a row of which another word reads uncorrectable,
as every word of a lost bank does, gives a poisoned word. -/
def execBankRebuildWord (s : State) : Host.Outcome State Fault Refusal :=
  let e := s.die.err
  if !e.rcBusy then .next s
  else
    let at_ := fun (b : Nat) => wordAddr s.cur.val e.rcBay b e.rcNext / 16
    let a := 16 * at_ e.rcBank
    let row := ((List.range 8).map (e.rcBank / 8 * 8 + ·)).filter (· != e.rcBank)
    if s.sideTaken ((e.rcBank :: row).map at_) then .next (s.after 1 .bankRebuildWord)
    else
    let s := s.takeSide ((e.rcBank :: row).map at_)
    -- the seven other words and the parity word are read (R384)
    let (s, bad) := row.foldl (fun (x : State × Bool) b =>
      let (t, st, _) := x.1.decodeWord (at_ b) false
      (t, x.2 || st == .bad)) (s, false)
    let chk := SMap.get .ok s.mem.chk (chkKey (a / 16))
    let s := if chk = .single then s.event (64 + e.rcBay) kCe a else s
    let bad := bad || chk == .multi
    let s := s.modMem fun m => { m with
      ecc := SMap.put .ok m.ecc (a / 16) .ok
      chk := SMap.put .ok m.chk (chkKey (a / 16)) .ok
      pz := if bad then SMap.put false m.pz (a / 16) true else m.pz }
    let s := if bad then s.event (64 + e.rcBay) kUe a else s
    let s := s.modErr fun e => { e with rcNext := e.rcNext + 1 }
    .next (if 8192 ≤ e.rcNext + 1 then s.push [.instr .bankRebuildComplete .none] else s.after 1 .bankRebuildWord)

/-- `BANK_REBUILD_COMPLETE` (R392): the check bank serves the bank's address. -/
def execBankRebuildComplete (s : State) : Host.Outcome State Fault Refusal :=
  let e := s.die.err
  if !e.rcBusy then .next s
  else
    let s := s.modErr fun e => { e with rcBusy := false, rcNext := 0, rebuilt := (e.rebuilt + 1) % 256 }
    .next (s.event (64 + e.rcBay) kRebuilt (wordAddr s.cur.val e.rcBay e.rcBank 0))

/-! ### UCIe lanes (R391, R396) -/

/-- `UCIE_LANE_ERROR` (R396): the flit is replayed and counted; a lane that is known is tracked. -/
def execUcieLaneError (port : Nat) (lane : Option Nat) (s : State) : Host.Outcome State Fault Refusal :=
  let s := s.event 72 kCe (port % 16 + lane.getD 0 % 64 * 256)
  match lane with
  | some l => .next (s.trackCe (.lane (port % 16) (l % 64)))
  | none => .next s

/-- `LANE_REPLACEMENT_DONE` (R391): the link of the port carries flits again. -/
def execLaneReplacementDone (port : Nat) (s : State) : Host.Outcome State Fault Refusal :=
  let done := s.die.err.down.filter fun x => x.1 == port
  let s := done.foldl (fun s x => s.event 72 kLaneRet (x.1 + x.2 * 256)) s
  .next (s.modErr fun e => { e with down := e.down.filter fun x => x.1 != port })

/-! ### Die loss (R402, R403, R366) -/

/-- Work of the package and not of a die: it goes on when a die is lost. -/
def ofPackage : Work → Bool
  | .instr i _ =>
    (match i with
     | .sliceEnd _ => true
     | .contextSaveComplete _ => true
     | .contextRestore _ => true
     | .doorbellPoll => true
     | .heartbeatPoll => true
     | .gangPrepare => true
     | .gangReady => true
     | .gangReadyDeadline => true
     | .goToken => true
     | .gangCancel => true
     | .gangStart => true
     | .gangStarted => true
     | .gangAckDeadline => true
     | .gangConfirm => true
     | .gangAbort => true
     | .ringLock _ _ => true
     | .portGated _ => true
     | .rotaSlotStart _ => true
     | .laserRemoval _ => true
     | .laserInsertion _ => true
     | .timeExchangeFlit => true
     | .fabricManagerCommand => true
     | .hostDoorbellWrite _ _ => true
     | .hostRegisterWrite => true
     | .hostReservoirRead => true
     | .hostReservoirWrite => true
     | .islandFailure _ => true
     | .uciePortFailure _ => true
     | .dieLossNotice => true
     | .unansweringPackageLost => true
     | .powerOn _ => true
     | _ => false)
  | .command _ => true
  | _ => false

/-- A buffered access of the current die to a lost die is freed as failed. -/
def State.failVerb (s : State) (v : Verb) : State :=
  let s := s.cbFree v.seq
  match v.kind with
  | .get =>
    (match s.ctx.gets.find? fun o => o.data == v.seq with
     | some o => (s.modCtx fun c => { c with gets := c.gets.filter fun o => o.data != v.seq }).loadFail o 0x0F
     | none => s)
  | .atomic => s
  | _ => s.dueTrap 0x0F v.op.ea v.op.handler

/-- What the loss of a die does on another die of the package: buffered accesses to it fail, peers on it break, and what it
sent is discarded. -/
def State.feelLoss (s : State) (pkg die : Nat) : State :=
  let there := fun (v : Verb) => pkg == s.host.pkg && (adDie v.op.ea).val == die
  let s := (s.die.ord.verbs.filter there).foldl (fun s v => s.failVerb v) s
  let peers := (List.range 256).filter fun p => (s.peerEntry p).any fun e => wmTarget e && wmPkg e == pkg && wmDie e == die
  let s := peers.foldl (fun s p => s.breakPeer p 3) s
  s.modOrd fun o => { o with arrived := o.arrived.filter fun x => x.issuer != 8 * pkg + die }

/-- The trap of a context that touched a lost die (R366, R248): word 2 is its place in the grid. -/
def State.lossTrap (s : State) (pkg die : Nat) : State :=
  if s.die.running then s.raise (s.ctx.recOf ⟨0x0F, gridRow pkg die + gridCol pkg die * 2 ^ 8, 0⟩ 0)
  else (s.modDie fun d => { d with halting := true }).after 256 .preemptionHalt (.status 0x10F)

/-- The loss of a die ends a launch whose context touched it. -/
def State.loseLaunch (s : State) (l : Launch) (pkg die : Nat) : State :=
  let here := fun (d : Nat) => pkg == s.host.pkg && d == die
  if l.phase = .running ∨ l.phase = .halting ∨ l.phase = .ending then
    let s := s.modLaunch l.id fun l =>
      { l with fault := l.fault <|> some (9, 0x0F), phase := .ending, runs := l.runs.filter fun d => !here d }
    let run := l.dieIxs.filter fun d =>
      l.runs.contains d.val && !l.halted.contains d.val && !here d.val && !(s.dieAt d).halting
    (run.foldl (fun s d => s.onDie d fun s => s.lossTrap pkg die) s).haltCheck l.id
  else s.endFault l 9 0x0F

/-- A die of the domain is lost: every launch whose context touched it ends. -/
def State.dieGone (s : State) (pkg die : Nat) : State :=
  let s := s.eachDie fun s => if s.die.alive then s.feelLoss pkg die else s
  (s.disp.launches.filter fun l => (s.disp.ctxAt l.ctx).touch.getLsbD (8 * pkg + die)).foldl
    (fun s l => s.loseLaunch l pkg die) s

/-- The current die of the package is declared lost (R402): its cistern and stack are gone with it. -/
def State.declareLost (s : State) : State :=
  let d := s.cur
  if s.disp.lostmap.getLsbD d.val then s
  else
    let s := s.modDisp fun p => { p with lostmap := p.lostmap ||| (1#8 <<< d.val) }
    let s := s.postFault (s.gdie d) faultDieLost []
    let (w, s) := s.takeWait
    let s := s.at (s.now + min w 200000) 0 .dieLossNotice (.die s.host.pkg d.val)
    let keep := fun (t : Task) => t.die != d || ofPackage t.work
    let s := { s with timers := s.timers.filter fun t => keep t.task, todo := s.todo.filter keep }
    let s := s.setDie { alive := false }
    let lo := d.val * 2 ^ 27
    let hb := hbmKey d.val 0 0 0
    let ub := unitKey d.val 0 0 0
    let s := s.modMem fun m => { m with
      cistern := SMap.clearRange m.cistern lo (lo + 2 ^ 27)
      pz := SMap.clearRange m.pz (lo / 16) ((lo + 2 ^ 27) / 16)
      nr := SMap.clearRange m.nr (lo / 16) ((lo + 2 ^ 27) / 16)
      ecc := SMap.clearRange m.ecc (lo / 16) ((lo + 2 ^ 27) / 16)
      hbm := SMap.clearRange m.hbm hb (hb + 2 ^ 36)
      hbmPz := SMap.clearRange m.hbmPz ub (ub + 2 ^ 31)
      hbmErr := SMap.clearRange m.hbmErr ub (ub + 2 ^ 31) }
    s.dieGone s.host.pkg d.val

/-- A die is declared lost; a die loss is a decision point (R347). -/
def State.loseDie (s : State) (d : DieIx) : State := (s.onDie d State.declareLost).dispatch

/-- `HEARTBEAT_POLL` (R402): the poll of every 200,000 cycles finds which dies miss it. With a message the sideband tells
which dies do not answer from now on. -/
def execHeartbeatPoll (s : State) : Host.Outcome State Fault Refusal :=
  match s.msg with
  | .status mask => .next (s.modDisp fun p => { p with silent := .ofNat 8 mask })
  | _ =>
    let miss := fun (p : Disp) (i : Fin 8) => if p.silent.getLsbD i.val then p.missed.get i + 1 else 0
    let s := s.modDisp fun p => { p with missed := .ofFn (miss p) }
    let s := s.at (s.now + 200000) 0 .heartbeatPoll
    .next ((List.finRange 8).foldl (fun s d => if 3 ≤ s.disp.missed.get d then s.onDie d State.declareLost else s) s).dispatch

/-- `ISLAND_FAILURE` (R402). -/
def execIslandFailure (die : DieIx) (s : State) : Host.Outcome State Fault Refusal := .next (s.loseDie die)

/-- `UCIE_PORT_FAILURE` (R402). -/
def execUciePortFailure (die : DieIx) (s : State) : Host.Outcome State Fault Refusal := .next (s.loseDie die)

/-- `DIE_LOSS_NOTICE` (R402): the other dispatchers of the domain are told of a die of the package; or a die of another
package is lost. -/
def execDieLossNotice (s : State) : Host.Outcome State Fault Refusal :=
  match s.msg with
  | .die pkg die =>
    if pkg = s.host.pkg then .next (s.modDisp fun p => { p with notices := p.notices ++ [die] }) else .next (s.dieGone (pkg % 32) (die % 8)).dispatch
  | _ => .next s

/-- Recoveries that wait for a placement repeat their agreement round (R405). -/
def State.repeatRecoveries (s : State) : State :=
  (s.disp.queues.map Prod.fst).foldl (fun s n =>
    let q := s.disp.queueAt n
    if q.recov && q.queued && s.disp.launches.all (fun l => l.queue != n) then s.recover n else s) s

/-- `UNANSWERING_PACKAGE_LOST` (R405): every die of the package is lost, and the recoveries under way are agreed anew. -/
def execUnansweringPackageLost (s : State) : Host.Outcome State Fault Refusal :=
  match s.msg with
  | .package pkg _ =>
    if pkg = s.host.pkg ∨ s.disp.lostPkgs.contains pkg then .next s
    else
      let s := s.modDisp fun p => { p with lostPkgs := p.lostPkgs ++ [pkg] }
      .next ((List.range 8).foldl (fun s d => s.dieGone (pkg % 32) d) s.repeatRecoveries).dispatch
  | _ => .next s

end Sys2Proof.Machine
end

