-- ==== Sys2Proof/Machine/Command.lean ====
section
/-!
DEFINITION. The commands of the host (R414 to R416, R418 to R421). Each answers with a STATUS and a VALUE; in failsafe only
`FAULTS`, `RESYNC` and `FWLOAD` are served.
-/

namespace Sys2Proof.Machine

/-- A command that failsafe refuses (R418). -/
def State.served (s : State) (f : State → State) : State := if s.host.failsafe then s.reply 2 0 else f s

/-! ### `QSET` (R343, R415) -/

/-- Descriptor word `k` of a queue (R343). -/
def Queue.word (q : Queue) (k : Nat) : Nat :=
  match k with
  | 0 => b2n q.en + q.tier * 2 + q.shr * 2 ^ 8 + q.shc * 2 ^ 16 + q.region * 2 ^ 32 + q.ctx * 2 ^ 48
  | 1 => q.ring + q.rlog * 2 ^ 48
  | _ => q.head + q.tail * 2 ^ 16

/-- The bits of a descriptor word that are not reserved. Those of HEAD are RO: a write leaves them as they are. -/
def queueBits (k : Nat) : Nat :=
  match k with
  | 0 => 0xFFFFFFFF00FFFF0F
  | 1 => 0x000F00FFFFFFFFFF
  | _ => 0x00000000FFFFFFFF

/-- The RW fields of a queue from a descriptor word. -/
def Queue.setWord (q : Queue) (k w : Nat) : Queue :=
  match k with
  | 0 => { q with en := bitAt w 0, tier := bitsAt w 1 3, shr := bitsAt w 8 8, shc := bitsAt w 16 8,
                  region := bitsAt w 32 16, ctx := bitsAt w 48 16 }
  | 1 => { q with ring := bitsAt w 0 40, rlog := bitsAt w 48 4 }
  | _ => { q with tail := bitsAt w 16 16, bell := bitsAt w 16 16 }

/-- A field that a mask touches is outside its limits (R343), or a reserved bit is set under the mask. -/
def queueBad (k w m : Nat) : Bool :=
  let hit := fun (lo n : Nat) => bitsAt m lo n != 0
  let out := fun (lo n a b : Nat) => hit lo n && !(decide (a ≤ bitsAt w lo n) && decide (bitsAt w lo n ≤ b))
  (k == 0 && (out 8 8 1 8 || out 16 8 1 32)) || (k == 1 && ((hit 0 40 && bitsAt w 0 6 != 0) || out 48 4 4 15))

/-- The effective deadline of a queue follows its tier's horizon (R346). -/
def State.effQueue (s : State) (n : Nat) : State :=
  s.modQueue n fun q => if q.queued then { q with eff := min (max q.deadline q.enq) (q.enq + s.disp.horizonOf q.tier) } else q

/-- `QSET` (R415): a write that sets a reserved bit is malformed (R414). -/
def execQset (q : BitVec 16) (word : BitVec 3) (value mask : Word) (s : State) : Host.Outcome State Fault Refusal :=
  .next (s.served fun s =>
    let n := q.toNat
    let k := word.toNat
    let x := s.disp.queueAt n
    let old := x.word k
    let bits := ((BitVec.ofNat 64 old &&& ~~~mask) ||| (value &&& mask)).toNat
    let runs := s.disp.launches.any fun l => l.ctx == x.ctx && l.phase != .parked && l.phase != .waiting
    if (value &&& mask &&& ~~~(BitVec.ofNat 64 (queueBits k))) ≠ 0 ∨ queueBad k bits mask.toNat then s.reply 1 0
    else if runs ∧ ¬(k = 0 ∧ mask.toNat < 16) then s.reply 2 0
    else (((s.modQueue n fun x => x.setWord k bits).effQueue n).reply 0 0).poke)

/-! ### `CTXSET` (R363, R415) -/

/-- The RW fields of a context descriptor from its words. -/
def CtxDesc.setWords (c : CtxDesc) (ws : List Nat) : CtxDesc :=
  let w := fun (k : Nat) => ws.getD k 0
  { c with
    domid := bitsAt (w 0) 0 16, region := bitsAt (w 0) 16 16, leafBase := bitsAt (w 1) 0 32, leafN := bitsAt (w 1) 32 32,
    codeBase := bitsAt (w 2) 0 32, csaLeaf := bitsAt (w 2) 32 32, csan := bitsAt (w 3) 0 8, rbase := bitsAt (w 4) 0 40,
    rlen := bitsAt (w 5) 0 40, tvec := w 10 }

/-- `CTXSET` (R415). -/
def execCtxset (ctx : BitVec 16) (addr : Word) (s : State) : Host.Outcome State Fault Refusal :=
  .next (s.served fun s =>
    let n := ctx.toNat
    match s.hostBytes addr.toNat 128 with
    | none => s.reply 4 0
    | some l =>
      let ws := wordsOf l 16
      if ws.getD 10 0 % 128 ≠ 0 then s.reply 1 0
      else if s.disp.launches.any fun l => l.ctx == n then s.reply 2 0
      else (s.modCtxDesc n fun c => c.setWords ws).reply 0 0)

/-! ### `REGION`, `TIER`, `RECOVER` (R365, R345, R312, R314, R404) -/

/-- `REGION` (R415): the granules of a resident region on a die. -/
def execRegion (n : BitVec 16) (die : BitVec 8) (addr count : Word) (s : State) : Host.Outcome State Fault Refusal :=
  .next (s.served fun s =>
    let g := die.toNat
    match s.hostBytes addr.toNat (2 * count.toNat) with
    | none => s.reply 4 0
    | some l =>
      let gs := (List.range count.toNat).map fun k => bytesNat ((l.drop (2 * k)).take 2)
      let ok := fun (x : Nat) => decide (x < 16384) &&
        (g / 8 != s.host.pkg || granMode (s.mem.granEntry (g % 8) x) == 4)
      if n = 0 ∨ !gs.all ok then s.reply 1 0
      else
        let s := s.modDisp fun p =>
          let rest := p.regions.filter fun x => !(x.1 == n.toNat && x.2.1 == g)
          { p with regions := if gs = [] then rest else rest ++ [(n.toNat, g, gs)] }
        (s.reply 0 0).poke)

/-- Set a parameter of the dispatcher; none where the value is outside its limits. -/
def Disp.setParam (p : Disp) (sel v : Nat) : Option Disp :=
  match sel with
  | 8 => if v < 100000 then none else some { p with maxSlice := v }
  | 9 => some { p with prepLead := v }
  | 10 => some { p with goLead := v }
  | 11 => some { p with ackWin := v }
  | 12 => if v = 0 ∨ 2 ^ 32 ≤ v then none else some { p with acthr := v }
  | _ => if h : sel < 8 then some { p with horizon := p.horizon.set sel v h } else none

/-- `TIER` (R415) with selectors 0 to 12. -/
def execTier (sel value : Word) (s : State) : Host.Outcome State Fault Refusal :=
  .next (s.served fun s =>
    match s.disp.setParam sel.toNat value.toNat with
    | none => s.reply 1 0
    | some p =>
      let s := s.modDisp fun _ => p
      (((p.queues.map Prod.fst).foldl (fun s n => s.effQueue n) s).reply 0 0).poke)

/-- `TIER` with selector 16 (R314): a migration, on the first die that asks for the leaf, or else the first die of the
context. -/
def execTierMigration (ctx leaf dframe : Word) (dtier : Bool) (s : State) : Host.Outcome State Fault Refusal :=
  .next (s.served fun s =>
    let of := (List.finRange 8).filter fun d => (s.dieAt d).alive && (s.dieAt d).ctx.ctxNo.toNat == ctx.toNat &&
      (s.dieAt d).ctx.leafN != 0
    let asks := of.filter fun d => (s.dieAt d).pageq.any fun x => x.1 == leaf.toNat
    if 2 ^ 16 ≤ ctx.toNat ∨ 2 ^ 32 ≤ leaf.toNat ∨ 2 ^ 32 ≤ dframe.toNat then s.reply 1 0
    else match asks ++ of with
      | [] => s.reply 2 0
      | d :: _ => s.onDie d fun s => s.migrStart leaf.toNat dframe.toNat (b2n dtier) true)

/-- `RECOVER` (R404, R415). -/
def execRecover (q : BitVec 16) (addr : Word) (s : State) : Host.Outcome State Fault Refusal :=
  .next (s.served fun s =>
    let put := fun (v : Nat) => (s.modDisp fun p => { p with recovery := SMap.put 0 p.recovery q.toNat v }).reply 0 0
    if addr = 0 then put 0
    else match s.hostBytes addr.toNat 64 with
      | none => s.reply 4 0
      | some l => put (bytesNat l + 2 ^ 512))

/-! ### `FAULTS`, `RESYNC` (R382, R416) -/

/-- `FAULTS` (R415): posted faults are copied, oldest first, and removed. -/
def execFaults (addr max : Word) (s : State) : Host.Outcome State Fault Refusal :=
  let n := min max.toNat s.disp.faults.length
  match s.hostPut addr.toNat ((s.disp.faults.take n).flatMap fun w => w.flatMap fun x => natBytes x.toNat 8) with
  | none => .next (s.reply 4 0)
  | some s => .next ((s.modDisp fun p => { p with faults := p.faults.drop n }).reply 0 (.ofNat 64 n))

/-- Some 8-byte words. -/
def words8 (l : List Nat) : List Byte := l.flatMap fun x => natBytes x 8

/-- The 128 bytes of a summary that describe a die (R416, log 23). -/
def State.dieSummary (s : State) : List Byte :=
  let e := s.die.err
  let total := fun (m : SMap Nat) => (m.map Prod.snd).sum
  words8 ([s.ctx.ctxNo.toNat + s.ctx.queue.toNat * 2 ^ 16 + b2n s.die.running * 2 ^ 32 + b2n s.die.halting * 2 ^ 33,
    e.freezeCnt.toNat, e.rcFrz.toNat, total e.ce, total e.ue, s.die.ord.free, s.die.ord.late, s.pumpWord] ++
    List.replicate 8 0)

/-- The current die's window-map peers with a STATE. -/
def State.peersIn (s : State) (st : Nat) : Nat :=
  ((List.range 256).filter fun p => (s.peerEntry p).any fun e => wmState e == st).length

/-- Fields of a firmware image (R419). -/
def imageTarget (l : List Byte) : Nat := bytesNat ((l.drop 4).take 4)
def imageSvn (l : List Byte) : Nat := bytesNat ((l.drop 8).take 8)
def imagePayload (l : List Byte) : List Byte := (l.drop 512).take (bytesNat ((l.drop 16).take 8))

/-- The measurement digest of the package (R421): the measurement of an image is the digest of its payload (DEDUCED,
log 6). -/
def State.measurement (s : State) : List Byte :=
  sha384 (Config.romMeasure ++ s.host.images.flatMap fun i => sha384 (imagePayload i))

/-- The 4 KiB of a summary (R416, log 23). -/
def State.summary (s : State) : List Byte :=
  let at_ := fun (d : DieIx) => ({ s with cur := d } : State)
  let dies := List.finRange 8
  let h := s.host
  let tier := fun (t : Nat) => (s.disp.readyQueues.filter fun n => (s.disp.queueAt n).tier == t).length
  let state := fun (k : Nat) => (dies.map fun d => (at_ d).peersIn k).sum
  let brk := dies.foldl (fun m d => m + b2n (s.dieAt d).win.brk * 2 ^ d.val) 0
  let port := fun (p : Port) => p.lock.toNat + b2n p.srclost * 2 ^ 16 + b2n p.gated * 2 ^ 18
  let banks := (dies.map fun d => (s.dieAt d).err.rebuilt).sum +
    (dies.map fun d => ((s.dieAt d).err.lost.filter fun x => x.2).length).sum * 2 ^ 16
  let body :=
    words8 [0x4E595352 + 2 ^ 32, s.gtc, b2n h.ready + h.stage * 2 ^ 8 + h.pkg * 2 ^ 16 + b2n s.fab.unsync * 2 ^ 24,
      s.disp.lostmap.toNat + banks * 2 ^ 8, h.minSvn] ++ s.measurement.take 24 ++
    (dies.flatMap fun d => (at_ d).dieSummary) ++ words8 ((List.range 8).map tier) ++
    words8 ((List.range 4).map state ++ [brk] ++ List.replicate 11 0) ++
    words8 (s.fab.ports.toList.map port) ++ words8 [s.disp.faults.length + s.disp.lost * 2 ^ 32]
  (body ++ List.replicate 4096 0).take 4096

/-- `RESYNC` (R416). -/
def execResync (addr : Word) (s : State) : Host.Outcome State Fault Refusal :=
  match s.hostPut addr.toNat s.summary with
  | none => .next (s.reply 4 0)
  | some s' => .next (s'.reply 0 (.ofNat 64 s.gtc))

/-! ### `RETIRE` (R392, R394, R402) -/

/-- `RETIRE` of a die (R402). -/
def execRetireDie (die : BitVec 3) (s : State) : Host.Outcome State Fault Refusal :=
  .next (s.served fun s =>
    let s := s.modHost fun h => { h with retireMap := h.retireMap ++ [(die.toNat, none)] }
    (s.onDie ⟨die.toNat, die.isLt⟩ State.declareLost).dispatch.reply 0 0)

/-- `RETIRE` of a bank (R392): from the command ring, or when the rebuild before it is over. -/
def execRetireBank (die bay : BitVec 3) (bank : BitVec 7) (s : State) : Host.Outcome State Fault Refusal :=
  let go := fun (s : State) => s.onDie ⟨die.toNat, die.isLt⟩ fun s => s.retireBank bay.toNat bank.toNat
  match s.msg with
  | .none => .next (s.served fun s => (go s).reply 0 0)
  | _ => .next (go s)

/-! ### Power-on and firmware (R417 to R420) -/

/-- A row of an idle image as words of a table: its number, and its words with no halves. -/
def idleRowOf (r : Nat) (ws : List Nat) : Nat × List Nat × List Nat := (r, ws, [])

/-- Words of PREA and REFR on channel `pc` (R223). -/
def preaWord (pc : Nat) : Nat := 5 * 2 ^ 60 + pc * 2 ^ 54
def refrWord (bank : Nat) : Nat := 6 * 2 ^ 60 + bank / 16 * 2 ^ 54 + bank / 4 % 4 * 2 ^ 52 + bank % 4 * 2 ^ 50

/-- The power-on idle image (R289): a PREA on every channel, then a REFR of every bank, over and over. -/
def powerOnIdle : PumpTab :=
  { nrows := 136, looprow := 8, wrap := true, swz := 0
    rows := (List.range 8).map (fun r => idleRowOf r ((List.range 8).map fun k => preaWord (8 * r + k))) ++
      (List.range 128).map fun r => idleRowOf (8 + r) ((List.range 8).map fun k => refrWord (16 * ((8 * r + k) % 64) + (8 * r + k) / 64)) }

/-- The retirement map is applied on a die (R394): retired banks and lost banks. -/
def State.applyMap (s : State) : State :=
  let mine := s.host.retireMap.filter fun x => x.1 == s.cur.val
  mine.foldl (fun s x => match x.2 with
    | some (bay, bank) =>
      let k := 16 * bay + bank / 8
      if SMap.get 0 s.die.err.retired k = 0 then
        s.modErr fun e => { e with retired := SMap.put 0 e.retired k (bank + 1) }
      else if SMap.get 0 s.die.err.retired k = bank + 1 then s
      else s.modErr fun e => { e with lost := SMap.put false e.lost (bankKey bay bank) true, lostBk := true }
    | none => s) s

/-- The dies that the retirement map names are lost from bring-up on (R402). -/
def State.applyLoss (s : State) : State :=
  let gone := (s.host.retireMap.filter fun x => x.2.isNone).map Prod.fst
  (List.finRange 8).foldl (fun s d =>
    if gone.contains d.val then
      (s.modDisp fun p => { p with lostmap := p.lostmap ||| (1#8 <<< d.val) }).onDie d fun s => s.modDie fun y => { y with alive := false }
    else s) s

/-- The granule table's own granules, the granules of lost banks, and the trap vector of a die, whose value is open (DESIGN
CHOICE, log 6). -/
def State.writeTables (s : State) : State :=
  let s := (List.range 8).foldl (fun s k => s.setGran s.cur.val (16376 + k) (6 + 0xFFFF * 2 ^ 16)) s
  let v := Config.freeWord s.free
  ({ s.unmapLost with free := s.free + 1 } : State).modCtx fun c => { c with tvec := .ofNat 64 (v.toNat / 128 * 128) }

/-- Firmware sets the islands of the package (R421). -/
def HostIf.setPoint (h : HostIf) (p : OpPoint) : HostIf := { h with pointDue := Vector.replicate 9 (some p) }

/-- A module feeds a port, or none does (R341, R342). -/
def State.detect (s : State) : State :=
  let ports := (s.fab.ports.toList.zipIdx).map fun x => { x.1 with srclost := !s.fab.laser.getLsbD (x.2 / 8) }
  s.modFab fun f => { f with ports := .ofFn fun i : Fin 16 => ports.getD i.val {} }

/-- An applied image is kept for its target; a larger SVN raises the minimum (R419). -/
def HostIf.apply (h : HostIf) (l : List Byte) : HostIf :=
  { h with images := (h.images.filter fun x => imageTarget x != imageTarget l) ++ [l], minSvn := max h.minSvn (imageSvn l) }

/-- Both signatures of an image verify (R419): ECDSA over P-384 and LMS_SHA256_M32_H15, over bytes 0 to 71. -/
def imageSigned (l : List Byte) : Bool :=
  let m := l.take 72
  ecdsaVerify Config.imageKey m ((l.drop 72).take 96) &&
    lmsVerify 7 15 (bigBytes Config.imageLmsId.toNat 16) (bigBytes Config.imageLmsRoot.toNat 32) m (l.drop (l.length - 2668))

/-- A firmware image is accepted (R419). -/
def HostIf.accepts (h : HostIf) (l : List Byte) : Bool :=
  let n := bytesNat ((l.drop 16).take 8)
  let target := imageTarget l
  bytesNat (l.take 4) == 0x5746524A && decide (1 ≤ target) && decide (target ≤ 3) && l.length == 512 + n + 2668 &&
    ((l.drop 168).take 344).all (· == 0) && imageSigned l && decide (sha384 (imagePayload l) = (l.drop 24).take 48) &&
    decide (h.minSvn ≤ imageSvn l)

/-- What stage `k` of a bring-up does (R417). -/
def State.stage (s : State) (k : Nat) : State :=
  let s := s.modHost fun h => { h with stage := k }
  match k with
  | 1 => s.at (s.now + 200000) 0 .heartbeatPoll
  | 2 => (s.modHost fun h => { h with points := Vector.replicate 9 .lowest }).detect
  | 3 => s.eachDie fun s => s.modPump fun p => { p with idleTab := some powerOnIdle }
  | 4 => (s.eachDie State.applyMap).applyLoss
  | 6 =>
    let s := s.eachDie State.writeTables
    let s := s.eachDie fun s => (List.finRange 8).foldl (fun s b => s.after s.die.err.scrub (.scrubRead b)) s
    (s.modHost fun h => h.setPoint .nominal).setPoints
  | _ => s

/-- The package enters failsafe at a stage that fails (R417, R418, R411). -/
def State.stageFails (s : State) (k : Nat) : State :=
  (s.modHost fun h => { h with stage := k, ready := false, failsafe := true }).msix 3

/-- Stages 5 to 7: the stored images are verified, and every one must be accepted. `fails` is a later stage that fails. -/
def State.bringUpFrom5 (s : State) (fails : Option Nat) : State :=
  if fails = some 5 ∨ !(s.host.images.all s.host.accepts) then s.stageFails 5
  else
    let s := s.stage 5
    if fails = some 6 then s.stageFails 6
    else
      let s := s.stage 6
      if fails = some 7 then s.stageFails 7
      else (s.modHost fun h => { h with stage := 7, ready := true, failsafe := false }).poke

/-- The stages of a bring-up in order; `fails` is the first whose action fails for a reason outside the model. -/
def State.bringUp (s : State) (fails : Option Nat) : State :=
  match fails with
  | some 1 => s.stageFails 1
  | some 2 => (s.stage 1).stageFails 2
  | some 3 => ((s.stage 1).stage 2).stageFails 3
  | some 4 => (((s.stage 1).stage 2).stage 3).stageFails 4
  | f => ((((s.stage 1).stage 2).stage 3).stage 4).bringUpFrom5 f

/-- A bring-up starts again at stage 5 (R418). Where it was stage 6 or 7 that failed, whether it fails again is open: a free
value says so (DESIGN CHOICE, log 6). -/
def State.restartBringUp (s : State) : State :=
  let k := s.host.stage
  if k = 6 ∨ k = 7 then
    let again := (Config.freeWord s.free).getLsbD 0
    ({ s with free := s.free + 1 } : State).bringUpFrom5 (if again then some k else none)
  else s.bringUpFrom5 none

/-- `FWLOAD` (R419, R420): in failsafe it restarts the bring-up (R418). -/
def execFwload (addr len : Word) (s : State) : Host.Outcome State Fault Refusal :=
  match s.hostBytes addr.toNat len.toNat with
  | none => .next (s.reply 4 0)
  | some l =>
    let busy := imageTarget l != 1 && s.disp.launches.any fun x => x.phase != .parked
    if busy then .next (s.reply 2 0)
    else if !s.host.accepts l then .next (s.reply 3 0)
    else
      let s := (s.modHost fun h => h.apply l).reply 0 0
      .next (if s.host.failsafe then s.restartBringUp else s)

/-! ### `ATTEST` (R421) -/

/-- Bytes 0 to 159 of a report. -/
def State.reportBody (s : State) (nonce : List Byte) : List Byte :=
  let map := s.host.retireMap.flatMap fun x => words8 [x.1, match x.2 with
    | some (bay, bank) => 1 + bay * 2 ^ 8 + bank * 2 ^ 16
    | none => 0]
  let parts := (List.finRange 8).flatMap fun d =>
    let e := (s.dieAt d).err
    (e.spare ++ e.lanes).flatMap fun x => words8 [d.val, x.1, x.2]
  nonce ++ s.measurement ++ words8 [s.host.minSvn, s.gtc, (Config.serial 0).toNat, (Config.serial 1).toNat] ++
    sha384 (map ++ parts)

/-- `ATTEST` (R421): the leaf counter advances before the report is signed. -/
def execAttest (n0 n1 n2 n3 addr : Word) (s : State) : Host.Outcome State Fault Refusal :=
  .next (s.served fun s =>
    let leaf := s.host.lmsLeaf
    if 2 ^ 20 ≤ leaf then s.reply 2 0
    else
      let body := s.reportBody (words8 [n0.toNat, n1.toNat, n2.toNat, n3.toNat])
      let sig := ecdsaSign Config.attestKey (Config.attestNonce leaf) body
      let part := fun (x : BitVec 256) => bigBytes x.toNat 32
      let lms := lmsSign 8 20 leaf (bigBytes Config.attestLmsId.toNat 16) (part (Config.attestRandom leaf))
        (fun i => part (Config.attestChain leaf i)) (fun i => part (Config.attestPath leaf i)) body
      match s.hostPut addr.toNat (body ++ sig ++ List.replicate 256 0 ++ lms) with
      | none => s.reply 4 0
      | some s => (s.modHost fun h => { h with lmsLeaf := leaf + 1 }).reply 0 0)

/-! ### `DOMAIN`, `PCAP` (R415, R323, R342) -/

/-- A launch runs on the package. -/
def State.anyLaunch (s : State) : Bool := s.disp.launches.any fun l => l.phase != .parked

/-- The delays that firmware sets when a domain is formed or left (R323): DFLIGHT is the flight time measured, SLACK is
open, and RFDLY, their sum, is at most 1,024 (log 24). -/
def State.setDelays (s : State) (flight : Nat) : State :=
  let slack := (Config.freeWord s.free).toNat % (1025 - flight)
  let s := s.eachDie fun s => s.modOrd fun o => { o with rfdly := flight + slack }
  { s with free := s.free + 1, fab := { s.fab with dflight := flight, slack := slack } }

/-- GATE of some ports is written. -/
def State.gateAll (s : State) (p : Nat → Bool) (g : Bool) : State :=
  s.push (((List.range 16).filter p).map fun k => .instr (.portGateWrite k g) .none)

/-- `DOMAIN` with join (R415): refused where RFDLY would exceed 1,024 ticks (R323). -/
def execDomainJoin (pkg : BitVec 5) (s : State) : Host.Outcome State Fault Refusal :=
  .next (s.served fun s =>
    if s.anyLaunch then s.reply 2 0
    else
      let (w, s) := s.takeWait
      if 1024 < w then s.reply 2 0
      else
        let s := (s.modHost fun h => { h with pkg := pkg.toNat, domain := true, npkg := 32 }).setDelays w
        (s.gateAll (fun k => !(s.fab.port k).srclost) false).reply 0 0)

/-- `DOMAIN` with leave (R415, R342). -/
def execDomainLeave (pkg : BitVec 5) (s : State) : Host.Outcome State Fault Refusal :=
  .next (s.served fun s =>
    if s.anyLaunch then s.reply 2 0
    else
      let (w, s) := s.takeWait
      let s := (s.modHost fun h => { h with pkg := pkg.toNat, domain := false, npkg := 1 }).setDelays (min w 1024)
      (s.gateAll (fun _ => true) true).reply 0 0)

/-- Frequency of an island in hertz at an operating point (R417, R415, log 21). -/
def OpPoint.freq (p : OpPoint) (island : Nat) : Nat :=
  match p with
  | .lowest => Config.lowestFreq island
  | .nominal => 2000000000
  | .capped w => Config.cappedFreq w island

/-- `PCAP` (R415): LIMIT and the islands of the package; those of a die that runs wait until it is halted (R421). -/
def execPcap (watts : Word) (s : State) : Host.Outcome State Fault Refusal :=
  .next (s.served fun s =>
    if watts.toNat < 1000 ∨ 5600 < watts.toNat then s.reply 1 0
    else
      let s := s.modHost fun h => { h with watts := watts.toNat }.setPoint (.capped watts.toNat)
      (s.eachDie fun s => s.modErr fun e => { e with limit := (Config.capLimit watts.toNat).toNat }).reply 0 0)

end Sys2Proof.Machine
end

