-- ==== Sys2Proof/Machine/Gang.lean ====
section
/-!
DEFINITION. Gang launches (R358 to R360) at one package of the gang. What the package sends to others is not part of its
state; what others send to it comes in as steps.
-/

namespace Sys2Proof.Machine

/-- `GANG_PREPARE` (R358): the package places and checks the launch as the coordinator asks, at the place that it has chosen
where the image leaves it to the dispatcher; one that it cannot place or that fails a check brings no READY. -/
def execGangPrepare (s : State) : Host.Outcome State Fault Refusal :=
  match s.msg with
  | .gang id n t0 row col =>
    let q := s.disp.queueAt n
    match s.headOf n q with
    | (s, .error _) => .next s
    | (s, .ok (va, d, i)) =>
      let r : Rect := if i.free then ⟨row, col, i.nr, i.nc⟩ else ⟨i.row, i.col, i.nr, i.nc⟩
      if i.bad || (s.launch id).isSome || !s.rectOk q r || !s.diesOpen n [] r then .next s
      else match s.launchLoads q va d i r with
        | (s, .error _) => .next s
        | (s, .ok _) => .next (s.grant n r va i id t0 false).startReady
  | _ => .next s

/-- `GANG_READY` (R358): a package of the gang is ready. -/
def execGangReady (s : State) : Host.Outcome State Fault Refusal :=
  match s.msg with
  | .package p id => .next (s.modLaunch id fun l => if l.coord then { l with ready := (p :: l.ready).dedup } else l)
  | _ => .next s

/-- `GANG_READY_DEADLINE` (R358, R360): the go token, or CANCEL when a READY is missing. -/
def execGangReadyDeadline (s : State) : Host.Outcome State Fault Refusal :=
  match s.msg with
  | .launch id =>
    match s.launch id with
    | some l =>
      let all := l.rect.pkgs.all fun p => l.ready.contains p
      .next (s.push [.instr (if all then .goToken else .gangCancel) (.launch id)])
    | none => .next s
  | _ => .next s

/-- `GO_TOKEN` (R358): the package passes the token to its dies, which start at T0; a token that comes later starts
nothing. -/
def execGoToken (s : State) : Host.Outcome State Fault Refusal :=
  match s.msg with
  | .launch id =>
    match s.launch id with
    | some l =>
      if l.phase != .prepared || decide (l.t0 ≤ s.gtc) then .next s
      else
        let s := (s.modLaunch id fun l => { l with token := true }).onDies l fun s =>
          s.modCtx fun c => { c with token := true }
        .next (s.at (s.now + s.cyclesTo l.t0) 0 .gangStart (.launch id))
    | none => .next s
  | _ => .next s

/-- A gang launch that has not started leaves its dies. -/
def State.cancelGang (s : State) (l : Launch) : State :=
  (s.onDies l fun s => s.modCtx fun c => { c with token := false }).dropLaunch l.id

/-- `GANG_CANCEL` (R360): no die starts, and the queue stays ready with its ENQ; the third time the record completes. -/
def execGangCancel (s : State) : Host.Outcome State Fault Refusal :=
  match s.msg with
  | .launch id =>
    match s.launch id with
    | some l =>
      if l.phase != .prepared && l.phase != .waiting then .next s
      else
        let s := s.cancelGang l
        if !l.coord then .next s.dispatch
        else
          let n := (s.disp.queueAt l.queue).cancels + 1
          let s := s.modQueue l.queue fun q => { q with cancels := n }
          .next (if n < 3 then s else s.completeRecord l.queue 5 0 0).dispatch
    | none => .next s
  | _ => .next s

/-- `GANG_START` (R358): at T0 the dies that hold the token start. -/
def execGangStart (s : State) : Host.Outcome State Fault Refusal :=
  match s.msg with
  | .launch id =>
    match s.launch id with
    | some l =>
      if l.phase != .prepared || !l.token then .next s
      else match s.headAt l.ctx l.image (List.finRange 8) with
        | (s, none) => .next s
        | (s, some (_, i)) =>
          let s := (s.goDies l i).push [.instr .gangStarted (.package s.host.pkg id)]
          .next (if l.coord then s.at (s.now + 2 * s.disp.ackWin) 0 .gangAckDeadline (.launch id) else s)
    | none => .next s
  | _ => .next s

/-- Every package of the gang has started. -/
def Launch.allStarted (l : Launch) : Bool := l.rect.pkgs.all fun p => l.started.contains p

/-- `GANG_STARTED` (R358): the dies of a package have started; with the last one the gang is confirmed. -/
def execGangStarted (s : State) : Host.Outcome State Fault Refusal :=
  match s.msg with
  | .package p id =>
    let s := s.modLaunch id fun l => if l.coord then { l with started := (p :: l.started).dedup } else l
    .next (if (s.launch id).any fun l => l.coord && !l.confirmed && l.allStarted then s.push [.instr .gangConfirm (.launch id)]
      else s)
  | _ => .next s

/-- `GANG_ACK_DEADLINE` (R358, R360): gang abort when a STARTED is missing. -/
def execGangAckDeadline (s : State) : Host.Outcome State Fault Refusal :=
  match s.msg with
  | .launch id =>
    .next (if (s.launch id).any fun l => !l.confirmed && !l.allStarted then s.push [.instr .gangAbort (.launch id)] else s)
  | _ => .next s

/-- An access that a launch holds back and that has reached its target is late when it is released (R271, R359). -/
def State.releaseLate (s : State) (id : Nat) : State :=
  s.eachDie fun s =>
    let issuer := fun (x : Arrived) => (s.dieAt ⟨x.issuer % 8, Nat.mod_lt _ (by decide)⟩).ord
    let mine := fun (x : Arrived) => x.issuer / 8 == s.host.pkg && (issuer x).cb.any fun e => e.id == x.seq && e.hold == some id
    let n := (s.die.ord.arrived.filter fun x => mine x && decide (x.phys ≤ x.a) && decide (x.a < s.gtc)).length
    s.modOrd fun o => { o with late := min (o.late + n) (2 ^ 32 - 1) }

/-- What a launch holds back in the commit buffers of the package's dies is released. -/
def State.release (s : State) (id : Nat) : State :=
  s.eachDie fun s => s.modOrd fun o => { o with
    cb := o.cb.map fun e => if e.hold = some id then { e with hold := none } else e }

/-- `GANG_CONFIRM` (R359): the buffered writes and exchanges that the dies held back are released; a launch whose dies have
all ended completes. -/
def execGangConfirm (s : State) : Host.Outcome State Fault Refusal :=
  match s.msg with
  | .launch id =>
    match s.launch id with
    | some l =>
      let s := (s.releaseLate id).release id
      -- a launch halted in the meantime finds CONFIRM in what is saved of it
      let keep := fun (x : Saved) => { x with ctx := { x.ctx with confirmed := true } }
      let s := s.onDies l fun s => if s.ctx.launchId = .ofNat 64 id then s.modCtx fun c => { c with confirmed := true } else s
      .next ((s.modLaunch id fun l => { l with saved := l.saved.map keep, confirmed := true }).endCheck id)
    | none => .next s
  | _ => .next s

/-- The buffered writes of a launch that the die holds are discarded, also where they have arrived (R360). -/
def State.dropHeld (s : State) (id : Nat) : State :=
  let g := s.gdie s.cur
  let gone := (s.die.ord.cb.filter fun e => e.hold == some id).map (·.id)
  let keep := fun (x : Arrived) => x.issuer != g || !gone.contains x.seq
  let s := s.eachDie fun s => s.modOrd fun o => { o with arrived := o.arrived.filter keep }
  let mine := s.held && s.ctx.launchId == .ofNat 64 id
  s.modOrd fun o => { o with
    combine := if mine then [] else o.combine, cb := o.cb.filter fun e => e.hold != some id }

/-- What an abort takes from a started die whose kernel runs, has ended or is halted (R360): the buffered writes that it
holds, and its shadow sets. -/
def State.abortEffects (s : State) (id : Nat) : State :=
  let s := s.dropHeld id
  if s.ctx.launchId = .ofNat 64 id then s.freeSets else s

/-- A started die of an aborted gang (R360): the trap with cause 0x13 goes to the dispatcher. -/
def State.abortDie (s : State) (id : Nat) : State :=
  if s.die.running then s.raise (s.ctx.recOf ⟨0x13, id, 0⟩ 0)
  else (s.modDie fun d => { d with halting := true }).after 256 .preemptionHalt (.status 0x113)

/-- `GANG_ABORT` (R360). -/
def execGangAbort (s : State) : Host.Outcome State Fault Refusal :=
  match s.msg with
  | .launch id =>
    match s.launch id with
    | some l =>
      let s := if l.begun then s.onDies l fun s => s.abortEffects id else s
      if l.phase = .running ∨ l.phase = .halting then
        let run := l.dieIxs.filter fun d => l.runs.contains d.val && !l.halted.contains d.val && !(s.dieAt d).halting
        if run = [] then
          .next ((s.modLaunch id fun l => { l with fault := some (6, 0x13), phase := .ending }).haltCheck id).dispatch
        else .next (run.foldl (fun s d => s.onDie d fun s => s.abortDie id) s)
      else if l.begun then
        let l := { l with fault := some (6, 0x13) }
        .next (s.endLaunch l).dispatch
      else
        let s := s.cancelGang l
        .next (if l.coord then s.completeRecord l.queue 6 0 0 else s).dispatch
    | none => .next s
  | _ => .next s

end Sys2Proof.Machine
end

