-- ==== Sys2Proof/Machine/Host.lean ====
section
/-!
DEFINITION. Power-on (R417), the host's registers, doorbells and reservoir window (R410, R412, R413), and writes of a
debugger (R138, R144, R148).
-/

namespace Sys2Proof.Machine

/-! ### Power-on (R5, R12, R417) -/

/-- What a die keeps over a power-on: fields with persistent lifetime, and the assignments of the retirement map. -/
def Die.powered (d : Die) : Die :=
  { ord := { mldly := d.ord.mldly },
    err := { rebuilt := d.err.rebuilt, lostBk := d.err.lostBk, spare := d.err.spare, lanes := d.err.lanes } }

/-- What firmware keeps. -/
def HostIf.powered (h : HostIf) : HostIf :=
  { images := h.images, minSvn := h.minSvn, lmsLeaf := h.lmsLeaf, retireMap := h.retireMap, unreadable := h.unreadable }

/-- The package right after power has come: what is persistent or lies outside the package stays. -/
def State.powered (s : State) : State :=
  { State.reset with
    now := s.now, inputs := s.inputs, waits := s.waits, free := s.free, dies := s.dies.map Die.powered, host := s.host.powered
    mem := { host := s.mem.host }, fab := { laser := s.fab.laser, dflight := s.fab.dflight, slack := s.fab.slack } }

/-- `POWER_ON` (R417): the stages run in order; one that fails leads to failsafe (R418). -/
def execPowerOn (fails : Option Nat) (s : State) : Host.Outcome State Fault Refusal := .next (s.powered.bringUp fails)

/-! ### Host registers (R412, R413) -/

/-- A write of a register of BAR0; other offsets ignore writes. -/
def HostIf.write (h : HostIf) (off : Nat) (v : Word) : HostIf :=
  match off with
  | 0x010 => if h.cren then h else { h with crbase := v.toNat / 4096 * 4096 }
  | 0x018 => { h with crlog := if h.cren then h.crlog else min (bitsAt v.toNat 0 4) 8, cren := v.getLsbD 8 }
  | 0x020 => { h with crtail := bitsAt v.toNat 0 16 }
  | _ => h

/-- TAIL is written to the doorbell of a queue (R412, R413); the dispatcher reads it within 4,000 cycles. -/
def State.ring (s : State) (q tail : Nat) : State :=
  let (w, s) := (s.modQueue q fun x => { x with bell := tail }).takeWait
  s.at (s.now + min w 4000) 0 .doorbellPoll

/-- `HOST_REGISTER_WRITE` (R412): a register of BAR0, or a doorbell from 0x0010_0000 on. -/
def execHostRegisterWrite (s : State) : Host.Outcome State Fault Refusal :=
  match s.msg with
  | .hostReg off v =>
    if 0x100000 ≤ off ∧ off < 0x100000 + 8 * 65536 ∧ off % 8 = 0 then
      .next (s.ring ((off - 0x100000) / 8) (bitsAt v.toNat 0 16))
    else .next (s.modHost fun h => h.write off v)
  | _ => .next s

/-- The value of a host register (R412). -/
def State.hostRead (s : State) (off : Nat) : Word :=
  let h := s.host
  match off with
  | 0x000 => .ofNat 64 (8 + Config.siliconRev.toNat * 2 ^ 16)
  | 0x008 => .ofNat 64 (b2n h.ready + b2n h.failsafe * 2 + b2n (s.disp.faults != []) * 4 + h.stage % 16 * 2 ^ 4)
  | 0x010 => .ofNat 64 h.crbase
  | 0x018 => .ofNat 64 (h.crlog + b2n h.cren * 2 ^ 8)
  | 0x020 => .ofNat 64 h.crtail
  | 0x028 => .ofNat 64 h.crhead
  | 0x030 => .ofNat 64 s.disp.lost
  | _ => 0

/-- `HOST_DOORBELL_WRITE` (R412, R413). -/
def execHostDoorbellWrite (q tail : BitVec 16) (s : State) : Host.Outcome State Fault Refusal :=
  .next (s.ring q.toNat tail.toNat)

/-! ### The reservoir window (R410) -/

/-- `HOST_RESERVOIR_READ` (R410): bytes, and the link's poison indication. In failsafe the window is not served (R418): no
byte is answered. -/
def execHostReservoirRead (s : State) : Host.Outcome State Fault Refusal :=
  match s.msg with
  | .hostRead a n =>
    if 2 ^ 40 < a + n then .fault (.noReservoirByte a)
    else if s.host.failsafe then .next (s.modHost fun h => { h with answer := ([], false) })
    else
      let pz := (List.range (n / 16 + 2)).any fun k =>
        decide (16 * (a / 16 + k) < a + n) && SMap.get false s.mem.resPz (a / 16 + k)
      .next (s.modHost fun h => { h with answer := (rdBytes s.mem.res a n, pz) })
  | _ => .next s

/-- `HOST_RESERVOIR_WRITE` (R410); in failsafe it has no effect (R418). -/
def execHostReservoirWrite (s : State) : Host.Outcome State Fault Refusal :=
  match s.msg with
  | .hostWrite a l =>
    if 2 ^ 40 < a + l.length then .fault (.noReservoirByte a)
    else .next (if s.host.failsafe then s else s.resPut a l)
  | _ => .next s

/-! ### The debugger -/

/-- A register that a debugger writes: its kind (s, h, p, v, o, k, m, and the accumulators A and B), bay, lane and index. -/
def State.debugWrite (s : State) (kind bay lane ix : Nat) (v : BitVec 256) : State :=
  let b : BayIx := ⟨bay % 8, Nat.mod_lt _ (by decide)⟩
  let lanes := fun (n : Nat) => 128 * (ix % n) + lane % 128
  let unmark := fun (c : Ctx) (isH : Bool) => { c with failed := c.failed.filter fun f => !(f.isH == isH && f.reg == ix) }
  match kind with
  | 0 => s.modCtx fun c => (unmark (c.unhoist (.ofNat 6 ix)) false).ws (.ofNat 6 ix) (v.setWidth 64)
  | 1 => s.modCtx fun c => (unmark c true).wh (.ofNat 4 ix) v
  | 2 => s.modCtx fun c => c.wp (.ofNat 4 ix) (v.getLsbD 0)
  | 3 => s.modBay b fun x => { x with v := SMap.put 0 x.v (lanes 64) (v.setWidth 32) }
  | 4 => s.modBay b fun x => { x with o := SMap.put 0 x.o (lanes 8) (v.setWidth 32) }
  | 5 => s.modBay b fun x => { x with k := SMap.put 0 x.k (lanes 4) (v.setWidth 32) }
  | 6 => s.modBay b fun x => x.setMask (.ofNat 3 ix) (v.setWidth 128)
  | 7 => s.modMxu b fun m => { m with acca := SMap.put 0 m.acca (ix % 2 ^ 16) (v.setWidth 32) }
  | 8 => s.modMxu b fun m => { m with accb := SMap.put 0 m.accb (ix % 2 ^ 16) (v.setWidth 32) }
  | _ => s

/-- `DEBUGGER_WRITE` (R138, R144, R148, R19): only the storage that it names changes, with its mark and hoist entries. -/
def execDebuggerWrite (s : State) : Host.Outcome State Fault Refusal :=
  match s.msg with
  | .debug kind bay lane ix v => .next (s.debugWrite kind bay lane ix v)
  | _ => .next s

end Sys2Proof.Machine
end

