-- ==== Sys2Proof/Machine/Trans.lean ====
section
/-!
DEFINITION. The transcendental port (R159): each function's exact value, given to 320 or more fractional bits with a
sticky bit and rounded once. Exactly representable results are found first. DEDUCED (log 10): beyond those, no value of
these functions lies within 2^-300 of a rounding boundary of FP32, BF16 or FP16.
-/

namespace Sys2Proof.Machine

/-- Fractional bits of the fixed-point evaluation. -/
def tK : Nat := 400

/-- Integer square root, bit by bit from bit `k`. -/
def isqrtFrom (n : Nat) : Nat → Nat → Nat
  | 0, r => r
  | k + 1, r =>
    let r' := r + 2 ^ k
    isqrtFrom n k (if r' * r' ≤ n then r' else r)

/-- The integer square root. -/
def isqrt (n : Nat) : Nat := isqrtFrom n (Nat.log2 n / 2 + 1) 0

/-- Terms `z^(2i+1) / (2i+1)` of the inverse hyperbolic tangent in fixed point. -/
def atanhSum (z2 : Nat) : Nat → Nat → Nat → Nat
  | 0, _, _ => 0
  | n + 1, pw, k => pw / k + atanhSum z2 n (pw * z2 / 2 ^ tK) (k + 2)

/-- ln 2 in fixed point: 2 atanh(1/3). -/
def ln2Fix : Nat := 2 * atanhSum (2 ^ tK / 9) 130 (2 ^ tK / 3) 1

/-- Terms `x^i / i!` of the exponential in fixed point. -/
def expSum (x : Nat) : Nat → Nat → Nat → Nat
  | 0, _, _ => 0
  | n + 1, t, i => t + expSum x n (t * x / 2 ^ tK / i) (i + 1)

/-- `2 ^ t` for `0 ≤ t < 1` in fixed point. -/
def exp2Fix (t : Nat) : Nat := expSum (t * ln2Fix / 2 ^ tK) 90 (2 ^ tK) 1

/-- A finite value in fixed point, rounded down. -/
def toFix (s : Bool) (m : Nat) (e : Int) : Int :=
  let sh : Int := e + tK
  let n : Int := if 0 ≤ sh then m * 2 ^ sh.toNat else (m / 2 ^ (-sh).toNat : Nat)
  if s then -n else n

/-- `2 ^ t` for a fixed-point `t`, as a mantissa with `tK` fractional bits and a power of 2. -/
def exp2Of (t : Int) : Nat × Int :=
  let n := t / (2 ^ tK : Int)
  let fr := (t % (2 ^ tK : Int)).toNat
  (exp2Fix fr, n)

/-- The magnitude of a finite value is at least `2 ^ k`. -/
def magGe (m : Nat) (e : Int) (k : Int) : Bool := m != 0 && decide (k ≤ e + Nat.log2 m)

/-- Functions of the transcendental port (R159). -/
inductive TFun where
  | exp2 | log2 | rcp | rsqrt | sqrt | tanh | sigm
  deriving DecidableEq, Repr

/-- The exponent of the lowest one bit and the odd part of `m`. -/
def oddPart : Nat → Nat → Nat × Nat
  | 0, m => (0, m)
  | k + 1, m => if m % 2 = 0 then let (j, o) := oddPart k (m / 2); (j + 1, o) else (0, m)

/-- `2 ^ a` of a finite `a` (R159). -/
def exp2FV (s : Bool) (m : Nat) (e : Int) : FV :=
  if m = 0 then .fin false 1 0
  else if magGe m e 14 then
    (if s then .fin false 1 (-20000) else .fin false 1 20000)
  else
    let t := toFix s m e
    let (x, n) := exp2Of t
    if t % (2 ^ tK : Int) = 0 then .fin false 1 n
    else let (a, b) := sticky x (n - tK); .fin false a b

/-- log2 of a positive finite value (R159). -/
def log2FV (m : Nat) (e : Int) : FV :=
  let k := Nat.log2 m
  if m = 2 ^ k then
    let n : Int := e + k
    .fin (decide (n < 0)) n.natAbs 0
  else
    -- y = m / 2^k in (1, 2); log2 y = 2 atanh((y-1)/(y+1)) / ln 2
    let z := (m - 2 ^ k) * 2 ^ tK / (m + 2 ^ k)
    let ln := 2 * atanhSum (z * z / 2 ^ tK) 130 z 1
    let t : Int := (e + k) * 2 ^ tK + (ln * 2 ^ tK / ln2Fix : Nat)
    if 0 ≤ t then let (a, b) := sticky t.toNat (-(tK : Int)); .fin false a b
    else let (a, b) := sticky (t.natAbs - 1) (-(tK : Int)); .fin true a b

/-- 1 / a of a finite non-zero value. -/
def rcpFV (s : Bool) (m : Nat) (e : Int) : FV :=
  let q := 2 ^ tK / m
  if 2 ^ tK % m = 0 then .fin s q (-e - tK)
  else let (a, b) := sticky q (-e - tK); .fin s a b

/-- √a of a positive finite value. -/
def sqrtFV (m : Nat) (e : Int) : FV :=
  let odd := e % 2 = 1
  let m' := (if odd then 2 * m else m) * 2 ^ (2 * tK)
  let e' : Int := ((if odd then e - 1 else e) - 2 * tK) / 2
  let r := isqrt m'
  if r * r = m' then .fin false r e' else let (a, b) := sticky r e'; .fin false a b

/-- 1 / √a of a positive finite value. -/
def rsqrtFV (m : Nat) (e : Int) : FV :=
  let (j, o) := oddPart 200 m
  let e0 : Int := e + j
  if o = 1 ∧ e0 % 2 = 0 then .fin false 1 (-(e0 / 2))
  else
    -- a = o * 2^e0; 1/√a = √(2^(2K) / o') * 2^(-(e')/2 - K), with e' even
    let odd := e0 % 2 = 1
    let o' := if odd then 2 * o else o
    let e' := if odd then e0 - 1 else e0
    let r := isqrt (2 ^ (2 * tK) / o')
    let (a, b) := sticky r (-(e' / 2) - tK)
    .fin false a b

/-- e ^ y for a finite `y` below 2^12 in magnitude, in fixed point with a power of 2. -/
def expOf (s : Bool) (m : Nat) (e : Int) : Nat × Int :=
  let y := toFix s m e
  exp2Of (y * (2 ^ tK : Int) / (ln2Fix : Int))

/-- tanh of a finite non-zero value. -/
def tanhFV (s : Bool) (m : Nat) (e : Int) : FV :=
  if !magGe m e (-60) then
    -- between a (1 - a^2 / 2) and a
    let (a, b) := sticky (m * 2 ^ 100 - 1) (e - 100); .fin s a b
  else if magGe m e 9 then let (a, b) := sticky (2 ^ 200 - 1) (-200); .fin s a b
  else
    -- 1 - 2 / (E + 1), with E = e^(2|a|) = x * 2^(n - K)
    let (x, n) := expOf false m (e + 1)
    let num := x * 2 ^ n.toNat
    let den := num + 2 ^ tK
    let (a, b) := sticky ((num - 2 ^ tK) * 2 ^ tK / den) (-(tK : Int))
    .fin s a b

/-- 1 / (1 + e^-a) of a finite value. -/
def sigmFV (s : Bool) (m : Nat) (e : Int) : FV :=
  if m = 0 then .fin false 1 (-1)
  else if !magGe m e (-100) then
    (if s then let (a, b) := sticky (2 ^ 201 - 1) (-202); .fin false a b
     else let (a, b) := sticky (2 ^ 201) (-202); .fin false a b)
  else if magGe m e 11 then
    (if s then let (a, b) := sticky 1 (-20000); .fin false a b
     else let (a, b) := sticky (2 ^ 200 - 1) (-200); .fin false a b)
  else
    -- E = e^|a|: E / (E + 1) for a positive a, 1 / (E + 1) for a negative one
    let (x, n) := expOf false m e
    let num := x * 2 ^ n.toNat
    let den := num + 2 ^ tK
    let big := 2 ^ (tK + 3000)
    if s then let (a, b) := sticky (2 ^ tK * big / den) (-((tK + 3000 : Nat) : Int)); .fin false a b
    else let (a, b) := sticky (num * big / den) (-((tK + 3000 : Nat) : Int)); .fin false a b

/-- The exact value of a function at a value without NaN; none where R159 gives NaN and IV. -/
def transFV (t : TFun) (a : FV) : Option FV :=
  match t, a with
  | _, .nan _ _ => none
  | .exp2, .inf s => some (if s then .fin false 0 0 else .inf false)
  | .exp2, .fin s m e => some (exp2FV s m e)
  | .log2, .inf s => if s then none else some (.inf false)
  | .log2, .fin s m e => if m = 0 then some (.inf true) else if s then none else some (log2FV m e)
  | .rcp, .inf s => some (.fin s 0 0)
  | .rcp, .fin s m e => if m = 0 then some (.inf s) else some (rcpFV s m e)
  | .rsqrt, .inf s => if s then none else some (.fin false 0 0)
  | .rsqrt, .fin s m e => if m = 0 then some (.inf s) else if s then none else some (rsqrtFV m e)
  | .sqrt, .inf s => if s then none else some (.inf false)
  | .sqrt, .fin s m e => if m = 0 then some (.fin s 0 0) else if s then none else some (sqrtFV m e)
  | .tanh, .inf s => some (.fin s 1 0)
  | .tanh, .fin s m e => if m = 0 then some (.fin s 0 0) else some (tanhFV s m e)
  | .sigm, .inf s => some (if s then .fin false 0 0 else .fin false 1 0)
  | .sigm, .fin s m e => some (sigmFV s m e)

/-- One element through the transcendental port (R159). -/
def fpTrans (f : FFmt) (md : RMode) (t : TFun) (x : Nat) : Nat × Flags :=
  match firstNan f [x] with
  | some r => r
  | none => finish f md (transFV t (unpack f x))

end Sys2Proof.Machine
end

