-- ==== Sys2Proof/Machine/Vector.lean ====
section
/-!
DEFINITION. Vector slots (R149 to R162): ALU, compares, mask operations, FMA, transcendental and convert ports.
-/

namespace Sys2Proof.Machine

/-! ### Shared operations -/

/-- Flags of some lanes, those of disabled lanes left out (R151). -/
def laneFlags (en : BitVec 128) (l : List (Word32 × Flags)) : Flags :=
  (l.zipIdx.filter fun x => en.getLsbD x.2).foldl (fun f x => orFlags f x.1.2) noFlags

/-- The operand-file entries that source fields with the last-read mark name (R60). -/
def lastReads (src : List (BitVec 8)) : BitVec 8 :=
  src.foldl (fun m x =>
    if bitsAt x.toNat 6 2 = 1 ∧ bitAt x.toNat 5 then m ||| (1#8 <<< bitsAt x.toNat 0 3) else m) 0

/-- The register of a vector destination field (R59). -/
def vecDst (d : BitVec 8) : VDst :=
  match bitsAt d.toNat 6 2 with
  | 0 => .v (bitsAt d.toNat 0 6)
  | 1 => .o (bitsAt d.toNat 0 3)
  | _ => .none

/-- A lane's enable as the valid bits of the two sluice lanes of its word (R151, R100). -/
def pairValid (en : BitVec 128) : List Bool := (List.range 256).map fun l => en.getLsbD (l / 2)

/-- Have a vector result land in one bay: registers, latch and flags with the unit's latency (R152, R51). A stream
destination is presented in the cycle after (R150), and its flags are set with it. -/
def State.vecLand (s : State) (b : BayIx) (u : VUnit) (lat : Nat) (d : BitVec 8) (en : BitVec 128)
    (l : List (Word32 × Flags)) : State :=
  let vs := l.map (·.1)
  let f := laneFlags en l
  match fieldStream d with
  | none => s.later lat (.vec b u (vecDst d) vs en f)
  | some q =>
    let (s, r) := (s.later lat (.vec b u (vecDst d) vs en noFlags)).reserve b q
    s.later (lat + 1) (.present b 0 (lanes32 vs) (pairValid en) (some r) f)

/-- A vector slot: in each bay its sources are read, consumed and freed, and its result is on its way. -/
def vecSlot (i : Instr) (bays : Bays) (d : BitVec 8) (msel : BitVec 3) (u : VUnit) (lat : Nat) (src : List (BitVec 8))
    (f : State → BayIx → List (List Word32) → List (Word32 × Flags)) (s : State) : Host.Outcome State Fault Refusal :=
  slotRun i s fun s0 =>
    let s := (baysOf bays).foldl (fun s b =>
      let s := s.vecLand b u lat d (s0.enabled b msel) (f s0 b (src.map (s0.vField b)))
      if lastReads src = 0 then s else s.later 1 (.freeO b (lastReads src)) prioFree) s0
    s.eatAll (slotNames i)

/-- One operand of each lane. -/
def over1 (g : Word32 → Word32 × Flags) : List (List Word32) → List (Word32 × Flags)
  | [a] => a.map g
  | _ => []

/-- Two operands of each lane. -/
def over2 (g : Word32 → Word32 → Word32 × Flags) : List (List Word32) → List (Word32 × Flags)
  | [a, b] => List.zipWith g a b
  | _ => []

/-- Three operands of each lane. -/
def over3 (g : Word32 → Word32 → Word32 → Word32 × Flags) : List (List Word32) → List (Word32 × Flags)
  | [a, b, c] => List.zipWith (fun x y => g x.1 x.2 y) (a.zip b) c
  | _ => []

/-- An operation on the elements of a lane (R153): the whole word for FP32, its halves for the packed types. -/
def elems (vt : BitVec 2) (g : FFmt → Nat → Nat → Nat → Nat × Flags) (a b c : Word32) : Word32 × Flags :=
  if vt = 0 then
    let (x, f) := g fp32 a.toNat b.toNat c.toNat
    (.ofNat 32 x, f)
  else
    let m := vtFmt vt.toNat
    let (x, f) := g m (bitsAt a.toNat 0 16) (bitsAt b.toNat 0 16) (bitsAt c.toNat 0 16)
    let (y, h) := g m (bitsAt a.toNat 16 16) (bitsAt b.toNat 16 16) (bitsAt c.toNat 16 16)
    (.ofNat 32 (x + y * 2 ^ 16), orFlags f h)

/-- SAT of an INT32 slot (R153). -/
def satOf (o : VOp) : Bool := o.rnd.getLsbD 2

/-- An arithmetic slot on one, two or three operands: floating types per element, INT32 from its exact result. -/
def arith (o : VOp) (g : RMode → FFmt → Nat → Nat → Nat → Nat × Flags) (n : Int → Int → Int → Int) (s : State)
    (a b c : Word32) : Word32 × Flags :=
  if o.vt = 3 then int32Of (o.rnd.getLsbD 2) (n a.toInt b.toInt c.toInt)
  else elems o.vt (g (s.rmode o.rnd.toNat)) a b c

/-- A compare slot writes a mask of each bay; disabled lanes get 0 (R156). -/
def vcmpSlot (i : Instr) (bays : Bays) (o : VOp) (c : FCond) (n : Int → Int → Bool) (s : State) :
    Host.Outcome State Fault Refusal :=
  slotRun i s fun s0 =>
    let s := (baysOf bays).foldl (fun s b =>
      let en := s0.enabled b o.msel
      let l := List.zipWith (fun (x y : Word32) =>
        if o.vt = 3 then (n x.toInt y.toInt, false) else fpCmp fp32 c x.toNat y.toNat) (s0.vField b o.a) (s0.vField b o.b)
      let v := l.zipIdx.foldl (fun m x => if x.1.1 && en.getLsbD x.2 then m ||| (1#128 <<< x.2) else m) 0
      let iv := l.zipIdx.any fun x => x.1.2 && en.getLsbD x.2
      let s := s.later 2 (.mask b (bitsAt o.d.toNat 0 3) v { iv := iv })
      if lastReads [o.a, o.b] = 0 then s else s.later 1 (.freeO b (lastReads [o.a, o.b])) prioFree) s0
    s.eatAll (slotNames i)

/-- A mask operation writes all bits of a mask of each bay (R157). -/
def maskSlot (i : Instr) (bays : Bays) (d : BitVec 3) (f : Bay → BitVec 128) (s : State) :
    Host.Outcome State Fault Refusal :=
  slotRun i s fun s0 => (baysOf bays).foldl (fun s b => s.later 2 (.mask b d.toNat (f (s0.bayAt b)) noFlags)) s0

/-- Sign bits of the elements of a lane. -/
def signBits (vt : BitVec 2) : Word32 := if vt = 0 then 0x80000000#32 else 0x80008000#32

/-- A transcendental slot (R159). -/
def transSlot (i : Instr) (bays : Bays) (o : VOp) (t : TFun) (s : State) : Host.Outcome State Fault Refusal :=
  vecSlot i bays o.d o.msel .trans 8 [o.a] (fun s _ => over1 fun a =>
    elems o.vt (fun f x _ _ => fpTrans f (s.rmode o.rnd.toNat) t x) a 0 0) s

/-- The elements `(source element, target element)` of a convert, each converted (R161). -/
def cvElems (o : CvOp) (md : RMode) (x : Word32) (js : List (Nat × Nat)) (acc : Word32 × Flags) : Word32 × Flags :=
  let ws := cvWidth o.sf
  let wt := cvWidth o.tf
  js.foldl (fun acc j =>
    let (y, f) := cvt o.sf.toNat o.tf.toNat md o.sat (elemAt x.toNat ws j.1)
    (.ofNat 32 (setBits acc.1.toNat (wt * j.2) wt y), orFlags acc.2 f)) acc

/-- A convert slot (R160, R161). -/
def cvSlot (i : Instr) (bays : Bays) (o : CvOp) (src : List (BitVec 8))
    (f : RMode → List (List Word32) → List (Word32 × Flags)) (s : State) : Host.Outcome State Fault Refusal :=
  vecSlot i bays o.d o.msel .conv 3 src (fun s _ => f (s.rmode o.rnd.toNat)) s

/-! ### The slots -/

/-- `VADD` (R155). -/
def execVadd (bays : Bays) (o : VOp) (s : State) : Host.Outcome State Fault Refusal :=
  vecSlot (.vadd bays o) bays o.d o.msel .alu 2 [o.a, o.b] (fun s _ =>
    over2 fun a b => arith o (fun m f x y _ => fpAdd f m x y) (fun x y _ => x + y) s a b 0) s

/-- `VSUB` (R155). -/
def execVsub (bays : Bays) (o : VOp) (s : State) : Host.Outcome State Fault Refusal :=
  vecSlot (.vsub bays o) bays o.d o.msel .alu 2 [o.a, o.b] (fun s _ =>
    over2 fun a b => arith o (fun m f x y _ => fpSub f m x y) (fun x y _ => x - y) s a b 0) s

/-- `VMIN` (R155). -/
def execVmin (bays : Bays) (o : VOp) (s : State) : Host.Outcome State Fault Refusal :=
  vecSlot (.vmin bays o) bays o.d o.msel .alu 2 [o.a, o.b] (fun s _ =>
    over2 fun a b => arith o (fun _ f x y _ => fpMinMax f false x y) (fun x y _ => min x y) s a b 0) s

/-- `VMAX` (R155). -/
def execVmax (bays : Bays) (o : VOp) (s : State) : Host.Outcome State Fault Refusal :=
  vecSlot (.vmax bays o) bays o.d o.msel .alu 2 [o.a, o.b] (fun s _ =>
    over2 fun a b => arith o (fun _ f x y _ => fpMinMax f true x y) (fun x y _ => max x y) s a b 0) s

/-- `VABS` (R155). -/
def execVabs (bays : Bays) (o : VOp) (s : State) : Host.Outcome State Fault Refusal :=
  vecSlot (.vabs bays o) bays o.d o.msel .alu 2 [o.a] (fun _ _ =>
    over1 fun a =>
      if o.vt = 3 then int32Of (satOf o) a.toInt.natAbs else (a &&& ~~~signBits o.vt, noFlags)) s

/-- `VNEG` (R155). -/
def execVneg (bays : Bays) (o : VOp) (s : State) : Host.Outcome State Fault Refusal :=
  vecSlot (.vneg bays o) bays o.d o.msel .alu 2 [o.a] (fun _ _ =>
    over1 fun a =>
      if o.vt = 3 then int32Of (satOf o) (-a.toInt) else (a ^^^ signBits o.vt, noFlags)) s

/-- `VAND` (R155). -/
def execVand (bays : Bays) (o : VOp) (s : State) : Host.Outcome State Fault Refusal :=
  vecSlot (.vand bays o) bays o.d o.msel .alu 2 [o.a, o.b] (fun _ _ =>
    over2 fun a b => (a &&& b, noFlags)) s

/-- `VOR` (R155). -/
def execVor (bays : Bays) (o : VOp) (s : State) : Host.Outcome State Fault Refusal :=
  vecSlot (.vor bays o) bays o.d o.msel .alu 2 [o.a, o.b] (fun _ _ =>
    over2 fun a b => (a ||| b, noFlags)) s

/-- `VXOR` (R155). -/
def execVxor (bays : Bays) (o : VOp) (s : State) : Host.Outcome State Fault Refusal :=
  vecSlot (.vxor bays o) bays o.d o.msel .alu 2 [o.a, o.b] (fun _ _ =>
    over2 fun a b => (a ^^^ b, noFlags)) s

/-- `VANDN` (R155). -/
def execVandn (bays : Bays) (o : VOp) (s : State) : Host.Outcome State Fault Refusal :=
  vecSlot (.vandn bays o) bays o.d o.msel .alu 2 [o.a, o.b] (fun _ _ =>
    over2 fun a b => (a &&& ~~~b, noFlags)) s

/-- `VSHL` (R155). -/
def execVshl (bays : Bays) (o : VOp) (s : State) : Host.Outcome State Fault Refusal :=
  vecSlot (.vshl bays o) bays o.d o.msel .alu 2 [o.a, o.b] (fun _ _ =>
    over2 fun a b => (a <<< (b.toNat % 32), noFlags)) s

/-- `VSHR` (R155). -/
def execVshr (bays : Bays) (o : VOp) (s : State) : Host.Outcome State Fault Refusal :=
  vecSlot (.vshr bays o) bays o.d o.msel .alu 2 [o.a, o.b] (fun _ _ =>
    over2 fun a b => (a >>> (b.toNat % 32), noFlags)) s

/-- `VSAR` (R155). -/
def execVsar (bays : Bays) (o : VOp) (s : State) : Host.Outcome State Fault Refusal :=
  vecSlot (.vsar bays o) bays o.d o.msel .alu 2 [o.a, o.b] (fun _ _ =>
    over2 fun a b => (a.sshiftRight (b.toNat % 32), noFlags)) s

/-- `VMOV` (R155). -/
def execVmov (bays : Bays) (o : VOp) (s : State) : Host.Outcome State Fault Refusal :=
  vecSlot (.vmov bays o) bays o.d o.msel .alu 2 [o.a] (fun _ _ =>
    over1 fun a => (a, noFlags)) s

/-- `VSEL` (R155): C names the selecting mask. -/
def execVsel (bays : Bays) (o : VOp) (s : State) : Host.Outcome State Fault Refusal :=
  vecSlot (.vsel bays o) bays o.d o.msel .alu 2 [o.a, o.b] (fun s b l =>
    match l with
    | [x, y] => (x.zip y).zipIdx.map fun p =>
      (if ((s.bayAt b).mask (o.c.setWidth 3)).getLsbD p.2 then p.1.1 else p.1.2, noFlags)
    | _ => []) s

/-- `VCMP.EQ` (R156). -/
def execVcmpEq (bays : Bays) (o : VOp) (s : State) : Host.Outcome State Fault Refusal :=
  vcmpSlot (.vcmpEq bays o) bays o .eq (fun x y => x == y) s

/-- `VCMP.NE` (R156). -/
def execVcmpNe (bays : Bays) (o : VOp) (s : State) : Host.Outcome State Fault Refusal :=
  vcmpSlot (.vcmpNe bays o) bays o .ne (fun x y => x != y) s

/-- `VCMP.LT` (R156). -/
def execVcmpLt (bays : Bays) (o : VOp) (s : State) : Host.Outcome State Fault Refusal :=
  vcmpSlot (.vcmpLt bays o) bays o .lt (fun x y => decide (x < y)) s

/-- `VCMP.LE` (R156). -/
def execVcmpLe (bays : Bays) (o : VOp) (s : State) : Host.Outcome State Fault Refusal :=
  vcmpSlot (.vcmpLe bays o) bays o .le (fun x y => decide (x ≤ y)) s

/-- `VCMP.UN` (R156). -/
def execVcmpUn (bays : Bays) (o : VOp) (s : State) : Host.Outcome State Fault Refusal :=
  vcmpSlot (.vcmpUn bays o) bays o .un (fun _ _ => false) s

/-- `VMAND` (R157). -/
def execVmand (bays : Bays) (d a b : BitVec 3) (s : State) : Host.Outcome State Fault Refusal :=
  maskSlot (.vmand bays d a b) bays d (fun y => y.mask a &&& y.mask b) s

/-- `VMOR` (R157). -/
def execVmor (bays : Bays) (d a b : BitVec 3) (s : State) : Host.Outcome State Fault Refusal :=
  maskSlot (.vmor bays d a b) bays d (fun y => y.mask a ||| y.mask b) s

/-- `VMXOR` (R157). -/
def execVmxor (bays : Bays) (d a b : BitVec 3) (s : State) : Host.Outcome State Fault Refusal :=
  maskSlot (.vmxor bays d a b) bays d (fun y => y.mask a ^^^ y.mask b) s

/-- `VMANDN` (R157). -/
def execVmandn (bays : Bays) (d a b : BitVec 3) (s : State) : Host.Outcome State Fault Refusal :=
  maskSlot (.vmandn bays d a b) bays d (fun y => y.mask a &&& ~~~y.mask b) s

/-- `VMSET` (R157): bit `i` is 1 for `i < n`. -/
def execVmset (bays : Bays) (d : BitVec 3) (n : BitVec 8) (s : State) : Host.Outcome State Fault Refusal :=
  maskSlot (.vmset bays d n) bays d (fun _ => .ofNat 128 (2 ^ n.toNat - 1)) s

/-- `VMUL` (R158). -/
def execVmul (bays : Bays) (o : VOp) (s : State) : Host.Outcome State Fault Refusal :=
  vecSlot (.vmul bays o) bays o.d o.msel .fma 4 [o.a, o.b] (fun s _ =>
    over2 fun a b => arith o (fun m f x y _ => fpMul f m x y) (fun x y _ => x * y) s a b 0) s

/-- `VFMA` (R158). -/
def execVfma (bays : Bays) (o : VOp) (s : State) : Host.Outcome State Fault Refusal :=
  vecSlot (.vfma bays o) bays o.d o.msel .fma 4 [o.a, o.b, o.c] (fun s _ =>
    over3 fun a b c => arith o (fun m f x y z => fpFma f m false false x y z) (fun x y z => x * y + z) s a b c) s

/-- `VFMS` (R158). -/
def execVfms (bays : Bays) (o : VOp) (s : State) : Host.Outcome State Fault Refusal :=
  vecSlot (.vfms bays o) bays o.d o.msel .fma 4 [o.a, o.b, o.c] (fun s _ =>
    over3 fun a b c => arith o (fun m f x y z => fpFma f m false true x y z) (fun x y z => x * y - z) s a b c) s

/-- `VFNMA` (R158). -/
def execVfnma (bays : Bays) (o : VOp) (s : State) : Host.Outcome State Fault Refusal :=
  vecSlot (.vfnma bays o) bays o.d o.msel .fma 4 [o.a, o.b, o.c] (fun s _ =>
    over3 fun a b c => arith o (fun m f x y z => fpFma f m true false x y z) (fun x y z => z - x * y) s a b c) s

/-- `VEXP2` (R159). -/
def execVexp2 (bays : Bays) (o : VOp) (s : State) : Host.Outcome State Fault Refusal :=
  transSlot (.vexp2 bays o) bays o .exp2 s

/-- `VLOG2` (R159). -/
def execVlog2 (bays : Bays) (o : VOp) (s : State) : Host.Outcome State Fault Refusal :=
  transSlot (.vlog2 bays o) bays o .log2 s

/-- `VRCP` (R159). -/
def execVrcp (bays : Bays) (o : VOp) (s : State) : Host.Outcome State Fault Refusal :=
  transSlot (.vrcp bays o) bays o .rcp s

/-- `VRSQRT` (R159). -/
def execVrsqrt (bays : Bays) (o : VOp) (s : State) : Host.Outcome State Fault Refusal :=
  transSlot (.vrsqrt bays o) bays o .rsqrt s

/-- `VSQRT` (R159). -/
def execVsqrt (bays : Bays) (o : VOp) (s : State) : Host.Outcome State Fault Refusal :=
  transSlot (.vsqrt bays o) bays o .sqrt s

/-- `VTANH` (R159). -/
def execVtanh (bays : Bays) (o : VOp) (s : State) : Host.Outcome State Fault Refusal :=
  transSlot (.vtanh bays o) bays o .tanh s

/-- `VSIGM` (R159). -/
def execVsigm (bays : Bays) (o : VOp) (s : State) : Host.Outcome State Fault Refusal :=
  transSlot (.vsigm bays o) bays o .sigm s

/-- `VCVT` (R161). -/
def execVcvt (bays : Bays) (o : CvOp) (s : State) : Host.Outcome State Fault Refusal :=
  cvSlot (.vcvt bays o) bays o [o.a] (fun md => over1 fun a =>
    cvElems o md a ((List.range (32 / max (cvWidth o.sf) (cvWidth o.tf))).map fun j => (j, j)) (0, noFlags)) s

/-- `VRINT` (R162). -/
def execVrint (bays : Bays) (o : CvOp) (s : State) : Host.Outcome State Fault Refusal :=
  cvSlot (.vrint bays o) bays o [o.a] (fun md => over1 fun a =>
    let ws := cvWidth o.sf
    (List.range (32 / ws)).foldl (fun acc j =>
      let (y, f) := roundIntegral ((ffmtOf o.sf.toNat).getD fp32) md (elemAt a.toNat ws j)
      (.ofNat 32 (setBits acc.1.toNat (ws * j) ws y), orFlags acc.2 f)) (0, noFlags)) s

/-- `VPACK` (R161). -/
def execVpack (bays : Bays) (o : CvOp) (s : State) : Host.Outcome State Fault Refusal :=
  cvSlot (.vpack bays o) bays o [o.a, o.b] (fun md => over2 fun a b =>
    let n := 32 / cvWidth o.sf
    cvElems o md b ((List.range n).map fun j => (j, n + j))
      (cvElems o md a ((List.range n).map fun j => (j, j)) (0, noFlags))) s

/-- `VUNPK` (R161): B is the immediate. -/
def execVunpk (bays : Bays) (o : CvOp) (s : State) : Host.Outcome State Fault Refusal :=
  cvSlot (.vunpk bays o) bays o [o.a] (fun md => over1 fun a =>
    let n := 32 / cvWidth o.tf
    cvElems o md a ((List.range n).map fun j => (o.b.toNat * n + j, j)) (0, noFlags)) s

end Sys2Proof.Machine
end

