-- ==== Sys2Proof/Machine/Walker.lean ====
section
/-!
DEFINITION. The end of a kernel (R242), and the task-graph walker (R367 to R369).
-/

namespace Sys2Proof.Machine

/-! ### Nodes (R367) -/

/-- The cistern address at which the walker of the die reads. -/
def State.walkAddr (s : State) (a : Nat) : Nat := s.cur.val * 2 ^ 27 + a / 8 * 8 % 2 ^ 27

/-- A word of the die that the walker reads: none where it is not mapped for the context, poisoned or uncorrectable. The
read decodes the word (R384). -/
def State.walkWord (s : State) (a : Nat) : State × Option Word :=
  let a := s.walkAddr a
  if granAllows (s.mem.entryOf a) s.ctx.domid.toNat 0 .load then
    let (s, st, _) := s.decodeWord (a / 16) false
    (s, if st = .good then some (.ofNat 64 (s.mem.num a 8)) else none)
  else (s, none)

/-- The four words of the current node, with its KIND as given. -/
def State.node (s : State) (kind : Nat) : State × Option (List Nat) :=
  let (s, l) := (List.range 4).foldl (fun (x : State × List (Option Word)) k =>
    let (s, w) := x.1.walkWord (s.ctx.walk.addr + 8 * k)
    (s, x.2 ++ [w])) (s, [])
  (s, if l.all Option.isSome then
    let ws := l.map fun w => (w.getD 0).toNat
    if bitsAt (ws.getD 0 0) 0 3 = kind then some ws else none
  else none)

/-- NEXT and ALT. -/
def nodeNext (ws : List Nat) : Nat := bitsAt (ws.getD 0 0) 8 16
def nodeAlt (ws : List Nat) : Nat := bitsAt (ws.getD 0 0) 24 16

/-- COND of a node for its condition word against VALUE: none for the reserved COND, and where the word cannot be read. -/
def State.nodeCond (s : State) (ws : List Nat) : State × Option Bool :=
  let cond := bitsAt (ws.getD 3 0) 0 2
  if cond = 3 then (s, none)
  else
    let (s, x) := s.walkWord (bitsAt (ws.getD 1 0) 0 32)
    (s, x.map fun x => waitCond cond x (.ofNat 64 (ws.getD 2 0)))

/-! ### Going on -/

/-- The die's part of its launch is done: a decision point when the launch completes. -/
def State.partDone (s : State) : State :=
  match s.launchOn s.cur.val with
  | some l => (s.dieDone l.id).dispatch
  | none => s

/-- A walker error (R368). -/
def State.walkerError (s : State) : State :=
  match s.launchOn s.cur.val with
  | some l => (s.failLaunch l.id 7 0).partDone
  | none => s

/-- The walker halts at its current node: the die is halted 256 cycles later (R361, R369). -/
def State.walkerHalt (s : State) : State := (s.modDie fun d => { d with halting := true }).after 256 .preemptionHalt (.status 0)

/-- The walker goes to a node; 0xFFFF ends the graph. -/
def State.walkerTo (s : State) (n : Nat) : State :=
  if n = 0xFFFF then (s.modCtx fun c => { c with walk := { c.walk with busy := false } }).partDone
  else
    let s := s.modCtx fun c => { c with walk := { c.walk with node := n, busy := true } }
    if s.ctx.preq then s.walkerHalt else s.walkerAt

/-! ### Node kinds (R368) -/

/-- `WALKER_KERNEL_NODE` (R368): the kernel starts; or it has ended with a CODE, and chooses the successor. -/
def execWalkerKernelNode (s : State) : Host.Outcome State Fault Refusal :=
  match s.node 0, s.msg with
  | (s, none), _ => .next s.walkerError
  | (s, some ws), .status code => .next (s.walkerTo (if code = 0 then nodeNext ws else nodeAlt ws))
  | (s, some ws), _ =>
    .next ((s.modCtx fun c => { c with walk := { c.walk with busy := false } }).runKernel (ws.getD 1 0))

/-- `WALKER_CONDITIONAL_NODE` (R368). -/
def execWalkerConditionalNode (s : State) : Host.Outcome State Fault Refusal :=
  match s.node 1 with
  | (s, none) => .next s.walkerError
  | (s, some ws) =>
    match s.nodeCond ws with
    | (s, none) => .next s.walkerError
    | (s, some c) => .next (s.walkerTo (if c then nodeNext ws else nodeAlt ws))

/-- The count of an active while node. -/
def Walker.count (w : Walker) : Nat := match w.whiles.find? fun x => x.1 == w.node with
  | some x => x.2
  | none => 0

/-- Set the count of the current while node; one with count 0 is not active. -/
def Walker.setCount (w : Walker) (n : Nat) : Walker :=
  let l := w.whiles.filter fun x => x.1 != w.node
  { w with whiles := if n = 0 then l else l ++ [(w.node, n)] }

/-- `WALKER_WHILE_NODE` (R368). -/
def execWalkerWhileNode (s : State) : Host.Outcome State Fault Refusal :=
  match s.node 2 with
  | (s, none) => .next s.walkerError
  | (s, some ws) =>
    let w := s.ctx.walk
    match s.nodeCond ws with
    | (s, none) => .next s.walkerError
    | (s, some false) => .next ((s.modCtx fun c => { c with walk := w.setCount 0 }).walkerTo (nodeAlt ws))
    | (s, some true) =>
      let n := w.count + 1
      if bitsAt (ws.getD 3 0) 16 16 < n ∨ (n = 1 ∧ 8 ≤ w.whiles.length) then .next s.walkerError
      else .next ((s.modCtx fun c => { c with walk := w.setCount n }).walkerTo (nodeNext ws))

/-- `WALKER_JOIN_NODE` (R368): a wait is a safe boundary. -/
def execWalkerJoinNode (s : State) : Host.Outcome State Fault Refusal :=
  match s.node 3 with
  | (s, none) => .next s.walkerError
  | (s, some ws) =>
    match s.nodeCond ws with
    | (s, none) => .next s.walkerError
    | (s, some true) => .next (s.walkerTo (nodeNext ws))
    | (s, some false) => .next (if s.ctx.preq then s.walkerHalt else s.after 1 .walkerJoinNode)

/-! ### The end of a kernel (R242) -/

/-- The kernel on the die ends (R242): loop levels become inactive, and CODE goes to the walker, or the die's part of its
launch is done. -/
def State.kernelEnd (s : State) : State :=
  let code := (s.ctx.exit.getD 0).toNat
  let s := s.closeGroups fun _ => true
  let s := s.modDie fun d => { d with
    running := false
    ctx := { d.ctx with
      exiting := false, exit := none, wait := [], hold := 0, hoist := [], loops := d.ctx.loops.map fun l => { l with act := false }
      pump := { openRec := d.ctx.pump.openRec } } }
  match s.launchOn s.cur.val with
  | none => s
  | some l =>
    let s := s.modLaunch l.id fun l => { l with code := code }
    if s.ctx.walk.graph = 0 then s.partDone
    else s.push [.instr .walkerKernelNode (.status code)]

/-- `KERNEL_END` (R242, R372): the kernel on the die ends; or, as another package of the launch tells, the kernels of its
dies have ended, the last one with a CODE. -/
def execKernelEnd (s : State) : Host.Outcome State Fault Refusal :=
  match s.msg with
  | .ended pkg id code =>
    if pkg = s.host.pkg then .next s
    else .next ((s.modLaunch id fun l => { l with code := code }).partEnded id pkg).dispatch
  | _ => .next s.kernelEnd

end Sys2Proof.Machine
end

