-- ==== Sys2Proof/Machine/Dispatch.lean ====
section
/-! DEFINITION. One arm per step of the table: a direct call of its meaning. -/

namespace Sys2Proof.Machine

/-- What a step of the table does. -/
def exec (i : Instr) (s : State) : Host.Outcome State Fault Refusal :=
  match i with
  | .segmentExpansionDone va => Sys2Proof.Machine.execSegmentExpansionDone va s
  | .timelineResultLanding r => Sys2Proof.Machine.execTimelineResultLanding r s
  | .streamEntryArrival bay q e => Sys2Proof.Machine.execStreamEntryArrival bay q e s
  | .pourBankWrite p => Sys2Proof.Machine.execPourBankWrite p s
  | .mxStepLanding m => Sys2Proof.Machine.execMxStepLanding m s
  | .mxModePartialClear bay fa fb => Sys2Proof.Machine.execMxModePartialClear bay fa fb s
  | .mxDrainPresent bay dst lanes => Sys2Proof.Machine.execMxDrainPresent bay dst lanes s
  | .mxSnapTargetWrite bay toB cells step => Sys2Proof.Machine.execMxSnapTargetWrite bay toB cells step s
  | .xferDelivery bay q e => Sys2Proof.Machine.execXferDelivery bay q e s
  | .routingCounterUpdate u => Sys2Proof.Machine.execRoutingCounterUpdate u s
  | .combiningEntryClose id => Sys2Proof.Machine.execCombiningEntryClose id s
  | .ringLock port ring => Sys2Proof.Machine.execRingLock port ring s
  | .rotaSlotStart n => Sys2Proof.Machine.execRotaSlotStart n s
  | .laserRemoval iod => Sys2Proof.Machine.execLaserRemoval iod s
  | .laserInsertion iod => Sys2Proof.Machine.execLaserInsertion iod s
  | .portGateWrite port g => Sys2Proof.Machine.execPortGateWrite port g s
  | .portGated port => Sys2Proof.Machine.execPortGated port s
  | .fabctlModeWrite v => Sys2Proof.Machine.execFabctlModeWrite v s
  | .loopLevelWrite csr v => Sys2Proof.Machine.execLoopLevelWrite csr v s
  | .registerWrite csr how v => Sys2Proof.Machine.execRegisterWrite csr how v s
  | .spanSlot r => Sys2Proof.Machine.execSpanSlot r s
  | .spanEntryArrival bay e => Sys2Proof.Machine.execSpanEntryArrival bay e s
  | .spanSlip bay q slot => Sys2Proof.Machine.execSpanSlip bay q slot s
  | .act b rowcol => Sys2Proof.Machine.execAct b rowcol s
  | .rd b col caddr => Sys2Proof.Machine.execRd b col caddr s
  | .wr b col caddr => Sys2Proof.Machine.execWr b col caddr s
  | .pre b => Sys2Proof.Machine.execPre b s
  | .prea pc => Sys2Proof.Machine.execPrea pc s
  | .refr b rowcol => Sys2Proof.Machine.execRefr b rowcol s
  | .nmcFade n => Sys2Proof.Machine.execNmcFade n s
  | .nmcAxpy n => Sys2Proof.Machine.execNmcAxpy n s
  | .nmcAdd n => Sys2Proof.Machine.execNmcAdd n s
  | .nmcScale n => Sys2Proof.Machine.execNmcScale n s
  | .nmcFill n => Sys2Proof.Machine.execNmcFill n s
  | .scrubRead bay => Sys2Proof.Machine.execScrubRead bay s
  | .laneReplacementDone port => Sys2Proof.Machine.execLaneReplacementDone port s
  | .islandFailure die => Sys2Proof.Machine.execIslandFailure die s
  | .hostDoorbellWrite q tail => Sys2Proof.Machine.execHostDoorbellWrite q tail s
  | .sliceEnd launch => Sys2Proof.Machine.execSliceEnd launch s
  | .contextSaveComplete launch => Sys2Proof.Machine.execContextSaveComplete launch s
  | .contextRestore launch => Sys2Proof.Machine.execContextRestore launch s
  | .powerOn fails => Sys2Proof.Machine.execPowerOn fails s
  | .qset q word value mask => Sys2Proof.Machine.execQset q word value mask s
  | .ctxset ctx addr => Sys2Proof.Machine.execCtxset ctx addr s
  | .region n die addr count => Sys2Proof.Machine.execRegion n die addr count s
  | .tier sel value => Sys2Proof.Machine.execTier sel value s
  | .tierMigration ctx leaf dframe dtier => Sys2Proof.Machine.execTierMigration ctx leaf dframe dtier s
  | .recover q addr => Sys2Proof.Machine.execRecover q addr s
  | .faults addr max => Sys2Proof.Machine.execFaults addr max s
  | .resync addr => Sys2Proof.Machine.execResync addr s
  | .retireDie die => Sys2Proof.Machine.execRetireDie die s
  | .retireBank die bay bank => Sys2Proof.Machine.execRetireBank die bay bank s
  | .fwload addr len => Sys2Proof.Machine.execFwload addr len s
  | .attest n0 n1 n2 n3 addr => Sys2Proof.Machine.execAttest n0 n1 n2 n3 addr s
  | .domainJoin pkg => Sys2Proof.Machine.execDomainJoin pkg s
  | .domainLeave pkg => Sys2Proof.Machine.execDomainLeave pkg s
  | .pcap watts => Sys2Proof.Machine.execPcap watts s
  | .br tgt => Sys2Proof.Machine.execBr tgt s
  | .brv tgt bset m e neg => Sys2Proof.Machine.execBrv tgt bset m e neg s
  | .jseg a tgt => Sys2Proof.Machine.execJseg a tgt s
  | .loop lvl a end_ hops maxt => Sys2Proof.Machine.execLoop lvl a end_ hops maxt s
  | .lbrk lvl => Sys2Proof.Machine.execLbrk lvl s
  | .lcont lvl => Sys2Proof.Machine.execLcont lvl s
  | .exit code => Sys2Proof.Machine.execExit code s
  | .tret skip nodbrk => Sys2Proof.Machine.execTret skip nodbrk s
  | .add d a b => Sys2Proof.Machine.execAdd d a b s
  | .sub d a b => Sys2Proof.Machine.execSub d a b s
  | .and d a b => Sys2Proof.Machine.execAnd d a b s
  | .or d a b => Sys2Proof.Machine.execOr d a b s
  | .xor d a b => Sys2Proof.Machine.execXor d a b s
  | .andn d a b => Sys2Proof.Machine.execAndn d a b s
  | .shl d a b => Sys2Proof.Machine.execShl d a b s
  | .shr d a b => Sys2Proof.Machine.execShr d a b s
  | .sar d a b => Sys2Proof.Machine.execSar d a b s
  | .min d a b => Sys2Proof.Machine.execMin d a b s
  | .max d a b => Sys2Proof.Machine.execMax d a b s
  | .minu d a b => Sys2Proof.Machine.execMinu d a b s
  | .maxu d a b => Sys2Proof.Machine.execMaxu d a b s
  | .clz d a => Sys2Proof.Machine.execClz d a s
  | .popc d a => Sys2Proof.Machine.execPopc d a s
  | .sel d a b p => Sys2Proof.Machine.execSel d a b p s
  | .addi d a imm => Sys2Proof.Machine.execAddi d a imm s
  | .andi d a imm => Sys2Proof.Machine.execAndi d a imm s
  | .ori d a imm => Sys2Proof.Machine.execOri d a imm s
  | .xori d a imm => Sys2Proof.Machine.execXori d a imm s
  | .shli d a imm => Sys2Proof.Machine.execShli d a imm s
  | .shri d a imm => Sys2Proof.Machine.execShri d a imm s
  | .sari d a imm => Sys2Proof.Machine.execSari d a imm s
  | .movi d imm => Sys2Proof.Machine.execMovi d imm s
  | .movhi d a q imm => Sys2Proof.Machine.execMovhi d a q imm s
  | .mul d a b => Sys2Proof.Machine.execMul d a b s
  | .mulh d a b => Sys2Proof.Machine.execMulh d a b s
  | .mulhu d a b => Sys2Proof.Machine.execMulhu d a b s
  | .cmpEq pd a b pn => Sys2Proof.Machine.execCmpEq pd a b pn s
  | .cmpNe pd a b pn => Sys2Proof.Machine.execCmpNe pd a b pn s
  | .cmpLt pd a b pn => Sys2Proof.Machine.execCmpLt pd a b pn s
  | .cmpLtu pd a b pn => Sys2Proof.Machine.execCmpLtu pd a b pn s
  | .cmpLe pd a b pn => Sys2Proof.Machine.execCmpLe pd a b pn s
  | .cmpLeu pd a b pn => Sys2Proof.Machine.execCmpLeu pd a b pn s
  | .cmpiEq pd a pn imm => Sys2Proof.Machine.execCmpiEq pd a pn imm s
  | .cmpiLt pd a pn imm => Sys2Proof.Machine.execCmpiLt pd a pn imm s
  | .pand o => Sys2Proof.Machine.execPand o s
  | .por o => Sys2Proof.Machine.execPor o s
  | .pxor o => Sys2Proof.Machine.execPxor o s
  | .pandn o => Sys2Proof.Machine.execPandn o s
  | .pmovsToScalar d => Sys2Proof.Machine.execPmovsToScalar d s
  | .pmovsFromScalar a => Sys2Proof.Machine.execPmovsFromScalar a s
  | .fadd o => Sys2Proof.Machine.execFadd o s
  | .fsub o => Sys2Proof.Machine.execFsub o s
  | .fmul o => Sys2Proof.Machine.execFmul o s
  | .ffma o => Sys2Proof.Machine.execFfma o s
  | .fmin o => Sys2Proof.Machine.execFmin o s
  | .fmax o => Sys2Proof.Machine.execFmax o s
  | .fcmp o => Sys2Proof.Machine.execFcmp o s
  | .fcvt o => Sys2Proof.Machine.execFcvt o s
  | .ld o => Sys2Proof.Machine.execLd o s
  | .st o => Sys2Proof.Machine.execSt o s
  | .lds o => Sys2Proof.Machine.execLds o s
  | .chk o => Sys2Proof.Machine.execChk o s
  | .signal v a off => Sys2Proof.Machine.execSignal v a off s
  | .hld h a off => Sys2Proof.Machine.execHld h a off s
  | .hst h a off => Sys2Proof.Machine.execHst h a off s
  | .hset hd ha b field => Sys2Proof.Machine.execHset hd ha b field s
  | .hget d ha field => Sys2Proof.Machine.execHget d ha field s
  | .hmov hd ha => Sys2Proof.Machine.execHmov hd ha s
  | .vadd bays o => Sys2Proof.Machine.execVadd bays o s
  | .vsub bays o => Sys2Proof.Machine.execVsub bays o s
  | .vmin bays o => Sys2Proof.Machine.execVmin bays o s
  | .vmax bays o => Sys2Proof.Machine.execVmax bays o s
  | .vabs bays o => Sys2Proof.Machine.execVabs bays o s
  | .vneg bays o => Sys2Proof.Machine.execVneg bays o s
  | .vand bays o => Sys2Proof.Machine.execVand bays o s
  | .vor bays o => Sys2Proof.Machine.execVor bays o s
  | .vxor bays o => Sys2Proof.Machine.execVxor bays o s
  | .vandn bays o => Sys2Proof.Machine.execVandn bays o s
  | .vshl bays o => Sys2Proof.Machine.execVshl bays o s
  | .vshr bays o => Sys2Proof.Machine.execVshr bays o s
  | .vsar bays o => Sys2Proof.Machine.execVsar bays o s
  | .vmov bays o => Sys2Proof.Machine.execVmov bays o s
  | .vsel bays o => Sys2Proof.Machine.execVsel bays o s
  | .vcmpEq bays o => Sys2Proof.Machine.execVcmpEq bays o s
  | .vcmpNe bays o => Sys2Proof.Machine.execVcmpNe bays o s
  | .vcmpLt bays o => Sys2Proof.Machine.execVcmpLt bays o s
  | .vcmpLe bays o => Sys2Proof.Machine.execVcmpLe bays o s
  | .vcmpUn bays o => Sys2Proof.Machine.execVcmpUn bays o s
  | .vmand bays d a b => Sys2Proof.Machine.execVmand bays d a b s
  | .vmor bays d a b => Sys2Proof.Machine.execVmor bays d a b s
  | .vmxor bays d a b => Sys2Proof.Machine.execVmxor bays d a b s
  | .vmandn bays d a b => Sys2Proof.Machine.execVmandn bays d a b s
  | .vmset bays d n => Sys2Proof.Machine.execVmset bays d n s
  | .vmul bays o => Sys2Proof.Machine.execVmul bays o s
  | .vfma bays o => Sys2Proof.Machine.execVfma bays o s
  | .vfms bays o => Sys2Proof.Machine.execVfms bays o s
  | .vfnma bays o => Sys2Proof.Machine.execVfnma bays o s
  | .vexp2 bays o => Sys2Proof.Machine.execVexp2 bays o s
  | .vlog2 bays o => Sys2Proof.Machine.execVlog2 bays o s
  | .vrcp bays o => Sys2Proof.Machine.execVrcp bays o s
  | .vrsqrt bays o => Sys2Proof.Machine.execVrsqrt bays o s
  | .vsqrt bays o => Sys2Proof.Machine.execVsqrt bays o s
  | .vtanh bays o => Sys2Proof.Machine.execVtanh bays o s
  | .vsigm bays o => Sys2Proof.Machine.execVsigm bays o s
  | .vcvt bays o => Sys2Proof.Machine.execVcvt bays o s
  | .vrint bays o => Sys2Proof.Machine.execVrint bays o s
  | .vpack bays o => Sys2Proof.Machine.execVpack bays o s
  | .vunpk bays o => Sys2Proof.Machine.execVunpk bays o s
  | .scanPsum bays o => Sys2Proof.Machine.execScanPsum bays o s
  | .scanPmax bays o => Sys2Proof.Machine.execScanPmax bays o s
  | .scanPmin bays o => Sys2Proof.Machine.execScanPmin bays o s
  | .scanSpsum bays o => Sys2Proof.Machine.execScanSpsum bays o s
  | .scanRsum bays o => Sys2Proof.Machine.execScanRsum bays o s
  | .scanRmax bays o => Sys2Proof.Machine.execScanRmax bays o s
  | .scanRmin bays o => Sys2Proof.Machine.execScanRmin bays o s
  | .scanAmax bays o => Sys2Proof.Machine.execScanAmax bays o s
  | .scanCmpct bays o => Sys2Proof.Machine.execScanCmpct bays o s
  | .scanArgmax bays o => Sys2Proof.Machine.execScanArgmax bays o s
  | .scanTopk bays o => Sys2Proof.Machine.execScanTopk bays o s
  | .scanRank bays o => Sys2Proof.Machine.execScanRank bays o s
  | .mxPush bays la lb qa qb => Sys2Proof.Machine.execMxPush bays la lb qa qb s
  | .mxAcc bays sa sb qa qb tsel => Sys2Proof.Machine.execMxAcc bays sa sb qa qb tsel s
  | .mxShift bays sh sb qb tsel => Sys2Proof.Machine.execMxShift bays sh sb qb tsel s
  | .mxHold bays n => Sys2Proof.Machine.execMxHold bays n s
  | .mxDrain bays qd bank clr auto sr row => Sys2Proof.Machine.execMxDrain bays qd bank clr auto sr row s
  | .mxZero bays za zb zp => Sys2Proof.Machine.execMxZero bays za zb zp s
  | .mxMode bays fa fb => Sys2Proof.Machine.execMxMode bays fa fb s
  | .mxScale bays qsa qsb => Sys2Proof.Machine.execMxScale bays qsa qsb s
  | .mxSnap bays fromB => Sys2Proof.Machine.execMxSnap bays fromB s
  | .mxSwap bays => Sys2Proof.Machine.execMxSwap bays s
  | .qBind bays q port h a depth wrap feed => Sys2Proof.Machine.execQBind bays q port h a depth wrap feed s
  | .qUnbind bays q => Sys2Proof.Machine.execQUnbind bays q s
  | .qSkip bays q n => Sys2Proof.Machine.execQSkip bays q n s
  | .qRmask bays q d => Sys2Proof.Machine.execQRmask bays q d s
  | .qXfer bays qd qs rot => Sys2Proof.Machine.execQXfer bays qd qs rot s
  | .qXferLand bays qs => Sys2Proof.Machine.execQXferLand bays qs s
  | .qDrain bays q => Sys2Proof.Machine.execQDrain bays q s
  | .stnLd bays dir slot a => Sys2Proof.Machine.execStnLd bays dir slot a s
  | .stnCut bay dir slot a c pass strict => Sys2Proof.Machine.execStnCut bay dir slot a c pass strict s
  | .stnWait bay d => Sys2Proof.Machine.execStnWait bay d s
  | .stnPasses bay d => Sys2Proof.Machine.execStnPasses bay d s
  | .probe bay pd d a v => Sys2Proof.Machine.execProbe bay pd d a v s
  | .probeInv bay a => Sys2Proof.Machine.execProbeInv bay a s
  | .probeTag bay a => Sys2Proof.Machine.execProbeTag bay a s
  | .copy bay b a n c v => Sys2Proof.Machine.execCopy bay b a n c v s
  | .copySt bay b a n c v => Sys2Proof.Machine.execCopySt bay b a n c v s
  | .pageReq bay h a c v => Sys2Proof.Machine.execPageReq bay h a c v s
  | .sumpAdd bays qi qv fmt => Sys2Proof.Machine.execSumpAdd bays qi qv fmt s
  | .sumpMax bays qi qv fmt => Sys2Proof.Machine.execSumpMax bays qi qv fmt s
  | .sumpMin bays qi qv fmt => Sys2Proof.Machine.execSumpMin bays qi qv fmt s
  | .sumpCnt bays qi => Sys2Proof.Machine.execSumpCnt bays qi s
  | .sumpSnap a c v => Sys2Proof.Machine.execSumpSnap a c v s
  | .sumpRd q row => Sys2Proof.Machine.execSumpRd q row s
  | .pumpLd a b => Sys2Proof.Machine.execPumpLd a b s
  | .pumpGo a => Sys2Proof.Machine.execPumpGo a s
  | .pumpIdle a b => Sys2Proof.Machine.execPumpIdle a b s
  | .pumpDead h a => Sys2Proof.Machine.execPumpDead h a s
  | .pumpStat d => Sys2Proof.Machine.execPumpStat d s
  | .pumpActr d a clr => Sys2Proof.Machine.execPumpActr d a clr s
  | .nmFence d => Sys2Proof.Machine.execNmFence d s
  | .nmStat d sel => Sys2Proof.Machine.execNmStat d sel s
  | .waitA d a v cond => Sys2Proof.Machine.execWaitA d a v cond s
  | .fence ld st eng tl => Sys2Proof.Machine.execFence ld st eng tl s
  | .fenceRc d => Sys2Proof.Machine.execFenceRc d s
  | .publish d a => Sys2Proof.Machine.execPublish d a s
  | .shadow d a n => Sys2Proof.Machine.execShadow d a n s
  | .shadowFree a => Sys2Proof.Machine.execShadowFree a s
  | .qwait d n => Sys2Proof.Machine.execQwait d n s
  | .bar a => Sys2Proof.Machine.execBar a s
  | .realign d => Sys2Proof.Machine.execRealign d s
  | .rdgtc d => Sys2Proof.Machine.execRdgtc d s
  | .goWait d => Sys2Proof.Machine.execGoWait d s
  | .csrr d csr => Sys2Proof.Machine.execCsrr d csr s
  | .csrw d a csr => Sys2Proof.Machine.execCsrw d a csr s
  | .csrs d a csr => Sys2Proof.Machine.execCsrs d a csr s
  | .csrc d a csr => Sys2Proof.Machine.execCsrc d a csr s
  | .trap code => Sys2Proof.Machine.execTrap code s
  | .tlbSync a => Sys2Proof.Machine.execTlbSync a s
  | .domsw a => Sys2Proof.Machine.execDomsw a s
  | .dbrk code => Sys2Proof.Machine.execDbrk code s
  | .ucieLaneError port lane => Sys2Proof.Machine.execUcieLaneError port lane s
  | .uciePortFailure die => Sys2Proof.Machine.execUciePortFailure die s
  | .pageRequestRefusal n => Sys2Proof.Machine.execPageRequestRefusal n s
  | .bundleIssue => Sys2Proof.Machine.execBundleIssue s
  | .holdCycle => Sys2Proof.Machine.execHoldCycle s
  | .stallCycle => Sys2Proof.Machine.execStallCycle s
  | .freezeCycle => Sys2Proof.Machine.execFreezeCycle s
  | .pumpRdPresent => Sys2Proof.Machine.execPumpRdPresent s
  | .pumpWrSend => Sys2Proof.Machine.execPumpWrSend s
  | .queuedLoadPerform => Sys2Proof.Machine.execQueuedLoadPerform s
  | .queuedStorePerform => Sys2Proof.Machine.execQueuedStorePerform s
  | .getVerbArrival => Sys2Proof.Machine.execGetVerbArrival s
  | .remoteStoreVerbArrival => Sys2Proof.Machine.execRemoteStoreVerbArrival s
  | .signalVerbArrival => Sys2Proof.Machine.execSignalVerbArrival s
  | .atomicVerbArrival => Sys2Proof.Machine.execAtomicVerbArrival s
  | .getResponse => Sys2Proof.Machine.execGetResponse s
  | .dieCommitAck => Sys2Proof.Machine.execDieCommitAck s
  | .quantumBoundary => Sys2Proof.Machine.execQuantumBoundary s
  | .quantumChange => Sys2Proof.Machine.execQuantumChange s
  | .commitBufferOverflow => Sys2Proof.Machine.execCommitBufferOverflow s
  | .flitSend => Sys2Proof.Machine.execFlitSend s
  | .bulkFlitReceive => Sys2Proof.Machine.execBulkFlitReceive s
  | .atomFlitReceive => Sys2Proof.Machine.execAtomFlitReceive s
  | .commitAcknowledgement => Sys2Proof.Machine.execCommitAcknowledgement s
  | .refusalReport => Sys2Proof.Machine.execRefusalReport s
  | .pathEpochFlit => Sys2Proof.Machine.execPathEpochFlit s
  | .timeExchangeFlit => Sys2Proof.Machine.execTimeExchangeFlit s
  | .flitLossTimeout => Sys2Proof.Machine.execFlitLossTimeout s
  | .pathDisconnect => Sys2Proof.Machine.execPathDisconnect s
  | .pathReconnect => Sys2Proof.Machine.execPathReconnect s
  | .fabricManagerCommand => Sys2Proof.Machine.execFabricManagerCommand s
  | .unsyncTimeout => Sys2Proof.Machine.execUnsyncTimeout s
  | .copyCompletion => Sys2Proof.Machine.execCopyCompletion s
  | .probeFillCompletion => Sys2Proof.Machine.execProbeFillCompletion s
  | .stnCutCompletion => Sys2Proof.Machine.execStnCutCompletion s
  | .stnLdCompletion => Sys2Proof.Machine.execStnLdCompletion s
  | .sumpGroupApply => Sys2Proof.Machine.execSumpGroupApply s
  | .sumpSnapWrite => Sys2Proof.Machine.execSumpSnapWrite s
  | .pumpStageComplete => Sys2Proof.Machine.execPumpStageComplete s
  | .pumpSkip => Sys2Proof.Machine.execPumpSkip s
  | .nmcCompletion => Sys2Proof.Machine.execNmcCompletion s
  | .idleSequenceEntry => Sys2Proof.Machine.execIdleSequenceEntry s
  | .idleRowIssue => Sys2Proof.Machine.execIdleRowIssue s
  | .idleRunEnd => Sys2Proof.Machine.execIdleRunEnd s
  | .tableResume => Sys2Proof.Machine.execTableResume s
  | .refreshDebtAccrual => Sys2Proof.Machine.execRefreshDebtAccrual s
  | .servicePathSequence => Sys2Proof.Machine.execServicePathSequence s
  | .migrationComplete => Sys2Proof.Machine.execMigrationComplete s
  | .bankRebuildWord => Sys2Proof.Machine.execBankRebuildWord s
  | .bankRebuildComplete => Sys2Proof.Machine.execBankRebuildComplete s
  | .heartbeatPoll => Sys2Proof.Machine.execHeartbeatPoll s
  | .dieLossNotice => Sys2Proof.Machine.execDieLossNotice s
  | .doorbellPoll => Sys2Proof.Machine.execDoorbellPoll s
  | .preemptionRequest => Sys2Proof.Machine.execPreemptionRequest s
  | .preemptionHalt => Sys2Proof.Machine.execPreemptionHalt s
  | .kernelEnd => Sys2Proof.Machine.execKernelEnd s
  | .walkerKernelNode => Sys2Proof.Machine.execWalkerKernelNode s
  | .walkerConditionalNode => Sys2Proof.Machine.execWalkerConditionalNode s
  | .walkerWhileNode => Sys2Proof.Machine.execWalkerWhileNode s
  | .walkerJoinNode => Sys2Proof.Machine.execWalkerJoinNode s
  | .gangPrepare => Sys2Proof.Machine.execGangPrepare s
  | .gangReady => Sys2Proof.Machine.execGangReady s
  | .gangReadyDeadline => Sys2Proof.Machine.execGangReadyDeadline s
  | .goToken => Sys2Proof.Machine.execGoToken s
  | .gangCancel => Sys2Proof.Machine.execGangCancel s
  | .gangStart => Sys2Proof.Machine.execGangStart s
  | .gangStarted => Sys2Proof.Machine.execGangStarted s
  | .gangAckDeadline => Sys2Proof.Machine.execGangAckDeadline s
  | .gangConfirm => Sys2Proof.Machine.execGangConfirm s
  | .gangAbort => Sys2Proof.Machine.execGangAbort s
  | .hostReservoirRead => Sys2Proof.Machine.execHostReservoirRead s
  | .hostReservoirWrite => Sys2Proof.Machine.execHostReservoirWrite s
  | .nop => Sys2Proof.Machine.execNop s
  | .jnext => Sys2Proof.Machine.execJnext s
  | .mark => Sys2Proof.Machine.execMark s
  | .sumpClr => Sys2Proof.Machine.execSumpClr s
  | .rdDataReturn => Sys2Proof.Machine.execRdDataReturn s
  | .debuggerWrite => Sys2Proof.Machine.execDebuggerWrite s
  | .hostRegisterWrite => Sys2Proof.Machine.execHostRegisterWrite s
  | .unansweringPackageLost => Sys2Proof.Machine.execUnansweringPackageLost s

end Sys2Proof.Machine
end

