-- ==== Sys2Proof/Machine/Step.lean ====
section
/-!
DEFINITION. One step of the machine: the next piece of work of the present die-clock cycle, or the beginning of the next
cycle (log 2).
-/

namespace Sys2Proof.Machine

/-- One step. -/
def step (s : State) : Host.Outcome State Fault Refusal :=
  match s.take with
  | (t, some i) => exec i t
  | (t, none) => .next t

end Sys2Proof.Machine
end

