-- ==== Sys2Proof/Safety.lean ====
section
/-!
DEFINITION. The terms in which claims are stated: the canonical form of the memories, what a byte of the cistern reads
as, what it means that a state differs from another in its schedule only, and that two states agree on registers or on
memory.
-/

namespace Sys2Proof.Machine

/-! ### Memory -/

/-- Every memory and every map of stored errors is in canonical form: keys strictly rising, nothing listed that equals
what an unlisted key reads as. -/
def Mem.wf (m : Mem) : Bool :=
  SMap.wf 0 m.cistern && SMap.wf false m.pz && SMap.wf false m.nr && SMap.wf .ok m.ecc && SMap.wf .ok m.chk &&
    SMap.wf 0 m.hbm && SMap.wf false m.hbmPz && SMap.wf .ok m.hbmErr && SMap.wf 0 m.res && SMap.wf false m.resPz &&
    SMap.wf 0 m.host

/-- The byte of the cistern at an address of the package. -/
def State.byteAt (s : State) (a : Nat) : Byte := SMap.get 0 s.mem.cistern a

/-- The byte of the reservoir at an address. -/
def State.resAt (s : State) (a : Nat) : Byte := SMap.get 0 s.mem.res a

/-! ### What a step leaves alone -/

/-- The bundle of the running slot issues: its waits are over and its checks have passed. -/
def State.Issues (s : State) : Prop := s.die.issued = true

/-- `t` is `s` but for the steps in flight on the timeline of the running die, and the count that orders them. -/
def OnlyScheduled (s t : State) : Prop :=
  ∃ (ps : List Pend) (n : Nat), t = s.modCtx fun c => { c with pend := ps, seqNo := n }

/-- Every scalar register, predicate and handle of the running die is the same. -/
def SameRegs (s t : State) : Prop :=
  (∀ r, t.ctx.rs r = s.ctx.rs r) ∧ (∀ r, t.ctx.rp r = s.ctx.rp r) ∧ ∀ r, t.ctx.rh r = s.ctx.rh r

/-- The status and control registers of the running context are the same: rounding, flags, checks, trap registers, mode,
domain and counters. -/
def SameSpecial (s t : State) : Prop :=
  t.ctx.rm = s.ctx.rm ∧ t.ctx.fmtchk = s.ctx.fmtchk ∧ t.ctx.fpstat = s.ctx.fpstat ∧ t.ctx.check = s.ctx.check ∧
  t.ctx.win = s.ctx.win ∧ t.ctx.sumpst = s.ctx.sumpst ∧ t.ctx.trec = s.ctx.trec ∧ t.ctx.tepc = s.ctx.tepc ∧
  t.ctx.ppl = s.ctx.ppl ∧ t.ctx.inH = s.ctx.inH ∧ t.ctx.exw = s.ctx.exw ∧ t.ctx.tscr = s.ctx.tscr ∧
  t.ctx.tvec = s.ctx.tvec ∧ t.ctx.dbgen = s.ctx.dbgen ∧ t.ctx.domid = s.ctx.domid ∧ t.ctx.priv = s.ctx.priv ∧
  t.ctx.loops = s.ctx.loops ∧ t.ctx.ctr = s.ctx.ctr

/-- The vector registers, masks, carries, matrix arrays, streams and stencils of the running context are the same. -/
def SameBays (s t : State) : Prop := t.ctx.bay = s.ctx.bay

/-- Every byte of every memory reads the same. -/
def SameMem (s t : State) : Prop :=
  (∀ a, t.byteAt a = s.byteAt a) ∧ (∀ a, t.resAt a = s.resAt a) ∧
  (∀ a, SMap.get 0 t.mem.hbm a = SMap.get 0 s.mem.hbm a) ∧ ∀ a, SMap.get 0 t.mem.host a = SMap.get 0 s.mem.host a

/-- Every other die is the same. -/
def SameOtherDies (s t : State) : Prop := ∀ i, i ≠ s.cur → t.dieAt i = s.dieAt i

/-- `t` is `s` with one more step in flight, a result to land at the end of timeline cycle `n`, and nothing else: the steps
that were in flight stand before and after it as they stood. -/
def LandsAt (s t : State) (n : Nat) (r : Result) : Prop :=
  ∃ (p : Pend) (l l' : List Pend), s.ctx.pend = l ++ l' ∧ p.at_ = n ∧ p.instr = .timelineResultLanding r ∧ p.msg = .none ∧
    t = s.modCtx fun c => { c with pend := l ++ p :: l', seqNo := c.seqNo + 1 }

/-- What is compared of a step in flight: when it runs, what it is and what it carries. -/
def Pend.what (p : Pend) : Nat × Instr × Msg := (p.at_, p.instr, p.msg)

/-- The steps in flight on the running die are those of `s` and these, each due a number of timeline cycles after the present
one, and no others. -/
def Schedules (s t : State) (l : List (Nat × Instr)) : Prop :=
  (t.ctx.pend.map Pend.what).Perm (s.ctx.pend.map Pend.what ++ l.map fun x => (s.ctx.tl + x.1, x.2, Msg.none))

/-- A result that lands a number of timeline cycles on. -/
def landing (k : Nat) (r : Result) : Nat × Instr := (k, .timelineResultLanding r)

/-- The steps that a slot adds to those in flight are, bay by bay of those that it names, some that meet `r`, and no
others. -/
def BaysSchedule (s t : State) (bays : Bays) (r : BayIx → List (Nat × Instr) → Prop) : Prop :=
  ∃ g : BayIx → List (Nat × Instr), (∀ b : BayIx, bays.getLsbD b.val = true → r b (g b)) ∧
    Schedules s t ((baysOf bays).flatMap g)

/-- The instruction answers a next state, and this holds of it. -/
def Completes (i : Instr) (s : State) (P : State → Prop) : Prop := ∃ t, exec i s = .next t ∧ P t

/-- The instruction does nothing at once but have a scalar register written `lat` cycles on, with a value that meets `P`. -/
def GivesScalar (i : Instr) (s : State) (lat : Nat) (d : BitVec 6) (P : Word → Prop) : Prop :=
  ∃ v, P v ∧ Completes i s fun t => LandsAt s t (s.ctx.tl + lat - 1) (.sreg d v {})

/-- The instruction does nothing at once but have two predicates written one cycle on: the outcome of a test, and its
complement. -/
def GivesTest (i : Instr) (s : State) (pd pn : BitVec 4) (c : Prop) : Prop :=
  ∃ v : Bool, (v = true ↔ c) ∧ Completes i s fun t => ∃ u,
    LandsAt s u s.ctx.tl (.preg pd v {}) ∧ LandsAt u t s.ctx.tl (.preg pn (!v) {})

/-- The instruction does nothing at once but have this result land `lat` cycles on. -/
def GivesResult (i : Instr) (s : State) (lat : Nat) (r : Result) : Prop :=
  Completes i s fun t => LandsAt s t (s.ctx.tl + lat - 1) r

/-- The accesses named, in this order, join the load queue and the store queue; the performance of each is due on the die,
and no register, no special register and no byte of memory changes. -/
def Queues (i : Instr) (s : State) (ld st : List MemOp) : Prop :=
  Completes i s fun t =>
    t.ctx.ldq = s.ctx.ldq ++ ld ∧ t.ctx.stq = s.ctx.stq ++ st ∧
    (ld ≠ [] → ∃ x ∈ t.timers, x.task = ⟨s.cur, .instr .queuedLoadPerform .none⟩ ∧ s.now < x.at_) ∧
    (st ≠ [] → ∃ x ∈ t.timers, x.task = ⟨s.cur, .instr .queuedStorePerform .none⟩ ∧ s.now < x.at_) ∧
    SameRegs s t ∧ SameSpecial s t ∧ SameBays s t ∧ SameMem s t ∧ SameOtherDies s t

/-! ### Slots of the bays -/

/-- A result is due to land at the end of a timeline cycle. -/
def Lands (t : State) (n : Nat) (r : Result) : Prop := ∃ p ∈ t.ctx.pend, p.at_ = n ∧ p.instr = .timelineResultLanding r

/-- `t` is `s` but for steps added to those in flight, and the streams of the bays: no register, special register or byte of
memory changes, and of a bay only its streams. -/
def OnlyStreams (s t : State) : Prop :=
  t.cur = s.cur ∧ t.ctx.tl = s.ctx.tl ∧ SameRegs s t ∧ SameSpecial s t ∧ SameMem s t ∧ SameOtherDies s t ∧ (∀ x ∈ s.ctx.pend, x ∈ t.ctx.pend) ∧
  ∀ b, { t.bayAt b with q := (s.bayAt b).q } = s.bayAt b

/-- Of the streams of the bays that a slot names, one that it consumes once loses its head, one that it produces passes to
its next entry, and every other one stays as it was; those of the other bays all stay. -/
def StreamsMoved (n : Names) (s t : State) : Prop :=
  ∀ (b : BayIx) (q : Nat), q < 32 →
    let x := (s.bayAt b).str q
    let eats := n.eat.countP fun e => e.1 == q
    let makes := n.make.countP fun e => e.2.1 == q
    (n.bays.getLsbD b.val = false ∨ eats = 0 ∧ makes = 0 → (t.bayAt b).str q = x) ∧
    (n.bays.getLsbD b.val = true → eats = 1 → makes = 0 → (t.bayAt b).str q = { x with queue := x.queue.drop 1, slip := 0 }) ∧
    (n.bays.getLsbD b.val = true → eats = 0 → makes = 1 → (t.bayAt b).str q = x.advance)

/-- The slot adds these steps to those in flight, bay by bay of those that it names, and changes nothing else at once but the
streams that it consumes or produces; one that names no stream changes nothing in the bays. -/
def GivesInBays (i : Instr) (s : State) (bays : Bays) (r : BayIx → List (Nat × Instr) → Prop) : Prop :=
  Completes i s fun t => OnlyStreams s t ∧ StreamsMoved (slotNames i) s t ∧
    ((slotNames i).eat = [] → (slotNames i).make = [] → SameBays s t) ∧ BaysSchedule s t bays r

/-- The slot has one result land in each bay that it names, `lat` cycles on, and does nothing else. -/
def GivesOneInBays (i : Instr) (s : State) (bays : Bays) (lat : Nat) (r : BayIx → Result → Prop) : Prop :=
  GivesInBays i s bays fun b l => ∃ x, r b x ∧ l = [landing (lat - 1) x]

/-- The operand-file registers that last reads of source fields free, at the end of the cycle (R60). -/
def freed (b : BayIx) (src : List (BitVec 8)) : List (Nat × Instr) :=
  if lastReads src = 0 then [] else [landing 0 (.freeO b (lastReads src))]

/-- As `OnlyStreams`, with the matrix arrays of the bays left open too. -/
def OnlyMatrix (s t : State) : Prop :=
  t.cur = s.cur ∧ t.ctx.tl = s.ctx.tl ∧ SameRegs s t ∧ SameSpecial s t ∧ SameMem s t ∧ SameOtherDies s t ∧
  (∀ x ∈ s.ctx.pend, x ∈ t.ctx.pend) ∧
  ∀ b, { t.bayAt b with q := (s.bayAt b).q, mxu := (s.bayAt b).mxu } = s.bayAt b

/-- A step is due at the end of a timeline cycle. -/
def DueAt (t : State) (n : Nat) (i : Instr) : Prop := ∃ p ∈ t.ctx.pend, p.at_ = n ∧ p.instr = i

/-- The steps of a beat-port slot in a bay: what it records at issue, and when its products land (R174, R185). -/
def beatStep (s : State) (b : BayIx) (tsel : Nat) (a c : List Lane) (hold : Bool) : MxStep :=
  let m := (s.bayAt b).mxu
  { bay := b, bank := m.act, fa := m.fa, fb := m.fb, tsel := tsel, a := a, b := c,
    f64 := if m.fa = 11 ∧ m.gpos = 63 then some (operands64 m.xa, operands64 m.xb) else none, hold := hold }

/-- A beat-port step in mode FP64 moves on in its group, and gathers the pieces of the first four (R185). -/
def Gathers (m m' : Mxu) (a c : List Lane) : Prop :=
  m.fa = 11 → m'.gpos = (m.gpos + 1) % 64 ∧
    (m.gpos ≤ 3 → m'.xa = putPiece m.xa m.gpos a ∧ m'.xb = putPiece m.xb m.gpos c) ∧
    (3 < m.gpos → m'.xa = m.xa ∧ m'.xb = m.xb)

/-- Of the bays, only the matrix array of one bay differs; no register but the flags, and no byte of memory. -/
def OnlyMxu (s t : State) (b : BayIx) : Prop :=
  t.cur = s.cur ∧ SameRegs s t ∧ t.mem = s.mem ∧ SameOtherDies s t ∧
  (∀ b', b' ≠ b → t.bayAt b' = s.bayAt b') ∧ { t.bayAt b with mxu := (s.bayAt b).mxu } = s.bayAt b

/-- Of the bays, only stream `q` of one bay differs, which is now `x`; no register and no byte of memory. -/
def OnlyStream (s t : State) (b : BayIx) (q : Nat) (x : Stream) : Prop :=
  t.cur = s.cur ∧ SameRegs s t ∧ SameSpecial s t ∧ t.mem = s.mem ∧ SameOtherDies s t ∧ (t.bayAt b).str q = x ∧
  (∀ q', q' < 32 → q' ≠ q → (t.bayAt b).str q' = (s.bayAt b).str q') ∧
  (∀ b', b' ≠ b → t.bayAt b' = s.bayAt b') ∧ { t.bayAt b with q := (s.bayAt b).q } = s.bayAt b

/-! ### Pours -/

/-- A step in flight is the pour of one timeline cycle in one bay. -/
def isPourAt (n : Nat) (b : BayIx) (p : Pend) : Bool :=
  match p.instr with
  | .pourBankWrite q => p.at_ == n && q.bay == b
  | _ => false

/-- The lanes that a bay has presented for one timeline cycle. -/
def poursAt (s : State) (n : Nat) (b : BayIx) : List PourLane :=
  s.ctx.pend.flatMap fun p => match p.instr with
    | .pourBankWrite q => if p.at_ = n ∧ q.bay = b then q.lanes else []
    | _ => []

/-- The lanes with their valid bit of an entry, for the banks and the word that were reserved (R100, R201). -/
def entryLanes (lane0 : Nat) (r : Resv) (lanes : List Lane) (valid : List Bool) : List PourLane :=
  ((lanes.zip valid).zipIdx.filter fun x => x.1.2).map fun x =>
    { lane := lane0 + x.2, v := x.1.1, banks := some (r.bank0, r.nbk), word := r.word }

/-- An entry is presented to the sluice: its lanes reach the banks six cycles on, with those that the bay presents in the same
cycle and under the stencil of the cycle (R25, R108); every other step in flight is as it was, and nothing else changes. -/
def Presents (s t : State) (lane0 : Nat) (r : Resv) (lanes : List Lane) (valid : List Bool) : Prop :=
  let n := s.ctx.tl + 6
  OnlyScheduled s t ∧ (poursAt t n r.bay).Perm (poursAt s n r.bay ++ entryLanes lane0 r lanes valid) ∧
  (t.ctx.pend.filter fun p => !isPourAt n r.bay p) = (s.ctx.pend.filter fun p => !isPourAt n r.bay p) ∧
  (s.ctx.pend.all (fun p => !isPourAt n r.bay p) = true → ∀ p ∈ t.ctx.pend, isPourAt n r.bay p = true →
    p.instr = .pourBankWrite ⟨r.bay, (s.bayAt r.bay).stencil (128 + s.die.pstn), entryLanes lane0 r lanes valid⟩)

/-- The accumulators, partial sums and edge registers of a matrix array are the same. -/
def SameArray (m m' : Mxu) : Prop :=
  m'.acca = m.acca ∧ m'.accb = m.accb ∧ m'.p = m.p ∧ m'.pf = m.pf ∧ m'.ea = m.ea ∧ m'.eb = m.eb ∧ m'.fa = m.fa ∧
  m'.fb = m.fb ∧ m'.act = m.act ∧ m'.stepA = m.stepA ∧ m'.stepB = m.stepB

/-- The result of a vector slot in bay `b`, `lat` cycles on: the lanes that MSEL enables are written, the flags are those of
the enabled lanes (R151), and the pairs of value and flags meet `P`. A stream destination is presented one cycle later, as
the entry that stands next, and the flags are set then (R150, R51). -/
def vecResult (s : State) (u : VUnit) (lat : Nat) (d : BitVec 8) (msel : BitVec 3) (src : List (BitVec 8))
    (P : BayIx → List (Word32 × Flags) → Prop) (b : BayIx) (r : List (Nat × Instr)) : Prop :=
  ∃ l, P b l ∧
    let en := s.enabled b msel
    let vs := l.map Prod.fst
    let f := laneFlags en l
    r = (match fieldStream d with
      | none => [landing (lat - 1) (.vec b u (vecDst d) vs en f)]
      | some q =>
        let x := (s.bayAt b).str q
        [landing (lat - 1) (.vec b u (vecDst d) vs en {}),
          landing lat (.present b 0 (lanes32 vs) (pairValid en) (some ⟨b, q, x.bank0, x.nbk, x.word⟩) f)]) ++ freed b src

/-- Each lane meets a relation with one, two or three source lanes. -/
def lanes1 (s : State) (a : BitVec 8) (P : Word32 → Word32 → Flags → Prop) (b : BayIx) (l : List (Word32 × Flags)) : Prop :=
  l.length = (s.vField b a).length ∧
  ∀ (k : Nat) (x : Word32), (s.vField b a)[k]? = some x → ∃ v f, l[k]? = some (v, f) ∧ P x v f

def lanes2 (s : State) (a a' : BitVec 8) (P : Word32 → Word32 → Word32 → Flags → Prop) (b : BayIx)
    (l : List (Word32 × Flags)) : Prop :=
  l.length = min (s.vField b a).length (s.vField b a').length ∧
  ∀ (k : Nat) (x y : Word32), (s.vField b a)[k]? = some x → (s.vField b a')[k]? = some y →
    ∃ v f, l[k]? = some (v, f) ∧ P x y v f

def lanes3 (s : State) (a a' a'' : BitVec 8) (P : Word32 → Word32 → Word32 → Word32 → Flags → Prop) (b : BayIx)
    (l : List (Word32 × Flags)) : Prop :=
  l.length = min (min (s.vField b a).length (s.vField b a').length) (s.vField b a'').length ∧
  ∀ (k : Nat) (x y z : Word32), (s.vField b a)[k]? = some x → (s.vField b a')[k]? = some y →
    (s.vField b a'')[k]? = some z → ∃ v f, l[k]? = some (v, f) ∧ P x y z v f

/-- An INT32 lane of R153: with SAT the exact value clipped to the range, and SA when it was clipped; without it the value
modulo 2^32, and no flag. -/
def intLane (sat : Bool) (n : Int) (v : Word32) (f : Flags) : Prop :=
  if sat = true then v.toInt = max (-2147483648) (min 2147483647 n) ∧ f = { sa := decide (n ≠ v.toInt) }
  else v = .ofInt 32 n ∧ f = {}

/-- An arithmetic lane of R153: VT 3 is INT32, the other types are floating point. -/
def arithLane (o : VOp) (n : Int) (fp : Word32 × Flags) (v : Word32) (f : Flags) : Prop :=
  if o.vt = 3 then intLane (o.rnd.getLsbD 2) n v f else (v, f) = fp

/-- The effective address of R134: the low 32 bits of the sum of base and offset. -/
def accessAddr (base : Word) (off : BitVec 24) : Nat := ((base.toInt + off.toInt) % 2 ^ 32).toNat

/-- A hoist-table entry is that of an access: its register, its address and its size (R145). -/
def Hoist.isOf (e : Hoist) (o : MemOp) : Prop := e.d = o.dst ∧ e.ea = o.ea ∧ 2 ^ e.size = o.size

/-- A `CHK` at the head of the load queue loads again: no get is in flight and the hoist table has no entry of it. -/
def State.reloads (s : State) (o : MemOp) : Prop := o.kind = .chk ∧ s.ctx.gets = [] ∧ ∀ e ∈ s.ctx.hoist, ¬ e.isOf o

/-- The destination of a load is no longer pending; the pending bit of every other register is as it was. -/
def Unpended (s t : State) (o : MemOp) : Prop :=
  (∀ r, t.ctx.pendS.getLsbD r = (s.ctx.pendS.getLsbD r && !(decide (o.kind ≠ .hld) && decide (r = o.dst)))) ∧
  ∀ r, t.ctx.pendH.getLsbD r = (s.ctx.pendH.getLsbD r && !(decide (o.kind = .hld) && decide (r = o.dst)))

/-- The destination of a load holds the value `v`, extended as the access says (R137); every other register is as it was. -/
def LoadsValue (s t : State) (o : MemOp) (v : Nat) : Prop :=
  (∀ r : BitVec 6, t.ctx.rs r = if o.kind ≠ .hld ∧ r.toNat = o.dst % 64 ∧ r ≠ 0 then
    .ofInt 64 (if o.uns = true ∨ o.size = 8 then (v : Int) else sextNat v (8 * o.size)) else s.ctx.rs r) ∧
  (∀ r : BitVec 4, t.ctx.rh r = if o.kind = .hld ∧ r.toNat = o.dst % 16 then .ofNat 256 v else s.ctx.rh r) ∧
  ∀ r, t.ctx.rp r = s.ctx.rp r

/-- The hoist table after the write of a load's destination: a write of s[D] removes the entry of s[D], but that of a
`CHK` does not (R144). -/
def hoistKept (l : List Hoist) (o : MemOp) : List Hoist :=
  if o.kind = .hld ∨ o.kind = .chk then l else l.filter fun e => e.d != o.dst % 64

/-- The hoist table after a local `LDS` performs: its entry replaces that of its register, or the oldest of 16 (R143). -/
def hoisted (l : List Hoist) (o : MemOp) : List Hoist :=
  let l := l.filter fun e => e.d != o.dst
  (if 16 ≤ l.length then l.drop 1 else l) ++ [⟨o.dst, o.ea, Nat.log2 o.size⟩]

/-- An engine's write lands on these bytes of the cistern, from address `a` on, and on no other byte. -/
def WritesBytes (s t : State) (a : Nat) (bs : List Byte) : Prop :=
  ∀ x, t.byteAt x = if a ≤ x ∧ x < a + bs.length then bs.getD (x - a) 0 else s.byteAt x

/-- The memories are in canonical form, and no shadow nor freed set takes an engine's write to an address (R250, R251). -/
def State.plainAt (s : State) (a : Nat) : Prop :=
  s.mem.wf = true ∧ (s.dieAt (adDie a)).shadowOf (granule a) = none

/-- A request of a domain has its completion word (R213): value and status, or, where the word is not mapped on the die, the
die's engine error bit. -/
def Reports (s t : State) (dom caddr : Nat) (val : Word) (status : Nat) : Prop :=
  if s.completes dom caddr = true
  then WritesBytes s t (caddr / 16 * 16) (natBytes val.toNat 8 ++ natBytes status 8)
  else t.die.engErr = true ∧ ∀ x, t.byteAt x = s.byteAt x

/-- A write to an open physical row begins: of the memories, a dead row becomes one of zeros (R293), and a live row stays as
it is. -/
def RowRevived (s t : State) (bank row : Nat) (dead : Bool) : Prop :=
  t.mem.cistern = s.mem.cistern ∧ t.mem.res = s.mem.res ∧ t.mem.host = s.mem.host ∧ (dead = false → t.mem = s.mem) ∧
  (dead = true → SMap.wf 0 s.mem.hbm = true → ∀ k, SMap.get 0 t.mem.hbm k =
    if hbmKey s.cur.val bank row 0 ≤ k ∧ k < hbmKey s.cur.val bank row 0 + 1024 then 0 else SMap.get 0 s.mem.hbm k)

/-- The task of an event of the current die comes `n` die-clock cycles from now. -/
def ComesAfter (s t : State) (n : Nat) (i : Instr) (m : Msg) : Prop :=
  ∃ x ∈ t.timers, x.at_ = s.now + n ∧ x.task = ⟨s.cur, .instr i m⟩

/-- The task of an event of the current die comes at some later time. -/
def ComesLater (s t : State) (i : Instr) (m : Msg) : Prop :=
  ∃ x ∈ t.timers, s.now < x.at_ ∧ x.task = ⟨s.cur, .instr i m⟩

/-- A word of the cistern has no stored error, no poison, and a bank that is not lost. -/
def State.soundWord (s : State) (wa : Nat) : Prop :=
  s.uncorr wa = false ∧ SMap.get .ok s.mem.ecc wa = .ok ∧ SMap.get false s.mem.pz wa = false

end Sys2Proof.Machine
end

