-- ==== Sys2Proof/Certificates/Slice0/Obligations.lean ====
section
/-!
DEFINITION. The statements for the provers. A slot is stated for a bundle that issues (`State.Issues`): its waits are over
and its checks have passed, which statements of their own cover.
-/

open Sys2Proof Sys2Proof.Machine

/-! ### Scalar, predicate and handle slots -/

/-- R126 and R127: the register forms and the immediate forms. -/
def Obligations.IntegerSlotsGiveTheirResult : Prop :=
  ∀ (s : State) (d a b : BitVec 6) (p : BitVec 4) (imm : BitVec 28) (n : BitVec 6) (q : BitVec 2) (x : BitVec 16), s.Issues →
    GivesScalar (.add d a b) s 1 d (fun v => v.toNat = ((s.rs a).toNat + (s.rs b).toNat) % 2 ^ 64) ∧
    GivesScalar (.sub d a b) s 1 d (fun v => (v.toNat + (s.rs b).toNat) % 2 ^ 64 = (s.rs a).toNat) ∧
    GivesScalar (.and d a b) s 1 d (fun v => ∀ i, v.getLsbD i = ((s.rs a).getLsbD i && (s.rs b).getLsbD i)) ∧
    GivesScalar (.or d a b) s 1 d (fun v => ∀ i, v.getLsbD i = ((s.rs a).getLsbD i || (s.rs b).getLsbD i)) ∧
    GivesScalar (.xor d a b) s 1 d (fun v => ∀ i, v.getLsbD i = ((s.rs a).getLsbD i != (s.rs b).getLsbD i)) ∧
    GivesScalar (.andn d a b) s 1 d (fun v => ∀ i, v.getLsbD i = ((s.rs a).getLsbD i && !(s.rs b).getLsbD i)) ∧
    GivesScalar (.shl d a b) s 1 d (fun v => v.toNat = (s.rs a).toNat * 2 ^ ((s.rs b).toNat % 64) % 2 ^ 64) ∧
    GivesScalar (.shr d a b) s 1 d (fun v => v.toNat = (s.rs a).toNat / 2 ^ ((s.rs b).toNat % 64)) ∧
    GivesScalar (.sar d a b) s 1 d (fun v => v.toInt = (s.rs a).toInt / 2 ^ ((s.rs b).toNat % 64)) ∧
    GivesScalar (.min d a b) s 1 d (fun v => v.toInt = min (s.rs a).toInt (s.rs b).toInt) ∧
    GivesScalar (.max d a b) s 1 d (fun v => v.toInt = max (s.rs a).toInt (s.rs b).toInt) ∧
    GivesScalar (.minu d a b) s 1 d (fun v => v.toNat = min (s.rs a).toNat (s.rs b).toNat) ∧
    GivesScalar (.maxu d a b) s 1 d (fun v => v.toNat = max (s.rs a).toNat (s.rs b).toNat) ∧
    GivesScalar (.clz d a) s 1 d (fun v => v.toNat ≤ 64 ∧ (s.rs a).toNat < 2 ^ (64 - v.toNat) ∧
      (if s.rs a = 0 then v.toNat = 64 else 2 ^ (63 - v.toNat) ≤ (s.rs a).toNat)) ∧
    GivesScalar (.popc d a) s 1 d (fun v =>
      v.toNat = (Finset.univ.filter fun i : Fin 64 => (s.rs a).getLsbD i.val = true).card) ∧
    GivesScalar (.sel d a b p) s 1 d (fun v => v = if s.ctx.rp p = true then s.rs a else s.rs b) ∧
    GivesScalar (.addi d a imm) s 1 d (fun v => ((s.rs a).toInt + imm.toInt - v.toInt) % 2 ^ 64 = 0) ∧
    GivesScalar (.andi d a imm) s 1 d
      (fun v => ∀ i, i < 64 → v.getLsbD i = ((s.rs a).getLsbD i && imm.getLsbD (min i 27))) ∧
    GivesScalar (.ori d a imm) s 1 d
      (fun v => ∀ i, i < 64 → v.getLsbD i = ((s.rs a).getLsbD i || imm.getLsbD (min i 27))) ∧
    GivesScalar (.xori d a imm) s 1 d
      (fun v => ∀ i, i < 64 → v.getLsbD i = ((s.rs a).getLsbD i != imm.getLsbD (min i 27))) ∧
    GivesScalar (.shli d a n) s 1 d (fun v => v.toNat = (s.rs a).toNat * 2 ^ n.toNat % 2 ^ 64) ∧
    GivesScalar (.shri d a n) s 1 d (fun v => v.toNat = (s.rs a).toNat / 2 ^ n.toNat) ∧
    GivesScalar (.sari d a n) s 1 d (fun v => v.toInt = (s.rs a).toInt / 2 ^ n.toNat) ∧
    GivesScalar (.movi d imm) s 1 d (fun v => v.toInt = imm.toInt) ∧
    GivesScalar (.movhi d a q x) s 1 d (fun v => ∀ i, i < 64 →
      v.getLsbD i = if i / 16 = q.toNat then x.getLsbD (i % 16) else (s.rs a).getLsbD i)

/-- R128: the multiplies: their layout, port, latency and results. -/
def Obligations.MultipliesGiveTheirProduct : Prop :=
  (∀ (s : State) (d a b : BitVec 6), s.Issues →
    GivesScalar (.mul d a b) s 3 d (fun v => v.toNat = (s.rs a).toNat * (s.rs b).toNat % 2 ^ 64) ∧
    GivesScalar (.mulh d a b) s 3 d (fun v => v.toInt = (s.rs a).toInt * (s.rs b).toInt / 2 ^ 64) ∧
    GivesScalar (.mulhu d a b) s 3 d (fun v => v.toNat = (s.rs a).toNat * (s.rs b).toNat / 2 ^ 64)) ∧
  ∀ (d a b : BitVec 6) (p : BitVec 4), ∀ x ∈ [(Instr.mul d a b, 0x20), (.mulh d a b, 0x21), (.mulhu d a b, 0x22)],
    let w := 2 ^ 61 + x.2 * 2 ^ 40 + d.toNat * 2 ^ 34 + a.toNat * 2 ^ 28 + b.toNat * 2 ^ 22
    (slotNames x.1).ports = [.mul] ∧ decodeSlot w = .ok x.1 ∧ (p ≠ 0 → ∀ i, decodeSlot (w + p.toNat * 2 ^ 18) ≠ .ok i)

/-- R129: the compares: results, port, layouts, and which of their encodings are legal; a write of p0 has no effect. -/
def Obligations.ComparesGiveTheTestAndItsComplement : Prop :=
  (∀ (s : State) (pd pn : BitVec 4) (a b : BitVec 6) (imm : BitVec 24), s.Issues →
    GivesTest (.cmpEq pd a b pn) s pd pn (s.rs a = s.rs b) ∧
    GivesTest (.cmpNe pd a b pn) s pd pn (s.rs a ≠ s.rs b) ∧
    GivesTest (.cmpLt pd a b pn) s pd pn ((s.rs a).toInt < (s.rs b).toInt) ∧
    GivesTest (.cmpLtu pd a b pn) s pd pn ((s.rs a).toNat < (s.rs b).toNat) ∧
    GivesTest (.cmpLe pd a b pn) s pd pn ((s.rs a).toInt ≤ (s.rs b).toInt) ∧
    GivesTest (.cmpLeu pd a b pn) s pd pn ((s.rs a).toNat ≤ (s.rs b).toNat) ∧
    GivesTest (.cmpiEq pd a pn imm) s pd pn ((s.rs a).toInt = imm.toInt) ∧
    GivesTest (.cmpiLt pd a pn imm) s pd pn ((s.rs a).toInt < imm.toInt)) ∧
  (∀ (pd pn : BitVec 4) (a b : BitVec 6) (imm : BitVec 24),
    let r := 2 ^ 61 + pd.toNat * 2 ^ 34 + a.toNat * 2 ^ 28
    ∀ x ∈ [(Instr.cmpEq pd a b pn, 0x30 * 2 ^ 40 + b.toNat * 2 ^ 22 + pn.toNat * 2 ^ 18),
        (.cmpNe pd a b pn, 0x31 * 2 ^ 40 + b.toNat * 2 ^ 22 + pn.toNat * 2 ^ 18),
        (.cmpLt pd a b pn, 0x32 * 2 ^ 40 + b.toNat * 2 ^ 22 + pn.toNat * 2 ^ 18),
        (.cmpLtu pd a b pn, 0x33 * 2 ^ 40 + b.toNat * 2 ^ 22 + pn.toNat * 2 ^ 18),
        (.cmpLe pd a b pn, 0x34 * 2 ^ 40 + b.toNat * 2 ^ 22 + pn.toNat * 2 ^ 18),
        (.cmpLeu pd a b pn, 0x35 * 2 ^ 40 + b.toNat * 2 ^ 22 + pn.toNat * 2 ^ 18),
        (.cmpiEq pd a pn imm, 0x36 * 2 ^ 40 + pn.toNat * 2 ^ 24 + imm.toNat),
        (.cmpiLt pd a pn imm, 0x37 * 2 ^ 40 + pn.toNat * 2 ^ 24 + imm.toNat)],
      (slotNames x.1).ports = [.alu] ∧ (pd ≠ pn ∨ pd = 0 → decodeSlot (r + x.2) = .ok x.1) ∧
      (pd = pn → pd ≠ 0 → ∀ i, decodeSlot (r + x.2) ≠ .ok i)) ∧
  ∀ (c : Ctx) (v : Bool), c.wp 0 v = c

/-- R130 and R148: predicate slots and the moves of handle fields. -/
def Obligations.PredicateAndHandleSlotsGiveTheirResult : Prop :=
  ∀ (s : State) (o : POp) (d a b : BitVec 6) (hd ha : BitVec 4) (f : BitVec 5), s.Issues → f.toNat ≤ 19 →
    GivesResult (.pand o) s 1 (.preg o.pd ((s.ctx.rp o.pa != o.na) && (s.ctx.rp o.pb != o.nb)) {}) ∧
    GivesResult (.por o) s 1 (.preg o.pd ((s.ctx.rp o.pa != o.na) || (s.ctx.rp o.pb != o.nb)) {}) ∧
    GivesResult (.pxor o) s 1 (.preg o.pd ((s.ctx.rp o.pa != o.na) != (s.ctx.rp o.pb != o.nb)) {}) ∧
    GivesResult (.pandn o) s 1 (.preg o.pd ((s.ctx.rp o.pa != o.na) && !(s.ctx.rp o.pb != o.nb)) {}) ∧
    GivesScalar (.pmovsToScalar d) s 1 d (fun v =>
      ∀ i, v.getLsbD i = (decide (i < 16) && s.ctx.rp (.ofNat 4 i))) ∧
    (∃ v : BitVec 16, (∀ i, i < 16 → v.getLsbD i = (s.rs a).getLsbD i) ∧
      GivesResult (.pmovsFromScalar a) s 1 (.preds v)) ∧
    GivesScalar (.hget d ha f) s 1 d (fun v => ∀ i, v.getLsbD i =
      (decide (i < (handleField f).2) && (s.ctx.rh ha).getLsbD ((handleField f).1 + i))) ∧
    (∃ v : Handle, (∀ i, i < 256 → v.getLsbD i =
        if (handleField f).1 ≤ i ∧ i < (handleField f).1 + (handleField f).2
        then (s.rs b).getLsbD (i - (handleField f).1) else (s.ctx.rh ha).getLsbD i) ∧
      GivesResult (.hset hd ha b f) s 1 (.hreg hd v)) ∧
    GivesResult (.hmov hd ha) s 1 (.hreg hd (s.ctx.rh ha))

/-- R131 to R133: scalar floating point; a conversion of a format to itself returns the code, a NaN included, and sets no
flag. The operands are 32 or 64 bits of the registers as PREC says, the arithmetic is that of R38, R39, R41 and R43, and
the flags travel with the result; a compare gives the test of R132 with its flag, and a conversion the code of TF, an INT32
result sign-extended. -/
def Obligations.ScalarFloatSlotsGiveResultAndFlags : Prop :=
  ∀ (s : State) (o : FOp), s.Issues →
    let f := if o.prec then fp64 else fp32
    let x := fun r => if o.prec then (s.rs r).toNat else (s.rs r).toNat % 2 ^ 32
    let m := s.rmode o.rnd.toNat
    let gives := fun (i : Instr) (y : Nat × Flags) => GivesResult i s 4 (.sreg o.d (.ofNat 64 y.1) y.2)
    let test := fpCmp f (fcondOf o.cond) (x o.a) (x o.b)
    let code := cvt o.sf.toNat o.tf.toNat m o.sat (if o.sf = 11 then (s.rs o.a).toNat else (s.rs o.a).toNat % 2 ^ 32)
    gives (.fadd o) (fpAdd f m (x o.a) (x o.b)) ∧
    gives (.fsub o) (fpSub f m (x o.a) (x o.b)) ∧
    gives (.fmul o) (fpMul f m (x o.a) (x o.b)) ∧
    gives (.ffma o) (fpFma f m false false (x o.a) (x o.b) (x o.c)) ∧
    gives (.fmin o) (fpMinMax f false (x o.a) (x o.b)) ∧
    gives (.fmax o) (fpMinMax f true (x o.a) (x o.b)) ∧
    GivesResult (.fcmp o) s 2 (.preg (o.d.setWidth 4) test.1 { iv := test.2 }) ∧
    (test.1 = true → o.cond.toNat ≤ 2 → isNan f (x o.a) = false ∧ isNan f (x o.b) = false) ∧
    (test.2 = true → isNan f (x o.a) = true ∨ isNan f (x o.b) = true) ∧
    gives (.fcvt o) (if o.tf = 9 then ((BitVec.ofNat 32 code.1).signExtend 64).toNat else code.1, code.2) ∧
    (o.sf = o.tf → o.sf = 0 → gives (.fcvt o) ((s.rs o.a).toNat % 2 ^ 32, {})) ∧
    (o.sf = o.tf → o.sf = 11 → gives (.fcvt o) ((s.rs o.a).toNat, {})) ∧
    (o.sf = o.tf → o.sf = 9 → GivesScalar (.fcvt o) s 4 o.d (fun v => v.toInt = ((s.rs o.a).setWidth 32).toInt))

/-- R134, R137, R138, R142 and R148: at issue an access only joins its queue, with its address and what it stores; from then
on the destination of a load is pending (R69), s0 never. -/
def Obligations.AccessesJoinTheirQueue : Prop :=
  (∀ (s : State) (o : MOp) (v a : BitVec 6) (h : BitVec 4) (off : BitVec 24), s.Issues →
     let n := 2 ^ o.size.toNat
     let op := fun (k : MemKind) (dst ea size : Nat) (u : Bool) (data seq : Nat) =>
       ({ kind := k, dst := dst, ea := ea, size := size, uns := u, data := data, seq := seq, handler := s.ctx.inH,
          lvl := s.ctx.priv, ready := 0 } : MemOp)
     let ea := accessAddr (s.rs o.a) o.off
     Queues (.ld o) s [op .ld o.d.toNat ea n o.u 0 s.ctx.seqNo] [] ∧
     Queues (.lds o) s [op .lds o.d.toNat ea n o.u 0 s.ctx.seqNo] [] ∧
     Queues (.chk o) s [op .chk o.d.toNat ea n o.u 0 s.ctx.seqNo] [] ∧
     Queues (.hld h a off) s [op .hld h.toNat (accessAddr (s.rs a) off) 32 false 0 s.ctx.seqNo] [] ∧
     Queues (.st o) s [] [op .st 0 ea n false ((s.rs o.d).toNat % 2 ^ (8 * n)) s.ctx.seqNo] ∧
     Queues (.signal v a off) s []
       [op .signal 0 (accessAddr (s.rs a) off) 8 false (s.rs v).toNat s.ctx.seqNo] ∧
     Queues (.hst h a off) s [] [op .hst 0 (accessAddr (s.rs a) off) 32 false (s.ctx.rh h).toNat s.ctx.seqNo] ∧
     Queues .mark s [op .mark 0 0 1 false 0 s.ctx.seqNo] [op .mark 0 0 1 false 0 (s.ctx.seqNo + 1)]) ∧
  (∀ (s : State) (o : MOp) (h : BitVec 4) (a : BitVec 6) (off : BitVec 24) (i : Instr), s.Issues →
     (i = .ld o ∨ i = .lds o ∨ i = .chk o → Completes i s fun t =>
       ∀ r : BitVec 6, t.ctx.pendS.getLsbD r.toNat = (s.ctx.pendS.getLsbD r.toNat || (decide (r = o.d) && decide (r ≠ 0)))) ∧
     Completes (.hld h a off) s fun t =>
       ∀ r : BitVec 4, t.ctx.pendH.getLsbD r.toNat = (s.ctx.pendH.getLsbD r.toNat || decide (r = h)))

/-! ### The scalar queues and the message link -/

/-- R137, R143, R145 and R148: the load at the head of the queue, of words of the die that may be read, are sound and have
their side ports free, performs: it leaves the queue, its destination holds the bytes at its address and is no longer
pending, and no other register and no byte of memory changes; a result issued before it that lands in the same cycle leaves
its value (R68), and a local `LDS` makes its hoist-table entry. A `CHK` whose entry the hoist table holds only removes the
entry and ends the wait of its destination; it first waits for the gets in flight. -/
def Obligations.LocalLoadWritesItsDestination : Prop :=
  (∀ (s : State) (o : MemOp) (rest : List MemOp), s.ctx.ldq = o :: rest →
    o.kind = .ld ∨ o.kind = .lds ∨ o.kind = .hld ∨ s.reloads o →
    s.accessCause o false = none → adDie o.ea = s.cur → (granMode (s.mem.entryOf o.ea) = 2 → s.ctx.storeAhead o = false) →
    s.sideDelay o.ready (opWords o) (opWords o) = none → (∀ w ∈ opWords o, s.soundWord w) →
    Completes .queuedLoadPerform s fun t =>
      t.ctx.ldq = rest ∧ LoadsValue s t o (bytesNat (rdBytes s.mem.cistern (accAddr o) o.size)) ∧ Unpended s t o ∧
      t.ctx.hoist = (if o.kind = .lds ∧ o.dst ≠ 0 then hoisted (hoistKept s.ctx.hoist o) o else hoistKept s.ctx.hoist o) ∧
      t.ctx.pend = (if o.kind = .hld ∨ s.die.adv = false then s.ctx.pend
        else s.ctx.pend.map fun p => if p.at_ ≤ s.ctx.tl then p.without o.dst else p) ∧
      t.ctx.due = s.ctx.due ∧ t.ctx.failed = s.ctx.failed ∧
      SameSpecial s t ∧ SameBays s t ∧ t.mem = s.mem ∧ SameOtherDies s t) ∧
  (∀ (s : State) (o : MemOp) (rest : List MemOp), s.ctx.ldq = o :: rest → o.kind = .chk → s.ctx.gets = [] →
    (∃ e ∈ s.ctx.hoist, e.isOf o) → Completes .queuedLoadPerform s fun t =>
      t.ctx.ldq = rest ∧ Unpended s t o ∧ (∀ e, e ∈ t.ctx.hoist ↔ e ∈ s.ctx.hoist ∧ ¬ e.isOf o) ∧
      t.ctx.due = s.ctx.due ∧ t.ctx.failed = s.ctx.failed ∧ t.ctx.pend = s.ctx.pend ∧
      SameRegs s t ∧ SameSpecial s t ∧ SameBays s t ∧ t.mem = s.mem ∧ SameOtherDies s t) ∧
  ∀ (s : State) (o : MemOp) (rest : List MemOp), s.ctx.ldq = o :: rest → o.kind = .chk → s.ctx.gets ≠ [] →
    Completes .queuedLoadPerform s fun t => t = s.after 1 .queuedLoadPerform

/-- R135 and R138: an access that fails its checks has no effect but its report, with its address: a load leaves its
destination unwritten and marks it with the cause; one into s0 makes the trap due on the next bundle. `LDS` writes zero
instead (R143). A store that fails its checks writes nothing, and its trap falls due on the next bundle. The cause is 0x0D
where the address lies outside the cistern, and 0x0F where it names a lost die. -/
def Obligations.FailedAccessesHaveNoEffectButTheirReport : Prop :=
  (∀ (s : State) (o : MemOp) (rest : List MemOp) (c : Nat), s.ctx.ldq = o :: rest → s.accessCause o false = some c →
     (o.kind = .ld ∨ o.kind = .hld ∨ s.reloads o → Completes .queuedLoadPerform s fun t =>
       t.ctx.ldq = rest ∧ SameRegs s t ∧ Unpended s t o ∧ t.mem = s.mem ∧
       (if o.kind ≠ .hld ∧ o.dst = 0 then t.ctx.due = s.ctx.due ++ [⟨c, o.ea, o.handler⟩] ∧ t.ctx.failed = s.ctx.failed
        else t.ctx.due = s.ctx.due ∧ (⟨o.kind == .hld, o.dst, c, o.ea⟩ : Failed) ∈ t.ctx.failed)) ∧
     (o.kind = .lds → Completes .queuedLoadPerform s fun t =>
       t.ctx.ldq = rest ∧ t.ctx.due = s.ctx.due ∧ t.ctx.failed = s.ctx.failed ∧ t.mem = s.mem ∧ Unpended s t o ∧
       ∀ r : BitVec 6, t.ctx.rs r = if r.toNat = o.dst % 64 then 0 else s.ctx.rs r)) ∧
  (∀ (s : State) (o : MemOp) (rest : List MemOp) (c : Nat), s.ctx.stq = o :: rest →
     o.kind = .st ∨ o.kind = .hst ∨ o.kind = .signal ∧ s.linkBusy = false →
     s.accessCause o true = some c → Completes .queuedStorePerform s fun t =>
       t = s.modCtx fun x => { x with stq := rest, due := x.due ++ [⟨c, o.ea, o.handler⟩] }) ∧
  ∀ (s : State) (o : MemOp) (st : Bool), (2 ^ 30 ≤ o.ea → s.accessCause o st = some 0x0D) ∧
    (o.ea < 2 ^ 30 → s.disp.lostmap.getLsbD (adDie o.ea).val = true → s.accessCause o st = some 0x0F)

/-- R137, R139 and R141: the store or `SIGNAL` at the head of the queue, to a word of the die that may be written, has its
side port free and is neither of a TXW nor of a TABLE granule, nor in the bank of the granule table, performs: its bytes are
those of the register, and every byte outside them reads as before; no open combining entry takes a store past a `SIGNAL`. -/
def Obligations.LocalStoreWritesItsBytesAndNoOthers : Prop :=
  ∀ (s : State) (o : MemOp) (rest : List MemOp), s.ctx.stq = o :: rest →
    o.kind = .st ∨ o.kind = .hst ∨ o.kind = .signal ∧ s.linkBusy = false →
    o.size ∈ [1, 2, 4, 8, 32] → adBank o.ea ≠ 127 →
    s.mem.wf = true → s.accessCause o true = none → adDie o.ea = s.cur → granMode (s.mem.entryOf o.ea) ≠ 2 →
    granMode (s.mem.entryOf o.ea) ≠ 6 → s.sideDelay o.ready (opWords o) (opReads o) = none →
    Completes .queuedStorePerform s fun t =>
      t.ctx.stq = rest ∧
      (∀ k, k < o.size → t.byteAt (accAddr o + k) = .ofNat 8 (o.data / 2 ^ (8 * k))) ∧
      (∀ a, a < accAddr o ∨ accAddr o + o.size ≤ a → t.byteAt a = s.byteAt a) ∧
      (∀ a, t.resAt a = s.resAt a) ∧ SameRegs s t ∧ t.ctx.fpstat = s.ctx.fpstat ∧ t.ctx.priv = s.ctx.priv ∧
      (o.kind = .signal → ∀ e ∈ t.die.ord.combine, e.barred = true)

/-- R136, R140, R141, R148, R266 and R271: an access to another die leaves its queue as a verb stamped with the GTC, which
the commit buffer holds; it waits at its target from its arrival to a quantum boundary, and the value of a get comes back
into its destination. -/
def Obligations.CrossDieAccessesTravelAsVerbs : Prop :=
  (∀ (s : State) (o : MemOp) (rest : List MemOp), s.ctx.ldq = o :: rest →
    o.kind = .ld ∨ o.kind = .lds ∨ o.kind = .hld ∨ s.reloads o →
    s.accessCause o false = none → adDie o.ea ≠ s.cur → s.cbFreeFor ≠ 0 →
    let g : MemOp := { o with data := s.die.ord.cbNext }
    let v : Verb := { kind := .get, src := s.cur, seq := s.die.ord.cbNext, stamp := s.gtc, domid := s.ctx.domid.toNat, op := g }
    Completes .queuedLoadPerform s fun t => t.ctx.ldq = rest ∧ t.ctx.gets = s.ctx.gets ++ [g] ∧ t.mem = s.mem ∧
      SameRegs s t ∧ t.ctx.pendS = s.ctx.pendS ∧ t.ctx.pendH = s.ctx.pendH ∧
      t.die.ord.cb = s.die.ord.cb ++ [{ id := s.die.ord.cbNext, verb := some v, stamp := s.gtc }] ∧
      ∃ x ∈ t.timers, s.now < x.at_ ∧ x.task = ⟨adDie o.ea, .instr .getVerbArrival (.verb v)⟩) ∧
  (∀ (s : State) (o : MemOp) (rest : List MemOp), s.ctx.stq = o :: rest →
    o.kind = .st ∨ o.kind = .hst ∨ o.kind = .signal ∧ s.linkBusy = false →
    s.accessCause o true = none → adDie o.ea ≠ s.cur → s.cbFreeFor ≠ 0 →
    let v : Verb := { kind := if o.kind = .signal then .signal else .store, src := s.cur, seq := s.die.ord.cbNext,
                      stamp := s.gtc, domid := s.ctx.domid.toNat, op := o }
    let e : CbEntry := { id := s.die.ord.cbNext, verb := some v, stamp := s.gtc,
                         hold := if s.held = true then some s.ctx.launchId.toNat else none }
    Completes .queuedStorePerform s fun t => t.ctx.stq = rest ∧ t.mem = s.mem ∧ SameRegs s t ∧
      t.die.ord.cb = s.die.ord.cb ++ [e] ∧
      (o.kind = .signal → ∀ e ∈ t.die.ord.combine, e.barred = true) ∧
      ∃ x ∈ t.timers, s.now < x.at_ ∧ x.task = ⟨adDie o.ea,
        .instr (if o.kind = .signal then .signalVerbArrival else .remoteStoreVerbArrival) (.verb v)⟩) ∧
  (∀ (s : State) (v : Verb), s.msg = .verb v → s.verbLive v = true →
    ∀ i ∈ [Instr.getVerbArrival, .remoteStoreVerbArrival, .signalVerbArrival, .atomicVerbArrival],
      Completes i s fun t =>
        t.die.ord.arrived = s.die.ord.arrived ++
          [{ a := v.stamp + (s.dieAt v.src).ord.mldly, phys := s.gtc, issuer := s.gdie v.src, seq := v.seq, verb := some v,
             unit := none, iod := 2, onWay := false }] ∧
        t.die.ord.late = (if v.stamp + (s.dieAt v.src).ord.mldly < s.gtc then min (s.die.ord.late + 1) (2 ^ 32 - 1)
          else s.die.ord.late) ∧
        t.ctx = s.ctx ∧ t.mem = s.mem ∧ SameOtherDies s t) ∧
  (∀ (s : State) (seq data : Nat) (o : MemOp), s.msg = .response seq data none →
    s.ctx.gets.find? (fun x => x.data == seq) = some o → Completes .getResponse s fun t =>
      t.ctx.gets = s.ctx.gets.filter (fun x => x.data != seq) ∧ t.mem = s.mem ∧ LoadsValue s t o data ∧ Unpended s t o ∧
      t.ctx.hoist = hoistKept s.ctx.hoist o) ∧
  ∀ (s : State) (seq data c x : Nat) (o : MemOp), s.msg = .response seq data (some (c, x)) →
    s.ctx.gets.find? (fun x => x.data == seq) = some o → o.kind = .ld ∨ o.kind = .hld → Completes .getResponse s fun t =>
      t.ctx.gets = s.ctx.gets.filter (fun x => x.data != seq) ∧ t.mem = s.mem ∧ SameRegs s t ∧ Unpended s t o ∧
      (if o.kind ≠ .hld ∧ o.dst = 0 then t.ctx.due = s.ctx.due ++ [⟨c, o.ea, o.handler⟩]
       else (⟨o.kind == .hld, o.dst, c, o.ea⟩ : Failed) ∈ t.ctx.failed)

/-- R246, R269 and R272: a combining entry that closes is open no longer, and a copy that has committed leaves the commit
buffer with its entry when it was the last. -/
def Obligations.CombiningEntriesCloseAndCopiesCommit : Prop :=
  (∀ (s : State) (id : Nat), Completes (.combiningEntryClose id) s fun t =>
    (∀ e ∈ t.die.ord.combine, e.id ≠ id) ∧
    (s.die.ord.combine.all (fun e => e.id != id) = true → t = s) ∧ t.ctx.ldq = s.ctx.ldq ∧ SameRegs s t) ∧
  (∀ (s : State) (id p : Nat), s.msg = .ack id p true → Completes .dieCommitAck s fun t =>
    (∀ e ∈ t.die.ord.cb, e.id = id → ∀ c ∈ e.copies, c.peer ≠ p) ∧
    (∀ e ∈ t.die.ord.cb, e.verb.isSome = true ∨ e.copies ≠ []) ∧ t.ctx = s.ctx ∧ t.mem = s.mem ∧ SameOtherDies s t)

/-! ### Vector slots -/

/-- R150 to R155 and R158: the ALU and FMA ports compute lane by lane. -/
def Obligations.VectorArithmeticIsLanewise : Prop :=
  ∀ (s : State) (bays : Bays) (o : VOp), s.Issues →
    let m := s.rmode o.rnd.toNat
    let two := fun (i : Instr) (u : VUnit) (lat : Nat) (P : Word32 → Word32 → Word32 → Flags → Prop) =>
      GivesInBays i s bays (vecResult s u lat o.d o.msel [o.a, o.b] (lanes2 s o.a o.b P))
    let one := fun (i : Instr) (P : Word32 → Word32 → Flags → Prop) =>
      GivesInBays i s bays (vecResult s .alu 2 o.d o.msel [o.a] (lanes1 s o.a P))
    let three := fun (i : Instr) (P : Word32 → Word32 → Word32 → Word32 → Flags → Prop) =>
      GivesInBays i s bays (vecResult s .fma 4 o.d o.msel [o.a, o.b, o.c] (lanes3 s o.a o.b o.c P))
    let fp := fun (g : FFmt → Nat → Nat → Nat → Nat × Flags) (x y z : Word32) => elems o.vt g x y z
    two (.vadd bays o) .alu 2
      (fun x y => arithLane o (x.toInt + y.toInt) (fp (fun f x y _ => fpAdd f m x y) x y 0)) ∧
    two (.vsub bays o) .alu 2
      (fun x y => arithLane o (x.toInt - y.toInt) (fp (fun f x y _ => fpSub f m x y) x y 0)) ∧
    two (.vmin bays o) .alu 2
      (fun x y => arithLane o (min x.toInt y.toInt) (fp (fun f x y _ => fpMinMax f false x y) x y 0)) ∧
    two (.vmax bays o) .alu 2
      (fun x y => arithLane o (max x.toInt y.toInt) (fp (fun f x y _ => fpMinMax f true x y) x y 0)) ∧
    one (.vabs bays o) (fun x => arithLane o |x.toInt| (x &&& ~~~signBits o.vt, {})) ∧
    one (.vneg bays o) (fun x => arithLane o (-x.toInt) (x ^^^ signBits o.vt, {})) ∧
    two (.vmul bays o) .fma 4
      (fun x y => arithLane o (x.toInt * y.toInt) (fp (fun f x y _ => fpMul f m x y) x y 0)) ∧
    three (.vfma bays o)
      (fun x y z => arithLane o (x.toInt * y.toInt + z.toInt) (fp (fun f => fpFma f m false false) x y z)) ∧
    three (.vfms bays o)
      (fun x y z => arithLane o (x.toInt * y.toInt - z.toInt) (fp (fun f => fpFma f m false true) x y z)) ∧
    three (.vfnma bays o)
      (fun x y z => arithLane o (z.toInt - x.toInt * y.toInt) (fp (fun f => fpFma f m true false) x y z))

/-- R155: the logical, shift, move and select forms, lane by lane, with no flag. -/
def Obligations.VectorLogicIsLanewise : Prop :=
  ∀ (s : State) (bays : Bays) (o : VOp), s.Issues →
    let two := fun (i : Instr) (P : Word32 → Word32 → Word32 → Prop) =>
      GivesInBays i s bays (vecResult s .alu 2 o.d o.msel [o.a, o.b] (lanes2 s o.a o.b fun x y v f => P x y v ∧ f = {}))
    two (.vand bays o) (fun x y v => ∀ i, v.getLsbD i = (x.getLsbD i && y.getLsbD i)) ∧
    two (.vor bays o) (fun x y v => ∀ i, v.getLsbD i = (x.getLsbD i || y.getLsbD i)) ∧
    two (.vxor bays o) (fun x y v => ∀ i, v.getLsbD i = (x.getLsbD i != y.getLsbD i)) ∧
    two (.vandn bays o) (fun x y v => ∀ i, v.getLsbD i = (x.getLsbD i && !y.getLsbD i)) ∧
    two (.vshl bays o) (fun x y v => v.toNat = x.toNat * 2 ^ (y.toNat % 32) % 2 ^ 32) ∧
    two (.vshr bays o) (fun x y v => v.toNat = x.toNat / 2 ^ (y.toNat % 32)) ∧
    two (.vsar bays o) (fun x y v => v.toInt = x.toInt / 2 ^ (y.toNat % 32)) ∧
    GivesInBays (.vmov bays o) s bays
      (vecResult s .alu 2 o.d o.msel [o.a] (lanes1 s o.a fun x v f => v = x ∧ f = {})) ∧
    GivesInBays (.vsel bays o) s bays (vecResult s .alu 2 o.d o.msel [o.a, o.b] fun b l =>
      l.length = min (s.vField b o.a).length (s.vField b o.b).length ∧
      ∀ (k : Nat) (x y : Word32), (s.vField b o.a)[k]? = some x → (s.vField b o.b)[k]? = some y →
        l[k]? = some (if ((s.bayAt b).mask (o.c.setWidth 3)).getLsbD k = true then x else y, {}))

/-- R156 and R157: compares and mask operations write a whole mask of each bay two cycles on; a lane that MSEL disables
compares as 0 and sets no flag, and the flag of a compare is that of its enabled lanes. -/
def Obligations.VectorComparesAndMaskSlotsWriteMasks : Prop :=
  ∀ (s : State) (bays : Bays) (o : VOp) (d a b : BitVec 3) (n : BitVec 8), s.Issues →
    let cmp := fun (i : Instr) (c : FCond) (P : Int → Int → Prop) =>
      GivesInBays i s bays fun y l => ∃ (v : BitVec 128) (iv : Bool),
        l = [landing 1 (.mask y (o.d.toNat % 8) v { iv := iv })] ++ freed y [o.a, o.b] ∧
        (iv = true ↔ o.vt ≠ 3 ∧ ∃ (k : Nat) (x z : Word32), (s.enabled y o.msel).getLsbD k = true ∧
          (s.vField y o.a)[k]? = some x ∧ (s.vField y o.b)[k]? = some z ∧ (fpCmp fp32 c x.toNat z.toNat).2 = true) ∧
        ∀ k, k < 128 → ∀ x z : Word32, (s.vField y o.a)[k]? = some x → (s.vField y o.b)[k]? = some z →
          (v.getLsbD k = true ↔ (s.enabled y o.msel).getLsbD k = true ∧
            if o.vt = 3 then P x.toInt z.toInt else (fpCmp fp32 c x.toNat z.toNat).1 = true)
    let mask := fun (i : Instr) (P : Bay → Nat → Prop) =>
      GivesOneInBays i s bays 2 fun y r => ∃ v : BitVec 128, r = .mask y d.toNat v {} ∧
        ∀ k, k < 128 → (v.getLsbD k = true ↔ P (s.bayAt y) k)
    cmp (.vcmpEq bays o) .eq (fun x y => x = y) ∧
    cmp (.vcmpNe bays o) .ne (fun x y => x ≠ y) ∧
    cmp (.vcmpLt bays o) .lt (fun x y => x < y) ∧
    cmp (.vcmpLe bays o) .le (fun x y => x ≤ y) ∧
    cmp (.vcmpUn bays o) .un (fun _ _ => False) ∧
    mask (.vmand bays d a b) (fun y k => (y.mask a).getLsbD k = true ∧ (y.mask b).getLsbD k = true) ∧
    mask (.vmor bays d a b) (fun y k => (y.mask a).getLsbD k = true ∨ (y.mask b).getLsbD k = true) ∧
    mask (.vmxor bays d a b) (fun y k => (y.mask a).getLsbD k ≠ (y.mask b).getLsbD k) ∧
    mask (.vmandn bays d a b) (fun y k => (y.mask a).getLsbD k = true ∧ (y.mask b).getLsbD k = false) ∧
    mask (.vmset bays d n) (fun _ k => k < n.toNat)

/-- R159 to R162: the transcendental and the convert ports, lane by lane, with their latencies: each element of a convert is
converted, and its flags join those of the lane. -/
def Obligations.TranscendentalAndConvertSlotsAreLanewise : Prop :=
  ∀ (s : State) (bays : Bays) (o : VOp) (c : CvOp), s.Issues →
    let m := s.rmode o.rnd.toNat
    let md := s.rmode c.rnd.toNat
    let tr := fun (i : Instr) (t : TFun) =>
      GivesInBays i s bays (vecResult s .trans 8 o.d o.msel [o.a] (lanes1 s o.a fun x v f =>
        (v, f) = elems o.vt (fun g x _ _ => fpTrans g m t x) x 0 0))
    let cv1 := fun (i : Instr) (P : Word32 → Word32 → Flags → Prop) =>
      GivesInBays i s bays (vecResult s .conv 3 c.d c.msel [c.a] (lanes1 s c.a P))
    let code := cvt c.sf.toNat c.tf.toNat md c.sat
    let half := fun (x : Word32) (k : Nat) => x.toNat / 2 ^ (16 * k) % 2 ^ 16
    tr (.vexp2 bays o) .exp2 ∧ tr (.vlog2 bays o) .log2 ∧ tr (.vrcp bays o) .rcp ∧ tr (.vrsqrt bays o) .rsqrt ∧
    tr (.vsqrt bays o) .sqrt ∧ tr (.vtanh bays o) .tanh ∧ tr (.vsigm bays o) .sigm ∧
    cv1 (.vcvt bays c) (fun x v f =>
      (v, f) = cvElems c md x ((List.range (32 / max (cvWidth c.sf) (cvWidth c.tf))).map fun j => (j, j)) (0, {}) ∧
      (cvWidth c.sf = 32 → cvWidth c.tf = 32 → v = .ofNat 32 (code x.toNat).1 ∧ f = (code x.toNat).2)) ∧
    cv1 (.vrint bays c) (fun x v f =>
      (c.sf = 0 → v = .ofNat 32 (roundIntegral fp32 md x.toNat).1 ∧ f = (roundIntegral fp32 md x.toNat).2) ∧
      (c.sf = 1 ∨ c.sf = 2 → let r := fun k => roundIntegral (if c.sf = 1 then bf16 else fp16) md (half x k)
        (v.toNat = (r 0).1 % 2 ^ 16 + (r 1).1 % 2 ^ 16 * 2 ^ 16 ∧ f = orFlags (r 0).2 (r 1).2))) ∧
    cv1 (.vunpk bays c) (fun x v f =>
      (v, f) = cvElems c md x ((List.range (32 / cvWidth c.tf)).map fun j =>
        (c.b.toNat * (32 / cvWidth c.tf) + j, j)) (0, {}) ∧
      (cvWidth c.sf = 16 → cvWidth c.tf = 32 → c.b.toNat ≤ 1 →
        v = .ofNat 32 (code (half x c.b.toNat)).1 ∧ f = (code (half x c.b.toNat)).2)) ∧
    GivesInBays (.vpack bays c) s bays (vecResult s .conv 3 c.d c.msel [c.a, c.b] (lanes2 s c.a c.b fun x y v f =>
      let n := 32 / cvWidth c.sf
      (v, f) = cvElems c md y ((List.range n).map fun j => (j, n + j))
        (cvElems c md x ((List.range n).map fun j => (j, j)) (0, {})) ∧
      (cvWidth c.sf = 32 → cvWidth c.tf = 16 →
        v.toNat = (code x.toNat).1 % 2 ^ 16 + (code y.toNat).1 % 2 ^ 16 * 2 ^ 16 ∧
        f = orFlags (code x.toNat).2 (code y.toNat).2)))

/-! ### Scan slots -/

/-- R163 to R166: a scan slot takes the heads of its sources and reserves an entry of its destination; the scan of its
opcode lands at the end of the cycle 6 + log2 w after its issue. -/
def Obligations.ScanSlotsTakeTheirSourcesAndLand : Prop :=
  ∀ (s : State) (bays : Bays) (o : ScOp), s.Issues →
    let scan := fun (i : Instr) (opc : Nat) (flags : Bool) => wf i = true →
      GivesOneInBays i s bays (8 + o.lw.toNat) fun b r =>
        let x := (s.bayAt b).str (o.d.toNat % 32)
        r = .scan b { opc := opc, fmt := o.fmt.toNat, w := 2 ^ (o.lw.toNat + 1), carry := o.carry,
                      mode := if o.rnd = 4 then s.ctx.rm.toNat else o.rnd.toNat, sat := o.sat, k := o.k.toNat,
                      a := s.head b (o.a.toNat % 32), b := if flags = true then s.head b (o.b.toNat % 32) else [],
                      dst := some ⟨b, o.d.toNat % 32, x.bank0, x.nbk, x.word⟩ }
    scan (.scanPsum bays o) 0 false ∧ scan (.scanPmax bays o) 1 false ∧ scan (.scanPmin bays o) 2 false ∧
    scan (.scanSpsum bays o) 3 true ∧ scan (.scanRsum bays o) 4 false ∧ scan (.scanRmax bays o) 5 false ∧
    scan (.scanRmin bays o) 6 false ∧ scan (.scanAmax bays o) 7 false ∧ scan (.scanCmpct bays o) 8 true ∧
    scan (.scanArgmax bays o) 9 false ∧ scan (.scanTopk bays o) 10 false ∧ scan (.scanRank bays o) 11 false

/-! ### Matrix slots -/

/-- R180 to R185: the beat-port slots. A step records the mode, the bank and its operands at issue, and its products land
two cycles later; the edge registers are loaded at the end of the cycle; in mode FP64 the step gathers the pieces of its
group. Nothing else is scheduled. -/
def Obligations.BeatSlotsIssueTheirSteps : Prop :=
  ∀ (s : State) (bays : Bays) (la lb : Bool) (qa qb : BitVec 5) (tsel : BitVec 2) (sh : BitVec 8) (n : BitVec 6), s.Issues →
    let opA := fun (b : BayIx) => s.mxOperand b la qa (fun m => m.ea)
    let opB := fun (b : BayIx) => s.mxOperand b lb qb (fun m => m.eb)
    let rows := fun (b : BayIx) => (List.range 256).map fun k => SMap.get 0 (s.bayAt b).mxu.ea ((k + sh.toNat) % 256)
    let gives := fun (i : Instr) (r : BayIx → List (Nat × Instr)) (P : BayIx → Mxu → Prop) =>
      Completes i s fun t => OnlyMatrix s t ∧ StreamsMoved (slotNames i) s t ∧ BaysSchedule s t bays (fun b l => l = r b) ∧
        ∀ b : BayIx, SameArray (s.bayAt b).mxu (t.bayAt b).mxu ∧ (bays.getLsbD b.val = true → P b (t.bayAt b).mxu)
    let step := fun (b : BayIx) (a c : List Lane) => (2, Instr.mxStepLanding (beatStep s b tsel.toNat a c false))
    GivesOneInBays (.mxPush bays la lb qa qb) s bays 1 (fun b r => r = .mxEdges b
      (if la = true then some (s.head b qa.toNat) else none) (if lb = true then some (s.head b qb.toNat) else none)) ∧
    gives (.mxAcc bays la lb qa qb tsel)
      (fun b => [step b (opA b) (opB b),
        landing 0 (.mxEdges b (if la = true then some (opA b) else none) (if lb = true then some (opB b) else none))])
      (fun b m => Gathers (s.bayAt b).mxu m (opA b) (opB b) ∧ ((s.bayAt b).mxu.fa ≠ 11 → m = (s.bayAt b).mxu)) ∧
    gives (.mxShift bays sh lb qb tsel)
      (fun b => [step b (rows b) (opB b), landing 0 (.mxEdges b (some (rows b)) (if lb = true then some (opB b) else none))])
      (fun b m => Gathers (s.bayAt b).mxu m (rows b) (opB b) ∧ ((s.bayAt b).mxu.fa ≠ 11 → m = (s.bayAt b).mxu)) ∧
    gives (.mxHold bays n) (fun b => (List.range (n.toNat + 1)).map fun k => landing k (.mxHoldStep b))
      (fun _ m => m.holdEnd = s.ctx.tl + n.toNat + 1)

/-- R178, R179 and R186 to R190: the control-port slots. A drain reads its row at issue and presents it at the end of the
fifth cycle; MX.SCALE takes the partial sums as they stand and the scale bytes of the two heads; the other slots take effect
at the end of their cycle, a snapshot at the end of the sixth. Nothing else is scheduled. -/
def Obligations.MatrixControlSlotsTakeEffect : Prop :=
  ∀ (s : State) (bays : Bays) (qd qa qb : BitVec 5) (bank clr auto za zb zp : Bool) (r : BitVec 6) (row : BitVec 8)
    (fa fb : BitVec 4), s.Issues →
    let n := fun (b : BayIx) => if auto = true then (s.bayAt b).mxu.dptr else ((s.rs r).toNat + row.toNat) % 256
    let scales := fun (b : BayIx) (q : BitVec 5) (l : List Byte) => l.length = 256 ∧
      ∀ k, k < 256 → (l.getD k 0).toNat = ((s.head b q.toNat).getD (k / 2) 0).toNat / 2 ^ (8 * (k % 2)) % 2 ^ 8
    Completes (.mxDrain bays qd bank clr auto r row) s (fun t => OnlyMatrix s t ∧
      StreamsMoved (slotNames (.mxDrain bays qd bank clr auto r row)) s t ∧
      BaysSchedule s t bays (fun b l => ∃ lanes : List Lane, lanes.length = 512 ∧
        (∀ j, j < 256 → (lanes.getD (2 * j) 0).toNat + (lanes.getD (2 * j + 1) 0).toNat * 2 ^ 16 =
          (SMap.get 0 ((s.bayAt b).mxu.acc bank) (256 * n b + j)).toNat) ∧
        l = (4, .mxDrainPresent b (some (let x := (s.bayAt b).str qd.toNat; ⟨b, qd.toNat, x.bank0, x.nbk, x.word⟩)) lanes) ::
          (if clr = true then [landing 0 (.mxRow b bank true (n b))] else [])) ∧
      ∀ b : BayIx, SameArray (s.bayAt b).mxu (t.bayAt b).mxu ∧
        (bays.getLsbD b.val = true → (t.bayAt b).mxu.dptr = (n b + 1) % 256)) ∧
    GivesOneInBays (.mxZero bays za zb zp) s bays 1 (fun b x => x = .mxZero b za zb zp) ∧
    GivesInBays (.mxMode bays fa fb) s bays (fun b l =>
      l = [landing 0 (.mxMode b fa.toNat fb.toNat), (2, .mxModePartialClear b fa.toNat fb.toNat)]) ∧
    GivesOneInBays (.mxScale bays qa qb) s bays 1 (fun b x => ∃ sa sb,
      x = .mxFold b (s.bayAt b).mxu.p (s.bayAt b).mxu.pf sa sb ∧ scales b qa sa ∧ scales b qb sb) ∧
    Completes (.mxSnap bays bank) s (fun t => OnlyMatrix s t ∧
      BaysSchedule s t bays (fun b l =>
        l = [(5, .mxSnapTargetWrite b (!bank) ((s.bayAt b).mxu.acc bank) ((s.bayAt b).mxu.steps bank))]) ∧
      ∀ b : BayIx, (t.bayAt b).mxu =
        if bays.getLsbD b.val = true then { (s.bayAt b).mxu with snap := true } else (s.bayAt b).mxu) ∧
    GivesOneInBays (.mxSwap bays) s bays 1 (fun b x => x = .mxSwap b)

/-- R46, R174, R177 to R179, R181 and R184 to R190: what lands in the array. A step counts in the step counter of its bank; a
mode change takes the new mode, then clears the partial sums; a snapshot gives its target the cells and the counter it read;
a drain is presented; edges are loaded, a swap changes the active bank, a clear and a row clear zero what they name, and a
fold writes every cell of the active bank and zeroes the partial sums. Each leaves the rest of the array alone. -/
def Obligations.MatrixStepsLandInTheirBank : Prop :=
  ∀ (s : State) (x : MxStep) (b : BayIx) (fa fb : Nat) (toB : Bool) (cells : SMap Word32) (n : BitVec 32)
    (d : Option Resv) (lanes : List Lane),
    let m := (s.bayAt b).mxu
    let lands := fun (r : Result) (P : Mxu → Prop) => Completes (.timelineResultLanding r) s fun t =>
      OnlyMxu s t b ∧ SameSpecial s t ∧ t.ctx.pend = s.ctx.pend ∧ P (t.bayAt b).mxu
    Completes (.mxStepLanding x) s (fun t =>
      (t.bayAt x.bay).mxu.steps x.bank = (s.bayAt x.bay).mxu.steps x.bank + 1 ∧
      (t.bayAt x.bay).mxu.steps (!x.bank) = (s.bayAt x.bay).mxu.steps (!x.bank) ∧
      (x.fa ≠ 11 → (t.bayAt x.bay).mxu.acc (!x.bank) = (s.bayAt x.bay).mxu.acc (!x.bank)) ∧
      OnlyMxu s t x.bay ∧ t.ctx.pend = s.ctx.pend) ∧
    Completes (.mxModePartialClear b fa fb) s (fun t =>
      t = s.modMxu b fun m => { m with p := [], pf := [], pma := fa, pmb := fb }) ∧
    Completes (.mxSnapTargetWrite b toB cells n) s (fun t =>
      (t.bayAt b).mxu.acc toB = cells ∧ (t.bayAt b).mxu.steps toB = n ∧
      (t.bayAt b).mxu.acc (!toB) = m.acc (!toB) ∧ (t.bayAt b).mxu.steps (!toB) = m.steps (!toB) ∧
      (t.bayAt b).mxu.snap = false ∧ OnlyMxu s t b ∧ t.ctx.pend = s.ctx.pend) ∧
    Completes (.mxDrainPresent b d lanes) s (fun t => (d = none → t = s) ∧
      ∀ r, d = some r → Presents s t 256 r lanes (List.replicate lanes.length true)) ∧
    (∀ ea eb : Option (List Lane), (∀ l, ea = some l ∨ eb = some l → l.length = 256) → lands (.mxEdges b ea eb) fun m' =>
      (∀ k, k < 256 → SMap.get 0 m'.ea k = (match ea with | some l => l.getD k 0 | none => SMap.get 0 m.ea k) ∧
        SMap.get 0 m'.eb k = (match eb with | some l => l.getD k 0 | none => SMap.get 0 m.eb k)) ∧
      { m' with ea := m.ea, eb := m.eb } = m) ∧
    lands (.mxMode b fa fb) (fun m' => m' = { m with fa := fa, fb := fb, gpos := 0 }) ∧
    lands (.mxSwap b) (fun m' => m' = { m with act := !m.act }) ∧
    (∀ za zb zp : Bool, lands (.mxZero b za zb zp) fun m' =>
      (∀ k, SMap.get 0 m'.acca k = (if za = true then 0 else SMap.get 0 m.acca k) ∧
        SMap.get 0 m'.accb k = (if zb = true then 0 else SMap.get 0 m.accb k) ∧
        SMap.get 0 m'.p k = (if zp = true then 0 else SMap.get 0 m.p k) ∧
        SMap.get 0 m'.pf k = if zp = true then 0 else SMap.get 0 m.pf k) ∧
      m'.stepA = (if za = true then 0 else m.stepA) ∧ m'.stepB = (if zb = true then 0 else m.stepB) ∧
      m'.gpos = (if zp = true then 0 else m.gpos) ∧
      { m' with acca := m.acca, accb := m.accb, p := m.p, pf := m.pf, stepA := m.stepA, stepB := m.stepB,
                gpos := m.gpos, xa := m.xa, xb := m.xb } = m) ∧
    (∀ (bank c : Bool) (row : Nat), SMap.wf 0 (m.acc bank) = true → lands (.mxRow b bank c row) fun m' =>
      (∀ k, SMap.get 0 (m'.acc bank) k = if k / 256 = row then 0 else SMap.get 0 (m.acc bank) k) ∧
      m'.setAcc bank (m.acc bank) = m) ∧
    (∀ (p : SMap (BitVec 48)) (pf : SMap (BitVec 3)) (sa sb : List Byte), sa.length = 256 → sb.length = 256 →
      SMap.wf 0 (m.acc m.act) = true → SMap.wf 0 p = true → SMap.wf 0 pf = true →
      Completes (.timelineResultLanding (.mxFold b p pf sa sb)) s fun t => OnlyMxu s t b ∧ t.ctx.pend = s.ctx.pend ∧
        (∀ k, k < 65536 → SMap.get 0 ((t.bayAt b).mxu.acc m.act) k = .ofNat 32 (foldCell m.pma m.pmb
          (sa.getD (k / 256) 0).toNat (sb.getD (k % 256) 0).toNat (SMap.get 0 p k) (SMap.get 0 pf k)
          (SMap.get 0 (m.acc m.act) k).toNat).1) ∧
        (∀ k, SMap.get 0 (t.bayAt b).mxu.p k = 0 ∧ SMap.get 0 (t.bayAt b).mxu.pf k = 0) ∧
        { (t.bayAt b).mxu.setAcc m.act (m.acc m.act) with p := m.p, pf := m.pf } = m) ∧
    Completes (.timelineResultLanding (.mxHoldStep b)) s (fun t => OnlyMatrix s t ∧
      Schedules s t [(2, .mxStepLanding (beatStep s b 0 [] [] true))] ∧ (∀ b', b' ≠ b → t.bayAt b' = s.bayAt b') ∧
      SameArray m (t.bayAt b).mxu ∧ (t.bayAt b).mxu.gpos = (m.gpos + 1) % 64 ∧ Gathers m (t.bayAt b).mxu [] [])

/-- R44, R45, R47 and R175: a step that lands updates every cell of its bank from the lanes of its row and its column,
also the cells that the model does not list; the ternary mode wraps, and the MX modes add to the partial sums. -/
def Obligations.MatrixStepUpdatesEveryCell : Prop :=
  ∀ (s : State) (x : MxStep) (k : Nat), k < 65536 → x.a.length = 256 → x.b.length = 256 → x.hold = false →
    let m := (s.bayAt x.bay).mxu
    let row := x.a.getD (k / 256) 0
    let col := x.b.getD (k % 256) 0
    let old := SMap.get 0 (m.acc x.bank) k
    SMap.wf 0 (m.acc x.bank) = true → SMap.wf 0 m.p = true → SMap.wf 0 m.pf = true →
    (1 ≤ x.fa ∧ x.fa ≤ 4 ∧ 1 ≤ x.fb ∧ x.fb ≤ 4 → Completes (.mxStepLanding x) s fun t =>
      SMap.get 0 ((t.bayAt x.bay).mxu.acc x.bank) k = .ofNat 32 (fpCell x.fa x.fb row col old.toNat).1) ∧
    (x.fa = 8 ∧ x.fb = 10 ∧ x.tsel ≤ 3 → Completes (.mxStepLanding x) s fun t =>
      (SMap.get 0 ((t.bayAt x.bay).mxu.acc x.bank) k - old).toInt =
        ternSel (row.setWidth 8) (col.toNat / 2 ^ (4 * x.tsel) % 4) +
          ternSel ((row >>> 8).setWidth 8) (col.toNat / 2 ^ (4 * x.tsel + 2) % 4)) ∧
    (5 ≤ x.fa ∧ x.fa ≤ 7 ∧ 5 ≤ x.fb ∧ x.fb ≤ 7 → Completes (.mxStepLanding x) s fun t =>
      SMap.get 0 (t.bayAt x.bay).mxu.p k = SMap.get 0 m.p k + .ofInt 48 (mxCell x.fa x.fb row col).1 ∧
      SMap.get 0 (t.bayAt x.bay).mxu.pf k = SMap.get 0 m.pf k ||| (mxCell x.fa x.fb row col).2.1)

/-! ### Stream slots -/

/-- R164, R165, R197, R199 and R204 to R206: the stream slots that act at the end of their cycle, the residency mask, and
transfers: an entry of a transfer is the head of its source, cut or padded to its target's width, and one that lands a span
is presented; an entry that arrives joins the end of its stream's queue and is in flight no longer. -/
def Obligations.StreamSlotsAndArrivalsTakeEffect : Prop :=
  (∀ (s : State) (bays : Bays) (q qd : BitVec 5) (port : BitVec 4) (h : BitVec 4) (a : BitVec 6) (depth : BitVec 3)
     (wrap feed : Bool) (n : BitVec 8) (d : BitVec 3) (rot : BitVec 3), s.Issues →
     GivesOneInBays (.qBind bays q port h a depth wrap feed) s bays 1 (fun b r =>
       ∃ pat : BitVec 128, pat.toNat = (s.rs a).toNat + (s.rs (a + 1)).toNat * 2 ^ 64 ∧
         r = .bind b q.toNat port.toNat (s.ctx.rh h) pat depth.toNat wrap feed) ∧
     GivesOneInBays (.qUnbind bays q) s bays 1 (fun b r => r = .unbind b q.toNat) ∧
     GivesOneInBays (.qSkip bays q n) s bays 1 (fun b r => r = .skip b q.toNat (n.toNat + 1)) ∧
     GivesOneInBays (.qDrain bays q) s bays 1 (fun b r => r = .drainQ b q.toNat) ∧
     GivesOneInBays (.qRmask bays q d) s bays 2 (fun b r => ∃ v : BitVec 128, r = .mask b d.toNat v {} ∧
       ∀ i, i < 128 → v.getLsbD i = ((s.headEntry b q.toNat).nr.getD (2 * i) false ||
         (s.headEntry b q.toNat).nr.getD (2 * i + 1) false)) ∧
     Completes (.qXfer bays qd q rot) s (fun t => OnlyStreams s t ∧
       BaysSchedule s t bays (fun b l => ∃ e,
         let x := s.headEntry b q.toNat
         let w := portWidth ((s.bayAt (bayPlus b rot.toNat)).str qd.toNat).port
         l = [(3, .xferDelivery (bayPlus b rot.toNat) qd.toNat e)] ∧ e.lanes.length = w ∧ e.nr.length = w ∧
         (∀ k, k < w → e.lanes[k]? = some (x.lanes.getD k 0) ∧ e.nr[k]? = some (x.nr.getD k false)) ∧
         e.marks = x.marks.filter (fun y => y.1 < w)) ∧
       ∀ b : BayIx, bays.getLsbD b.val = true →
         ((t.bayAt b).str q.toNat).queue = ((s.bayAt b).str q.toNat).queue.drop 1 ∧
         ((t.bayAt (bayPlus b rot.toNat)).str qd.toNat).infl = ((s.bayAt (bayPlus b rot.toNat)).str qd.toNat).infl + 1) ∧
     Completes (.qXferLand bays q) s (fun t => OnlyScheduled { s with dies := t.dies } t ∧ SameRegs s t ∧ SameSpecial s t ∧
       t.mem = s.mem ∧ SameOtherDies s t ∧
       ∀ b : BayIx, (bays.getLsbD b.val = false ∨ (s.bayAt b).spanIn = [] → t.bayAt b = s.bayAt b) ∧
         ∀ e l, bays.getLsbD b.val = true → (s.bayAt b).spanIn = e :: l →
           (t.bayAt b).spanIn = l ∧ (t.bayAt b).str q.toNat = ((s.bayAt b).str q.toNat).advance ∧
           let x := (s.bayAt b).str q.toNat
           (poursAt t (s.ctx.tl + 6) b).Perm (poursAt s (s.ctx.tl + 6) b ++
             entryLanes 960 ⟨b, q.toNat, x.bank0, x.nbk, x.word⟩ e.lanes (List.replicate e.lanes.length true)))) ∧
  (∀ (s : State) (b : BayIx) (q : Nat) (e : Entry), q < 32 →
     ∀ i ∈ [Instr.streamEntryArrival b q e, .xferDelivery b q e], Completes i s fun t =>
       ((t.bayAt b).str q).queue = ((s.bayAt b).str q).queue ++ [e] ∧
       ((t.bayAt b).str q).infl = ((s.bayAt b).str q).infl - 1 ∧
       (∀ q', q' < 32 → q' ≠ q → (t.bayAt b).str q' = (s.bayAt b).str q') ∧
       (∀ b', b' ≠ b → t.bayAt b' = s.bayAt b') ∧ OnlyStreams s t ∧ t.ctx.pend = s.ctx.pend) ∧
  ∀ (s : State) (b : BayIx) (q : Nat), q < 32 →
    let x := (s.bayAt b).str q
    let cut := fun (c : Ctx) => c.pend.filter fun p => !arrivesAt b q p.instr
    let cutLater := fun (c : Ctx) => (cut c).map fun p =>
      if c.tl + 1 ≤ p.at_ then { p with instr := dropDst b q p.instr } else p
    let lands := fun (r : Result) (y : Stream) (ps : List Pend) => Completes (.timelineResultLanding r) s fun t =>
      OnlyStream s t b q y ∧ t.ctx.pend = ps
    (∀ (port depth : Nat) (h : Handle) (pat : BitVec 128) (wrap feed : Bool),
      lands (.bind b q port h pat depth wrap feed)
        { bound := true, port := port, depth := depth, wrap := wrap, feed := feed, exh := false, pat := pat, i0 := 0, i1 := 0,
          i2 := 0, hcopy := h, queue := [], infl := 0, slip := 0 } (cutLater s.ctx)) ∧
    lands (.unbind b q) { x with bound := false, queue := [], infl := 0, slip := 0 } (cutLater s.ctx) ∧
    (∀ n, lands (.skip b q (n + 1)) (x.advance.skip n) s.ctx.pend) ∧
    lands (.drainQ b q) { x with queue := [], infl := 0, slip := 0 } (cut s.ctx) ∧
    (∀ (l0 : Nat) (lanes : List Lane) (valid : List Bool) (d : Option Resv) (f : Flags),
      Completes (.timelineResultLanding (.present b l0 lanes valid d f)) s fun t => ∃ u, t = u.setFlags f ∧
        (d = none → u = s) ∧ ∀ r, d = some r → Presents s u l0 r lanes valid) ∧
    ∀ (j : ScanJob),
      let o := scanResult j (s.bayAt b).carry.toList
      Completes (.timelineResultLanding (.scan b j)) s fun t => ∃ u v, t = v.setFlags o.2.1 ∧
        (u = s.modBay b fun y => { y with carry := (u.bayAt b).carry }) ∧
        (∀ k : Fin 32, (u.bayAt b).carry[k] = ((o.2.2.find? fun c => c.1 == k.val).map Prod.snd).getD (s.bayAt b).carry[k]) ∧
        (j.dst = none → v = u) ∧ ∀ r, j.dst = some r → Presents u v 768 r o.1 (List.replicate o.1.length true)

/-! ### Stencils -/

/-- R102 to R104: a stencil permutes the 1,024 lanes of its sluice: the map from input to output and the map back undo each
other. -/
def Obligations.StencilsPermuteTheLanes : Prop :=
  ∀ (st : BitVec 9728) (a : Nat), a < 1024 →
    laneOut st a < 1024 ∧ laneIn st (laneOut st a) = a ∧ laneIn st a < 1024 ∧ laneOut st (laneIn st a) = a

/-- R114, R118 to R121: loads and cuts begin at issue with the address in the bay itself, a second cut of a bundle behind the
first, and the words that report a cut are read with latency 1. -/
def Obligations.StencilSlotsBeginTheirWork : Prop :=
  ∀ (s : State) (bays : Bays) (dir strict : Bool) (slot : BitVec 7) (bay : BitVec 3) (a c d : BitVec 6) (pass : BitVec 4),
    s.Issues →
    let here := fun (b : BayIx) => wordAddr s.cur.val b.val (adBank (s.rs a).toNat) (adWord (s.rs a).toNat)
    let b : BayIx := ⟨bay.toNat, bay.isLt⟩
    let j : CutJob :=
      { bay := b, dir := dir, slot := slot.toNat, addr := here b, caddr := s.cur.val * 2 ^ 27 + (s.rs c).toNat % 2 ^ 27,
        pass := pass.toNat, strict := strict, start := s.now }
    let frame := fun (t : State) => SameRegs s t ∧ SameSpecial s t ∧ SameBays s t ∧ t.mem = s.mem ∧ SameOtherDies s t
    Completes (.stnLd bays dir slot a) s (fun t => t.ctx.lds = s.ctx.lds ++ (baysOf bays).map (fun b =>
        { bay := b, dir := dir, slot := slot.toNat, addr := here b, start := s.now }) ∧ frame t) ∧
    Completes (.stnCut bay dir slot a c pass strict) s (fun t =>
      (s.ctx.cut = none → t.ctx.cut = some j ∧ t.ctx.cutq = s.ctx.cutq) ∧
      (s.ctx.cut ≠ none → t.ctx.cut = s.ctx.cut ∧ t.ctx.cutq = s.ctx.cutq ++ [j]) ∧ frame t) ∧
    GivesScalar (.stnWait bay d) s 1 d (fun v => v = (s.bayAt b).cutWord) ∧
    GivesScalar (.stnPasses bay d) s 1 d (fun v => (s.bayAt b).cutPasses < 2 ^ 63 →
      v.toNat % 2 ^ 63 = (s.bayAt b).cutPasses ∧
      (v.getLsbD 63 = true ↔ ∃ j ∈ s.ctx.cut.toList ++ s.ctx.cutq, j.bay = b))

/-- R105, R107, R110, R114, R115 and R118: a load that was read whole writes its slot and no other, slot 0 never; one with a
read error writes nothing and is reported; a cut writes the canonical stencil of its pass to its slot with status 1 alone, and
its completion word to the eight bytes at its address; the cut that waits behind it begins. -/
def Obligations.StencilWorkCompletes : Prop :=
  (∀ (s : State) (j : LdJob), s.msg = .load j → SMap.wf 0 (s.bayAt j.bay).stn = true →
    (∀ e, j.bad = some e → Completes .stnLdCompletion s fun t => (t.bayAt j.bay).ldErr = (s.bayAt j.bay).ldErr ++ [e] ∧
      (∀ b k, (t.bayAt b).stencil k = (s.bayAt b).stencil k) ∧ t.ctx.lds = s.ctx.lds.filter (· != j) ∧
      t.mem = s.mem ∧ SameRegs s t ∧ SameSpecial s t) ∧
    (j.bad = none → j.slot < 128 → Completes .stnLdCompletion s fun t => (∀ k, k < 256 → (t.bayAt j.bay).stencil k =
        if k = 128 * b2n j.dir + j.slot ∧ j.slot ≠ 0 then .ofNat 9728 (bytesNat j.bytes) else (s.bayAt j.bay).stencil k) ∧
      (∀ b, b ≠ j.bay → t.bayAt b = s.bayAt b) ∧ t.ctx.lds = s.ctx.lds.filter (· != j) ∧
      t.mem = s.mem ∧ SameRegs s t ∧ SameSpecial s t)) ∧
  (∀ (s : State) (j : CutJob), s.msg = .cut j → j.slot < 128 → SMap.wf 0 (s.bayAt j.bay).stn = true →
    let rv := j.lanes.map BitVec.toNat
    let o := cutOutcome rv j.pass j.strict j.bad.isSome
    let a := j.caddr / 8 * 8
    Completes .stnCutCompletion s fun t =>
      (∀ l, s.ctx.cutq = l → t.ctx.cut = l.head?.map (fun x => { x with start := s.now }) ∧ t.ctx.cutq = l.drop 1) ∧
      (t.bayAt j.bay).cutWord.toNat = (o.1 + o.2.1 * 2 ^ 8 + o.2.2.1 * 2 ^ 32) % 2 ^ 64 ∧
      (t.bayAt j.bay).cutPasses = o.2.1 ∧ (t.bayAt j.bay).cutErr = j.bad ∧
      (∀ k, k < 256 → (t.bayAt j.bay).stencil k =
        if o.1 = 1 ∧ k = 128 * b2n j.dir + j.slot ∧ j.slot ≠ 0 then o.2.2.2 else (s.bayAt j.bay).stencil k) ∧
      (o.1 = 1 → j.pass < o.2.1 → o.2.2.2 = canonical ((passes rv []).map fun x => match x with
        | some y => if y.2 = j.pass then some y.1 else none
        | none => none)) ∧
      (∀ b, b ≠ j.bay → t.bayAt b = s.bayAt b) ∧ SameRegs s t ∧
      (j.drop = [] → s.plainAt a →
        (s.engReads s.ctx.domid.toNat a = true → WritesBytes s t a (natBytes (t.bayAt j.bay).cutWord.toNat 8)) ∧
        (s.engReads s.ctx.domid.toNat a = false → t.die.engErr = true ∧ t.mem = s.mem)))

/-! ### Engines -/

/-- R211 and R214: copies and page requests join their queue with the fields of their registers; a copy is performed after a
time that the spec leaves open. -/
def Obligations.EngineSlotsQueueTheirRequest : Prop :=
  ∀ (s : State) (bay : BitVec 3) (b a n c v : BitVec 6) (h : BitVec 4), s.Issues →
    let copy := fun (i : Instr) (form : Nat) =>
      let r : CopyReq :=
        { form := form, die := s.cur, dst := s.rs b, srcA := s.rs a, len := (s.rs n).toNat % 2 ^ 21,
          caddr := (s.rs c).toNat, cval := s.rs v, domid := s.ctx.domid.toNat, rbase := s.ctx.rbase, rlen := s.ctx.rlen,
          bay := 0, slot := 0, gen := 0, id := s.die.engNext }
      Completes i s fun t => t.die.engine = s.die.engine ++ [r] ∧ t.die.engNext = s.die.engNext + 1 ∧
        ComesLater s t .copyCompletion (.copy r) ∧ t.ctx = s.ctx ∧ t.mem = s.mem ∧ SameOtherDies s t
    copy (.copy bay b a n c v) 0 ∧ copy (.copySt bay b a n c v) 1 ∧
    Completes (.pageReq bay h a c v) s (fun t =>
      t.die.pageq = s.die.pageq ++
        [(((s.ctx.rh h).toNat / 2 ^ 48) % 2 ^ 32 + (s.rs a).toNat, (s.rs c).toNat, s.rs v, s.ctx.domid.toNat)] ∧
      t.ctx = s.ctx ∧ t.mem = s.mem ∧ SameOtherDies s t)

/-- R207 to R210: a probe answers its status and slot two cycles on, and a miss starts one fill of the block; `PROBE.TAG`
configures an empty table and `PROBE.INV` leaves no entry of the block. -/
def Obligations.ProbeSlotsUseTheTable : Prop :=
  ∀ (s : State) (bay : BitVec 3) (pd : BitVec 4) (d a v : BitVec 6), s.Issues →
    let b : BayIx := ⟨bay.toNat, bay.isLt⟩
    let blk := (s.rs a).toNat / 2 ^ 13 % 2 ^ 27
    let p := (s.bayAt b).probe
    let l := p.look blk
    Completes (.probe bay pd d a v) s (fun t =>
      (∃ x : Word, x.toNat = l.2.1 % 256 + l.1 % 2 ^ 56 * 2 ^ 8 ∧
        Schedules s t [landing 1 (.preg pd (l.1 == 0) {}), landing 1 (.sreg d x {})]) ∧
      (l.1 ≠ 1 → OnlyScheduled s t) ∧
      (l.1 = 1 → ∃ r : CopyReq, t.die.engine = s.die.engine ++ [r] ∧ r.form = 2 ∧ r.len = 512 ∧ r.bay = b ∧
        r.srcA.toNat = blk * 8192 ∧ r.slot = l.2.1 ∧ r.gen = p.gen ∧ r.cval = s.rs v ∧ r.domid = s.ctx.domid.toNat ∧
        r.dst = .ofNat 64 (wordAddr s.cur.val b.val (p.pbank + l.2.1 / 16) (512 * (l.2.1 % 16))) ∧
        r.caddr = wordAddr s.cur.val b.val p.cbank (p.cword + l.2.1) ∧
        ComesLater s t .probeFillCompletion (.copy r) ∧
        (SMap.wf (0, 0) p.ent = true → ∀ k, SMap.get (0, 0) (t.bayAt b).probe.ent k =
          if k = l.2.1 then (blk, 2) else SMap.get (0, 0) p.ent k)) ∧
      SameRegs s t ∧ t.mem = s.mem ∧ SameOtherDies s t) ∧
    Completes (.probeTag bay a) s (fun t => (t.bayAt b).probe =
        { cfg := true, pbank := (s.rs a).toNat % 2 ^ 7, nslot := (s.rs a).toNat / 2 ^ 7 % 2 ^ 8 + 1,
          ways := 2 ^ ((s.rs a).toNat / 2 ^ 15 % 4), cbank := (s.rs a).toNat / 2 ^ 17 % 2 ^ 7,
          cword := (s.rs a).toNat / 2 ^ 24 % 2 ^ 13, gen := p.gen + 1, ent := [], vict := [] } ∧
      (∀ b', b' ≠ b → t.bayAt b' = s.bayAt b') ∧ SameRegs s t ∧ t.mem = s.mem ∧ SameOtherDies s t) ∧
    Completes (.probeInv bay a) s (fun t =>
      (∀ e ∈ (t.bayAt b).probe.ent, e.2.1 = blk → e.2.2 = 0) ∧
      (∀ e ∈ s.bayAt b |>.probe.ent, e.2.1 ≠ blk → e ∈ (t.bayAt b).probe.ent) ∧
      (∀ b', b' ≠ b → t.bayAt b' = s.bayAt b') ∧ SameRegs s t ∧ t.mem = s.mem ∧ SameOtherDies s t)

/-- R26, R209 and R211 to R214: engine work is served in queue order, one access in a cycle. The request at the head reads its
next word, from the cistern through the side port or from the reservoir, and then writes those sixteen bytes and no others;
when every word is written, or a word may not be used, or its fields are bad, it leaves the queue with its completion word. A
fill that completes makes the entry that awaits it valid; a refused page request leaves the queue with status 3. -/
def Obligations.EngineWorkCompletesInOrder : Prop :=
  (∀ (s : State) (q r : CopyReq) (l : List CopyReq), s.msg = .copy q → s.die.engine = r :: l → r.id = q.id →
    s.mem.wf = true → r.drop = [] → ∀ i ∈ [Instr.copyCompletion, .probeFillCompletion],
    let src := seqWord r.srcA.toNat r.pos
    let dst := seqWord r.dst.toNat r.pos
    let rsrc := resWord r.srcA r.pos
    let rdst := resWord r.dst r.pos
    let good := 1 ≤ r.len ∧ r.len ≤ 2 ^ 20 ∧ resBad r = false
    let goes := fun (r' : CopyReq) (P : State → Prop) => Completes i s fun t => t.die.engine = r' :: l ∧
      ComesAfter s t 1 i (.copy q) ∧ SameRegs s t ∧ P t
    let ends := fun (st : Nat) => s.plainAt (r.caddr / 16 * 16) →
      (s.completes r.domid r.caddr = true → s.sideTaken [r.caddr / 16] = false) → Completes i s fun t =>
        t.die.engine = l ∧ Reports s t r.domid r.caddr r.cval st ∧ SameRegs s t ∧ (∀ x, t.resAt x = s.resAt x) ∧
        (i = .probeFillCompletion → s.completes r.domid r.caddr = true → (s.bayAt r.bay).probe.gen = r.gen →
          SMap.wf (0, 0) (s.bayAt r.bay).probe.ent = true →
          SMap.get (0, 0) (s.bayAt r.bay).probe.ent r.slot = (blockOf r.srcA, 2) →
          SMap.get (0, 0) (t.bayAt r.bay).probe.ent r.slot = (blockOf r.srcA, 1))
    (good → r.got = none → r.pos < r.len → s.copyAllowed r r.pos = true →
      (fromRes r = true → let pz := SMap.get false s.mem.resPz (rsrc / 16)
        goes { r with got := some (rdBytes s.mem.res rsrc 16, pz), st := if pz then 2 else r.st, ready := 0 }
          fun t => t.mem = s.mem) ∧
      (fromRes r = false → s.sideDelay r.ready [src / 16] [src / 16] = none → s.soundWord (src / 16) →
        goes { r with got := some (rdBytes s.mem.cistern (src / 16 * 16) 16, false), ready := 0 } fun t => t.mem = s.mem)) ∧
    (∀ bs bad, good → r.got = some (bs, bad) → bs.length = 16 →
      (r.form = 1 → goes { r with got := none, pos := r.pos + 1, ready := 0 } fun t =>
        (∀ x, t.resAt x = if rdst ≤ x ∧ x < rdst + 16 then bs.getD (x - rdst) 0 else s.resAt x) ∧
        SMap.get false t.mem.resPz (rdst / 16) = bad ∧ ∀ x, t.byteAt x = s.byteAt x) ∧
      (r.form ≠ 1 → s.plainAt dst → s.sideDelay r.ready [dst / 16] [] = none →
        goes { r with got := none, pos := r.pos + 1, ready := 0 } fun t =>
          WritesBytes s t dst bs ∧ SMap.get false t.mem.pz (dst / 16) = bad ∧ ∀ x, t.resAt x = s.resAt x)) ∧
    (good → r.got = none → r.len ≤ r.pos → ends r.st) ∧
    (good → r.got = none → r.pos < r.len → s.copyAllowed r r.pos = false → ends 3) ∧ (¬good → ends 4)) ∧
  (∀ (s : State) (q r : CopyReq) (l : List CopyReq), s.msg = .copy q → s.die.engine = r :: l → r.id ≠ q.id →
    (∃ x ∈ l, x.id = q.id) → ∀ i ∈ [Instr.copyCompletion, .probeFillCompletion],
      Completes i s fun t => t = s.after 1 i (.copy q)) ∧
  (∀ (s : State) (n : Nat) (x : Nat × Nat × Word × Nat), s.die.pageq[n]? = some x → s.drop = [] →
    s.plainAt (x.2.1 / 16 * 16) → Completes (.pageRequestRefusal n) s fun t =>
      t.die.pageq = s.die.pageq.eraseIdx n ∧ Reports s t x.2.2.2 x.2.1 x.2.2.1 3 ∧ SameRegs s t)

/-! ### Sump -/

/-- R215 to R221: an update slot joins or closes the group of its bay, and its counter updates are due four cycles on;
`SUMP.SNAP` and `SUMP.CLR` close every group and clear the counters; `SUMP.RD` presents sixteen of them. -/
def Obligations.SumpSlotsGroupTheirUpdates : Prop :=
  ∀ (s : State) (bays : Bays) (qi qv : BitVec 5) (fmt : BitVec 4) (a c v : BitVec 6) (row : BitVec 4), s.Issues →
    let upd := fun (i : Instr) (op f : Nat) (q : Option (BitVec 5)) => Completes i s fun t =>
      (∀ b : BayIx, bays.getLsbD b.val = true →
        let l := s.sumpPairs b qi q
        let words := pairsOf (fun x => match x with
          | .word a => some a
          | _ => none) l
        let ctrs := pairsOf (fun x => match x with
          | .counter n => some n
          | _ => none) l
        (∃ g, (g ∈ t.ctx.sump ∨ g ∈ t.die.groups) ∧ g.bay = b ∧ g.sop = op ∧ g.fmt = f ∧ words <:+ g.vals) ∧
        (ctrs ≠ [] → DueAt t (s.ctx.tl + 4) (.routingCounterUpdate { sop := op, fmt := f, vals := ctrs }))) ∧
      SameRegs s t ∧ t.ctx.ctr = s.ctx.ctr ∧ t.mem = s.mem ∧ SameOtherDies s t
    upd (.sumpAdd bays qi qv fmt) 0 fmt.toNat (some qv) ∧ upd (.sumpMax bays qi qv fmt) 1 fmt.toNat (some qv) ∧
    upd (.sumpMin bays qi qv fmt) 2 fmt.toNat (some qv) ∧ upd (.sumpCnt bays qi) 3 0 none ∧
    Completes (.sumpSnap a c v) s (fun t => t.ctx.sump = [] ∧ t.ctx.ctr = [] ∧ t.die.snaps = s.die.snaps + 1 ∧
      (∃ x ∈ t.timers, s.now < x.at_ ∧ x.task = ⟨s.cur, .instr .sumpSnapWrite (.snap s.ctx.counters (s.rs a).toNat
        (s.rs c).toNat (s.rs v) s.ctx.domid.toNat s.now [])⟩) ∧ SameRegs s t ∧ t.mem = s.mem ∧ SameOtherDies s t) ∧
    Completes .sumpClr s (fun t => t.ctx.sump = [] ∧ t.ctx.ctr = [] ∧ SameRegs s t ∧ t.mem = s.mem ∧ SameOtherDies s t) ∧
    Completes (.sumpRd qi row) s (fun t => OnlyStreams s t ∧ ∀ b : BayIx, ((s.bayAt b).str qi.toNat).bound = true →
      ((s.bayAt b).str qi.toNat).port = 11 → ∃ ls d, Lands t (s.ctx.tl + 5) (.present b 832 ls (List.replicate 32 true)
        (some d) {}) ∧ d.bay = b ∧ d.q = qi.toNat ∧
        ls = lanes32 ((List.range 16).map fun k => SMap.get 0 s.ctx.ctr (16 * row.toNat + k)))

/-- R218, R219 and R221: a group of INT32 additions to one word of the die adds them to it, modulo 2^32, and changes no other
byte; an update of another die's word leaves as an atomic verb; a counter update changes its counter; a snapshot is written
one word in a cycle, and one that is written is awaited no longer and has its completion word. -/
def Obligations.SumpUpdatesReachTheirTargets : Prop :=
  (∀ (s : State) (g : SumpGroup) (l : List SumpGroup) (a : Nat) (v w : Word32), s.msg = .group g →
    s.die.groups = g :: l → g.vals = [(a, v), (a, w)] → g.sop = 0 → g.fmt = 9 → g.drop = [] → a % 4 = 0 →
    adDie a = s.cur → s.engMayWrite g.dom a = true → s.plainAt a → s.soundWord (a / 16) →
    s.sideDelay g.ready [a / 16] [a / 16] = none → Completes .sumpGroupApply s fun t =>
      t.die.groups = l ∧ t.mem.num a 4 = (s.mem.num a 4 + v.toNat + w.toNat) % 2 ^ 32 ∧
      (∀ x, x < a ∨ a + 4 ≤ x → t.byteAt x = s.byteAt x) ∧ SameRegs s t) ∧
  (∀ (s : State) (g : SumpGroup) (l : List SumpGroup) (a : Nat) (v : Word32), s.msg = .group g →
    s.die.groups = g :: l → g.vals = [(a, v)] → adDie a ≠ s.cur → s.cbFreeFor ≠ 0 →
    let x : Verb := { kind := .atomic, src := s.cur, seq := s.die.ord.cbNext, stamp := s.gtc, domid := g.dom,
                      op := atomicOp a, sop := g.sop, sfmt := g.fmt, vals := [v] }
    Completes .sumpGroupApply s fun t => t.die.groups = l ∧ t.mem = s.mem ∧ SameRegs s t ∧
      (∃ e : CbEntry, t.die.ord.cb = s.die.ord.cb ++ [e] ∧ e.id = s.die.ord.cbNext ∧ e.verb = some x ∧ e.stamp = s.gtc) ∧
      ∃ y ∈ t.timers, s.now < y.at_ ∧ y.task = ⟨adDie a, .instr .atomicVerbArrival (.verb x)⟩) ∧
  (∀ (s : State) (n op fmt : Nat) (v : Word32), SMap.wf 0 s.ctx.ctr = true →
    Completes (.routingCounterUpdate ⟨op, fmt, [(n, v)]⟩) s fun t =>
      (op = 0 → SMap.get 0 t.ctx.ctr n = SMap.get 0 s.ctx.ctr n + v) ∧
      (op = 1 → (SMap.get 0 t.ctx.ctr n).toInt = max (SMap.get 0 s.ctx.ctr n).toInt v.toInt) ∧
      (op = 2 → (SMap.get 0 t.ctx.ctr n).toInt = min (SMap.get 0 s.ctx.ctr n).toInt v.toInt) ∧
      (op = 3 → SMap.get 0 t.ctx.ctr n = SMap.get 0 s.ctx.ctr n + 1) ∧
      (∀ k, k ≠ n → SMap.get 0 t.ctx.ctr k = SMap.get 0 s.ctx.ctr k) ∧ SameRegs s t ∧ t.mem = s.mem) ∧
  (∀ (s : State) (cs : List Word32) (a c : Nat) (v : Word) (dom cycle : Nat), s.msg = .snap cs a c v dom cycle [] →
    s.die.groups = [] → s.die.ord.verbs = [] →
    let k := 64 - cs.length / 4
    let w := seqWord a k
    let opened := a < 2 ^ 30 ∧ adDie a = s.cur ∧ ∀ k, k < 64 → s.engMayWrite dom (seqWord a k) = true
    (cs ≠ [] → (k = 0 → opened) → s.plainAt w → s.sideTaken [w / 16] = false →
      Completes .sumpSnapWrite s fun t => ComesAfter s t 1 .sumpSnapWrite (.snap (cs.drop 4) a c v dom cycle []) ∧
        t.die.snaps = s.die.snaps ∧ SameRegs s t ∧ t.ctx.ctr = s.ctx.ctr ∧
        ∀ x, t.byteAt x = if w ≤ x ∧ x < w + 16
          then .ofNat 8 ((cs.getD ((x - w) / 4) 0).toNat / 2 ^ (8 * ((x - w) % 4))) else s.byteAt x) ∧
    (cs = [] → s.plainAt (c / 16 * 16) → s.sideTaken [c / 16] = false →
      Completes .sumpSnapWrite s fun t => t.die.snaps = s.die.snaps - 1 ∧ Reports s t dom c v 1 ∧ SameRegs s t ∧
        t.ctx.ctr = s.ctx.ctr) ∧
    (cs.length = 256 → ¬opened → s.plainAt (c / 16 * 16) → Completes .sumpSnapWrite s fun t =>
      t.die.snaps = s.die.snaps - 1 ∧ Reports s t dom c v 3 ∧ SameRegs s t ∧ t.ctx.ctr = s.ctx.ctr))

/-! ### Pump slots and pump commands -/

/-- R224, R228 and R279: `PUMP.LD` begins staging and discards an image that has not started; `PUMP.GO` has the staged
table active from the next cycle on; the other slots read the pump, its counters, and the near-memory errors. The first
error where none has occurred is the model's free value (log 100). -/
def Obligations.PumpSlotsTakeEffect : Prop :=
  ∀ (s : State) (d a b : BitVec 6) (h : BitVec 4) (clr : Bool), s.Issues →
    let pump := fun (f : PumpCtx → PumpCtx) => s.modCtx fun c => { c with pump := f c.pump }
    let k := (s.rs a).toNat / 2 ^ 16 % 2 ^ 20
    Completes (.pumpLd a b) s (fun t => ∃ j : StageJob,
      t = pump (fun p => { p with standby := none, stage := some j }) ∧ j.bytes = [] ∧
      (a ≠ 0 → j.addr = some (s.rs a).toNat ∧ j.len = (s.rs b).toNat) ∧
      (a = 0 → j.addr = none ∧ ∀ g, s.ctx.seg = some g → j.block = g.ptab ∧ j.len = g.ptab.length)) ∧
    Completes (.pumpIdle a b) s (fun t => t = s) ∧
    (∀ img x, s.ctx.pump.standby = some img → parseTable img = .ok x → Completes (.pumpGo a) s fun t =>
      t = pump fun p => { p with standby := none, next := some (x, (s.rs a).toNat % 2 ^ 24) }) ∧
    (∀ l, s.tileRows (s.ctx.rh h) (s.rs a).toNat = .ok l → Completes (.pumpDead h a) s fun t =>
      t = pump fun p => { p with kill := p.kill ++ l }) ∧
    GivesScalar (.pumpStat d) s 1 d (fun v => v.toNat % 2 ^ 24 = s.ctx.pump.row % 2 ^ 24 ∧
      v.getLsbD 24 = s.ctx.pump.active.isSome ∧ v.getLsbD 25 = s.ctx.pump.standby.isSome ∧
      v.getLsbD 26 = s.die.pump.idle.isSome ∧ v.getLsbD 27 = s.die.engErr ∧ v.toNat / 2 ^ 28 % 16 = 0 ∧
      v.toNat / 2 ^ 32 = s.die.pump.runs % 2 ^ 32) ∧
    Completes (.pumpActr d a clr) s (fun t =>
      Schedules s t [landing 0 (.sreg d (.ofNat 64 (SMap.get 0 s.die.pump.acnt k)) {})] ∧
      (clr = false → OnlyScheduled s t) ∧
      (clr = true → SMap.wf 0 s.die.pump.acnt = true → SMap.get 0 t.die.pump.acnt k = 0 ∧
        ∀ j, j ≠ k → SMap.get 0 t.die.pump.acnt j = SMap.get 0 s.die.pump.acnt j) ∧
      SameRegs s t ∧ SameSpecial s t ∧ SameBays s t ∧ t.mem = s.mem ∧ SameOtherDies s t) ∧
    Completes (.nmFence d) s (fun t => Schedules s t [landing 0 (.sreg d (.ofNat 64 s.ctx.nmErr) {})] ∧ t.ctx.nmErr = 0 ∧
      t.ctx.nmFirst = none ∧ SameRegs s t ∧ SameSpecial s t ∧ SameBays s t ∧ t.mem = s.mem ∧ SameOtherDies s t) ∧
    (∀ sel : BitVec 2,
      (sel = 0 → GivesScalar (.nmStat d sel) s 1 d fun v =>
        v.toNat % 2 ^ 32 = s.die.pump.nmc.length % 2 ^ 16 ∧ v.toNat / 2 ^ 32 = s.ctx.nmErr % 2 ^ 16) ∧
      (∀ w, sel ≠ 0 → s.ctx.nmFirst = some w → GivesScalar (.nmStat d sel) s 1 d fun v => v = .ofNat 64 w) ∧
      (sel ≠ 0 → s.ctx.nmFirst = none → Completes (.nmStat d sel) s fun t => ∃ v u, v.toNat < 2 ^ 33 ∧
        LandsAt s u s.ctx.tl (.sreg d v {}) ∧ t = { u with free := s.free + 1 }))

/-- R281, R291, R293 and R309: in a row of the table, ACT opens its bank as its row translates, PRE and PREA close banks
and a row that was declared dead while open is then dead, and REFR pays the debt of its bank. -/
def Obligations.PumpCommandsOpenCloseAndRefreshBanks : Prop :=
  ∀ (s : State) (b : BankId) (rowcol : BitVec 18) (pc : BitVec 6), s.die.rows = true →
    SMap.wf .closed s.die.pump.bank = true →
    let n := bankNum b
    let frame := fun (t : State) => SameRegs s t ∧ SameSpecial s t ∧ SameBays s t ∧ t.mem = s.mem ∧ SameOtherDies s t
    (∀ x, s.translate true n rowcol.toNat s.ctx.tabSwz = .ok x → Completes (.act b rowcol) s fun t =>
      t.die.pump.bankAt n = s.die.pump.opened n x ∧ (∀ k, k ≠ n → t.die.pump.bankAt k = s.die.pump.bankAt k) ∧ frame t) ∧
    Completes (.pre b) s (fun t => t.die.pump.bankAt n = .closed ∧
      (∀ k, k ≠ n → t.die.pump.bankAt k = s.die.pump.bankAt k) ∧
      (∀ r l h q m d w, s.die.pump.bankAt n = .row r l h q m d w true → SMap.wf false s.die.pump.dead = true →
        t.die.pump.isDead n r = true) ∧ frame t) ∧
    Completes (.prea pc) s (fun t => (∀ k, k / 16 = pc.toNat → t.die.pump.bankAt k = .closed) ∧
      (∀ k, k / 16 ≠ pc.toNat → t.die.pump.bankAt k = s.die.pump.bankAt k) ∧ frame t) ∧
    (SMap.wf 0 s.die.pump.debtOf = true → Completes (.refr b rowcol) s fun t =>
      t.die.pump.debtAt n = max (s.die.pump.debtAt n - 1) (-(s.die.pump.refpost : Int)) ∧
      (∀ k, k ≠ n → t.die.pump.debtAt k = s.die.pump.debtAt k) ∧ t.die.pump.bank = s.die.pump.bank ∧ frame t) ∧
    Completes .pumpSkip s (fun t => t = s)

/-- R283 to R285 and R309: an RD of an open row returns in real time within 47 cycles and is presented 48 pump cycles on, with
the poison of its units; one of a void bank returns marked as not resident. A WR reaches the stack six cycles on, where it
writes its 64 bytes and no others. -/
def Obligations.PumpDataMovesBetweenRowsAndBays : Prop :=
  (∀ (s : State) (b : BankId) (col : BitVec 5) (caddr : BitVec 32), s.die.rows = true →
    let frame := fun (t : State) => SameRegs s t ∧ SameSpecial s t ∧ SameBays s t ∧ t.mem = s.mem ∧ SameOtherDies s t
    let k := (s.ctx.pump.ret.filter fun x => x.due == s.ctx.rtl + 48 && x.bay == adBay caddr.toNat).length
    let d : RdData :=
      { bay := adBay caddr.toNat, k := k, word := adWord caddr.toNat, due := s.ctx.rtl + 48, bank := b, row := 0,
        col := col.toNat, data := 0, pz := (false, false), nr := false, ctx := s.ctx.ctxNo.toNat }
    (∀ (r hm q m : Nat) (l : Option (Nat × Nat)) (x w z : Bool), s.die.pump.bankAt (bankNum b) = .row r l hm q m x w z →
      let e := { d with row := r, seq := s.die.pump.colSeq }
      Completes (.rd b col caddr) s (fun t => t.ctx.pump.ret = s.ctx.pump.ret ++ [e] ∧
        t.die.pump.rds = s.die.pump.rds ++ [e] ∧
        (∃ y ∈ t.timers, s.now < y.at_ ∧ y.at_ ≤ s.now + 47 ∧ y.task = ⟨s.cur, .instr .rdDataReturn (.rdData e)⟩) ∧
        frame t) ∧
      (∀ y, s.msg = .wrData y → Completes (.wr b col caddr) s fun t =>
        (∃ p ∈ t.ctx.pend, p.at_ = s.ctx.tl + 6 ∧ p.instr = .pumpWrSend ∧
          p.msg = .wrData { y with row := r, seq := s.die.pump.colSeq, leaf := l }) ∧
        RowRevived s t (bankNum b) r x ∧ SameRegs s t ∧ SameSpecial s t ∧ SameBays s t ∧ SameOtherDies s t)) ∧
    (∀ l hm m, s.die.pump.bankAt (bankNum b) = .void l hm m → Completes (.rd b col caddr) s fun t =>
      t.ctx.pump.ret = s.ctx.pump.ret ++ [{ d with nr := true }] ∧ t.die.pump.rds = s.die.pump.rds ∧ frame t)) ∧
  (∀ (s : State) (x : WrData), s.msg = .wrData x → SMap.wf 0 s.mem.hbm = true → SMap.wf false s.mem.hbmPz = true →
    s.die.pump.nmc = [] → s.die.pump.rds = [] →
    let a := hbmKey s.cur.val (bankNum x.bank) x.row (32 * x.col)
    Completes .pumpWrSend s fun t => SameRegs s t ∧
      (∀ k, SMap.get 0 t.mem.hbm k =
        if a ≤ k ∧ k < a + 64 then (natBytes x.data.toNat 64).getD (k - a) 0 else SMap.get 0 s.mem.hbm k) ∧
      SMap.get false t.mem.hbmPz (unitKey s.cur.val (bankNum x.bank) x.row x.col) = x.pz.1 ∧
      SMap.get false t.mem.hbmPz (unitKey s.cur.val (bankNum x.bank) x.row (x.col + 1)) = x.pz.2 ∧
      (∀ w, w ∈ t.die.pump.wrs ↔ w ∈ s.die.pump.wrs ∧ w.1 ≠ x.seq) ∧
      t.mem.cistern = s.mem.cistern ∧ t.mem.res = s.mem.res ∧ t.mem.host = s.mem.host) ∧
  (∀ (s : State) (x : RdData), s.msg = .rdData x → s.die.pump.nmc = [] → s.die.pump.rds = [x] →
    s.die.pump.blocked x.bank.pc.toNat x.seq = false → x.ctx = s.ctx.ctxNo.toNat → (∀ l ∈ s.disp.launches, l.saved = []) →
    let b := bankNum x.bank
    let poison := fun u => SMap.get false s.mem.hbmPz (unitKey s.cur.val b x.row (x.col + u)) && !s.die.pump.isDead b x.row
    (∀ u, u ≤ 1 → SMap.get .ok s.mem.hbmErr (unitKey s.cur.val b x.row (x.col + u)) = .ok) →
    Completes .rdDataReturn s fun t => SameRegs s t ∧ t.mem = s.mem ∧ SameOtherDies s t ∧ t.die.pump.rds = [] ∧
      (∀ e ∈ t.ctx.pump.ret, e.due = x.due → e.bay = x.bay → e.k = x.k → e.pz = (poison 0, poison 1) ∧
        ∀ k, k < 64 → (natBytes e.data.toNat 64).getD k 0 =
          if s.die.pump.isDead b x.row = true then 0 else SMap.get 0 s.mem.hbm (hbmKey s.cur.val b x.row (32 * x.col) + k)) ∧
      (t.ctx.pump.ret.filter fun e => !(e.due == x.due && e.bay == x.bay && e.k == x.k)) =
        s.ctx.pump.ret.filter fun e => !(e.due == x.due && e.bay == x.bay && e.k == x.k)) ∧
  (∀ s : State, Completes .pumpRdPresent s fun t =>
    t.ctx.pump.ret = (s.ctx.pump.ret.filter fun x => s.ctx.rtl < x.due) ∧ SameRegs s t ∧ SameSpecial s t ∧ SameBays s t ∧
    t.mem = s.mem ∧ SameOtherDies s t ∧
    ∀ b : BayIx, (poursAt t (s.ctx.tl + 6) b).Perm (poursAt s (s.ctx.tl + 6) b ++
      (s.ctx.pump.ret.filter fun x => x.due ≤ s.ctx.rtl && x.bay == b).flatMap rdLanes)) ∧
  ∀ x : RdData, (rdLanes x).length = 32 ∧ ∀ k, k < 32 → ∃ l, (rdLanes x)[k]? = some l ∧ l.lane = 864 + 32 * x.k + k ∧
    l.v = (x.data >>> (16 * k)).setWidth 16 ∧ l.word = x.word ∧ l.banks = none ∧ l.nr = x.nr ∧
    l.pz = if k < 16 then x.pz.1 else x.pz.2

/-- R225 to R227: a near-memory command of a row on an open row waits behind those before it and is due within tNM; FILL
writes its pattern to its units, and FADE, AXPY, ADD and SCALE the elements that they compute from the unit and their
source. -/
def Obligations.NearMemoryCommandsAreQueuedAndPerformed : Prop :=
  (∀ (s : State) (n : NmcOp) (r hm q m : Nat) (l : Option (Nat × Nat)) (d w z : Bool), s.die.rows = true →
    s.die.pump.bankAt (bankNum n.bank) = .row r l hm q m d w z →
    ∀ x ∈ [(Instr.nmcFade n, 0), (.nmcAxpy n, 1), (.nmcAdd n, 2), (.nmcScale n, 3), (.nmcFill n, 4)],
      let j : NmcJob := { op := x.2, bank := n.bank, row := r, col := n.col.toNat, count := n.count.toNat + 1,
                          caddr := n.caddr.toNat, a := n.a, b := n.b, ctx := s.ctx.ctxNo.toNat, seq := s.die.pump.colSeq,
                          leaf := l }
      Completes x.1 s fun t => t.die.pump.nmc = s.die.pump.nmc ++ [j] ∧
        (∃ y ∈ t.timers, y.task = ⟨s.cur, .instr .nmcCompletion (.nmc j)⟩ ∧ s.now < y.at_ ∧
          y.at_ ≤ s.now + max 1 (s.die.pump.reg 15)) ∧ RowRevived s t (bankNum n.bank) r d ∧
        SameRegs s t ∧ SameSpecial s t ∧ SameBays s t ∧ SameOtherDies s t) ∧
  (∀ (s : State) (j : NmcJob), s.msg = .nmc j → s.die.pump.nmc = [j] → s.die.pump.rds = [] →
    s.die.pump.nmcBlocked j = false → SMap.wf 0 s.mem.hbm = true →
    let b := bankNum j.bank
    let a := hbmKey s.cur.val b j.row (32 * j.col)
    let u := unitKey s.cur.val b j.row j.col
    let src := fun k => seqWord (j.caddr / 32 * 32) k
    let elem := fun e => bytesNat (rdBytes s.mem.cistern (src (e / 4) + 4 * (e % 4)) 4)
    (j.op = 4 → Completes .nmcCompletion s fun t => t.die.pump.nmc = [] ∧ SameRegs s t ∧
      t.mem.cistern = s.mem.cistern ∧ ∀ k, SMap.get 0 t.mem.hbm k =
        if a ≤ k ∧ k < a + 32 * j.count then (natBytes j.a.toNat 4).getD ((k - a) % 4) 0 else SMap.get 0 s.mem.hbm k) ∧
    (j.op ≤ 3 → j.count = 1 → SMap.get false s.mem.hbmPz u = false → SMap.get .ok s.mem.hbmErr u = .ok →
      (j.op ≤ 2 → s.soundWord (src 0 / 16) ∧ s.soundWord (src 1 / 16)) →
      Completes .nmcCompletion s fun t => t.die.pump.nmc = [] ∧ SameRegs s t ∧ t.mem.cistern = s.mem.cistern ∧
        (∀ e, e < 8 → bytesNat (rdBytes t.mem.hbm (a + 4 * e) 4) =
          nmcNew j.op (bytesNat (rdBytes s.mem.hbm (a + 4 * e) 4)) (if j.op = 3 then 0 else elem e) j.a.toNat j.b.toNat %
            2 ^ 32) ∧
        ∀ k, k < a ∨ a + 32 ≤ k → SMap.get 0 t.mem.hbm k = SMap.get 0 s.mem.hbm k))

/-- R224 and R289 to R291: a staged table image is ready when it has been read; an idle image takes its place when it holds
nothing that an idle image may not hold. The idle sequence records the open banks, issues the commands of its rows as their
constraints allow, opens the recorded banks again, and hands the stack back; every debt rises by one at an accrual. -/
def Obligations.StagingAndTheIdleSequenceRun : Prop :=
  (∀ (s : State) (j : StageJob),
     (s.msg = .stage false → s.ctx.pump.stage = some j → Completes .pumpStageComplete s fun t =>
       t = s.modCtx fun c => { c with pump := { c.pump with stage := none, standby := some j.bytes } }) ∧
     (s.msg = .stage true → s.ctx.pump.stageIdle = some j → Completes .pumpStageComplete s fun t =>
       t.ctx.pump.stageIdle = none ∧
       (∀ x, parseTable j.bytes = .ok x → x.idleOk = true → t.die.pump.idleTab = some x) ∧
       ((∀ x, parseTable j.bytes = .ok x → x.idleOk = false) → t.die.pump.idleTab = s.die.pump.idleTab) ∧
       (∀ w ∈ t.ctx.wait, ∀ a b, w.instr = .pumpIdle a b → w.done = true ∧ (w.value = 0 ↔ idleFault j.bytes = none)) ∧
       SameRegs s t ∧ SameSpecial s t ∧ SameBays s t ∧ t.mem = s.mem ∧ SameOtherDies s t)) ∧
  (∀ (s : State) (r : IdleRun),
     let frame := fun (t : State) => SameRegs s t ∧ SameSpecial s t ∧ SameBays s t ∧ t.mem = s.mem ∧ SameOtherDies s t
     (s.die.pump.idle = none → s.die.pump.idleTab.isSome = true → Completes .idleSequenceEntry s fun t =>
       t.ctx.pump.openRec = s.die.pump.bank ∧
       t.die.pump.idle = some { row := 0, left := s.die.pump.idleRow 0, start := s.now } ∧ frame t) ∧
     (s.die.pump.idle = some r → r.phase = .run →
       (r.left = [] → Completes .idleRowIssue s fun t => frame t ∧
         (r.ready = false → t.die.pump.idle =
           some { r with row := s.die.pump.idleNext r.row, left := s.die.pump.idleRow (s.die.pump.idleNext r.row) }) ∧
         (r.ready = true → t.todo = ⟨s.cur, .instr .idleRunEnd .none⟩ :: s.todo)) ∧
       (∀ w b x, r.left = [w] → decodePump w none = .ok (.refr b x) →
         (s.idleMeets (.refr b x) = false → Completes .idleRowIssue s fun t => t.die.pump.idle = some r ∧ frame t) ∧
         (s.idleMeets (.refr b x) = true → SMap.wf 0 s.die.pump.debtOf = true → Completes .idleRowIssue s fun t =>
           t.die.pump.debtAt (bankNum b) = max (s.die.pump.debtAt (bankNum b) - 1) (-(s.die.pump.refpost : Int)) ∧
           frame t))) ∧
     (s.die.pump.idle = some r → r.phase = .reopen [] → Completes .idleRunEnd s fun t =>
       t.die.pump.idle = some { r with phase := .settle } ∧ frame t) ∧
     (∀ b o l, s.die.pump.idle = some r → r.phase = .reopen ((b, o) :: l) → SMap.wf .closed s.die.pump.bank = true →
       s.idleMeets (.act ⟨.ofNat 6 (b / 16), .ofNat 2 (b / 4), .ofNat 2 b⟩ 0) = true → Completes .idleRunEnd s fun t =>
         t.die.pump.bankAt b = s.die.pump.reopened b o ∧ t.die.pump.idle = some { r with phase := .reopen l } ∧ frame t) ∧
     Completes .tableResume s (fun t => t.die.pump.idle = none ∧ t.ctx.pump.openRec = [] ∧ t.die.pump.held = 0 ∧
       t.die.pump.runs = (s.die.pump.runs + 1) % 2 ^ 32 ∧ t.die.pump.bank = s.die.pump.bank ∧ frame t) ∧
     Completes .refreshDebtAccrual s (fun t => (∀ b, t.die.pump.debtAt b = s.die.pump.debtAt b + 1) ∧
       s.die.pump.debtPeak ≤ t.die.pump.debtPeak ∧ t.die.pump.bank = s.die.pump.bank ∧ frame t))

/-! ### The control slot -/

/-- R231 to R239, R242 and R260: the branches, the loop slots, `EXIT` and `TRET` say which bundle is next, and change of the
registers only what their rules name: the loop slots the loop levels, `TRET` the privilege and the bits IN and EXW. -/
def Obligations.ControlSlotsChooseTheNextBundle : Prop :=
  ∀ (s : State) (tgt bset end_ : BitVec 8) (m e lvl : BitVec 3) (neg skip nodbrk : Bool) (a : BitVec 6) (hops : BitVec 2)
    (maxt : BitVec 21) (code : BitVec 16), s.Issues →
    let rest := fun (t : State) => SameRegs s t ∧ SameBays s t ∧ t.mem = s.mem ∧ SameOtherDies s t ∧ t.die.ctl = true
    let goes := fun (t : State) (va idx hops : Nat) => rest t ∧ ∃ x : Target, t.ctx.target = some x ∧ x.va = va ∧
      x.idx = idx ∧ x.hops = hops
    let tested := fun (b : BayIx) (k : Nat) => bset.getLsbD b.val = true ∧ k < 128 ∧
      (e = 0 ∨ ((s.bayAt b).mask e).getLsbD k = true)
    let taken := (∃ b k, tested b k) ∧ ∀ b k, tested b k → ((s.bayAt b).mask m).getLsbD k = !neg
    let n := (s.rs a).toNat % 2 ^ 32
    let l := s.ctx.level lvl.toNat
    let count := match l.stCount with
      | some x => x
      | none => l.count - 1
    let butLoops := fun (t : State) => SameSpecial s (t.modCtx fun c => { c with loops := s.ctx.loops })
    let onlyInner := fun (t : State) (from_ : Nat) => butLoops t ∧ ∀ k, k < 6 →
      (k < lvl.toNat → t.ctx.level k = s.ctx.level k) ∧
      (from_ ≤ k → t.ctx.level k = { s.ctx.level k with act := false })
    Completes (.br tgt) s (fun t => goes t s.ctx.segVa tgt.toNat 0 ∧ SameSpecial s t) ∧
    (taken → Completes (.brv tgt bset m e neg) s fun t => goes t s.ctx.segVa tgt.toNat 0 ∧ SameSpecial s t) ∧
    (¬taken → Completes (.brv tgt bset m e neg) s fun t => t = s) ∧
    Completes .jnext s (fun t => goes t s.ctx.segVa 0 1 ∧ SameSpecial s t) ∧
    Completes (.jseg a tgt) s (fun t => goes t (s.rs a).toNat tgt.toNat 0 ∧ SameSpecial s t) ∧
    (lvl.toNat < 6 → n = 0 → Completes (.loop lvl a end_ hops maxt) s fun t =>
      goes t s.ctx.segVa (end_.toNat + 1) hops.toNat ∧ SameSpecial s t) ∧
    (lvl.toNat < 6 → n ≠ 0 → Completes (.loop lvl a end_ hops maxt) s fun t =>
      goes t s.ctx.segVa (s.ctx.idx + 1) 0 ∧ butLoops t ∧
      (∀ k, k < 6 → k ≠ lvl.toNat → t.ctx.level k = s.ctx.level k) ∧
      (t.ctx.level lvl.toNat).count.toNat = n ∧ (t.ctx.level lvl.toNat).maxt = maxt ∧ (t.ctx.level lvl.toNat).iter = 0 ∧
      (t.ctx.level lvl.toNat).begin.toNat = (s.ctx.idx + 1) % 256 ∧ (t.ctx.level lvl.toNat).endx = end_ ∧
      (t.ctx.level lvl.toNat).hops = hops ∧ (t.ctx.level lvl.toNat).rem = hops ∧ (t.ctx.level lvl.toNat).act = true) ∧
    (lvl.toNat < 6 → Completes (.lbrk lvl) s fun t =>
      goes t s.ctx.segVa (l.endx.toNat + 1) l.rem.toNat ∧ onlyInner t lvl.toNat) ∧
    (lvl.toNat < 6 → count = 0 → Completes (.lcont lvl) s fun t =>
      goes t s.ctx.segVa (l.endx.toNat + 1) l.rem.toNat ∧ onlyInner t (lvl.toNat + 1) ∧
      (t.ctx.level lvl.toNat).act = false ∧ (t.ctx.level lvl.toNat).iter = l.iter + 1) ∧
    (lvl.toNat < 6 → count ≠ 0 → Completes (.lcont lvl) s fun t =>
      goes t ((l.stBseg.getD l.bseg).toNat * 128) (l.stBegin.getD l.begin).toNat 0 ∧ onlyInner t (lvl.toNat + 1) ∧
      (t.ctx.level lvl.toNat).count = count ∧ (t.ctx.level lvl.toNat).iter = l.iter + 1 ∧
      (l.maxt ≤ l.iter + 1 → s.ctx.trap = none → ∃ r, t.ctx.trap = some r ∧ r.cause = 0x04) ∧
      (¬l.maxt ≤ l.iter + 1 → t.ctx.trap = s.ctx.trap)) ∧
    Completes (.exit code) s (fun t => rest t ∧ SameSpecial s t ∧ t.ctx.exit = some code ∧ t.ctx.exiting = true) ∧
    Completes (.tret skip nodbrk) s (fun t => rest t ∧ t.ctx.priv = s.ctx.ppl.toNat ∧ t.ctx.inH = false ∧
      t.ctx.exw = false ∧ t.ctx.exiting = s.ctx.exw ∧ t.ctx.hold = s.ctx.owed ∧ t.ctx.owed = 0 ∧
      SameSpecial s (t.modCtx fun c => { c with priv := s.ctx.priv, inH := s.ctx.inH, exw := s.ctx.exw }) ∧
      (s.ctx.exw = true → t.ctx.target = none) ∧ (s.ctx.exw = false → ∃ x, t.ctx.target = some x ∧
        x.va = s.ctx.tepc.toNat / 2 ^ 8 * 128 ∧
        x.idx = s.ctx.tepc.toNat % 2 ^ 8 + (if skip = true then 1 else 0) ∧ x.hops = 0))

/-! ### Control registers -/

/-- R254 and R235: a CSR slot gives the old value with latency 1 and has the write, with its own rule, due at the end of its
cycle. A write to a loop level is staged until the next back-edge test when the level is active, and acts at once when it
is not; MAXT of an active level is not written. -/
def Obligations.ControlRegisterSlotsReadAndWrite : Prop :=
  (∀ (s : State) (d a : BitVec 6) (csr : BitVec 12), s.Issues →
     let old := s.csrRead csr.toNat
     let v := s.rs a
     let writes := fun (i : Instr) (how : BitVec 2) (new : Word) => Completes i s fun t => OnlyScheduled s t ∧
       Schedules s t [landing 0 (.sreg d old {}),
         (0, if 0x040 ≤ csr.toNat ∧ csr.toNat ≤ 0x057 then .loopLevelWrite csr new else .registerWrite csr how v)]
     GivesScalar (.csrr d csr) s 1 d (fun x => x = old) ∧
     writes (.csrw d a csr) 1 v ∧ writes (.csrs d a csr) 2 (old ||| v) ∧ writes (.csrc d a csr) 3 (old &&& ~~~v)) ∧
  (∀ (s : State) (k : Nat) (v : Word), k < 6 →
     let l := s.ctx.level k
     let write := fun (r : Nat) (x : Level) => Completes (.loopLevelWrite (.ofNat 12 (0x040 + 4 * k + r)) v) s fun t =>
       t.ctx.level k = x ∧ (∀ j, j < 6 → j ≠ k → t.ctx.level j = s.ctx.level j) ∧ SameRegs s t ∧ SameBays s t ∧
       SameSpecial s (t.modCtx fun c => { c with loops := s.ctx.loops }) ∧ t.mem = s.mem ∧ SameOtherDies s t
     let lo : BitVec 8 := v.setWidth 8
     (l.act = false → write 0 { l with count := v.setWidth 32 } ∧ write 1 { l with maxt := v.setWidth 21 } ∧
       write 2 { l with begin := lo, bseg := (v >>> 8).setWidth 56 } ∧
       write 3 { l with endx := lo, hops := (v >>> 8).setWidth 2 }) ∧
     (l.act = true → write 0 { l with stCount := some (v.setWidth 32) } ∧ write 1 l ∧
       write 2 { l with stBegin := some lo, stBseg := some ((v >>> 8).setWidth 56) } ∧
       write 3 { l with stEnd := some lo, stHops := some ((v >>> 8).setWidth 2) }))

/-- R35, R50, R70, R172, R217, R235, R254, R258, R288 and R401: what a write does to a register, and that it does nothing
else. -/
def Obligations.RegisterWritesChangeTheirFields : Prop :=
  ∀ (s : State) (how : BitVec 2) (v : Word),
    let new := fun (n : Nat) => csrValue how.toNat (s.csrRead n) v
    let write := fun (n : BitVec 12) (t : State) => Completes (.registerWrite n how v) s (fun u => u = t)
    let ctx := fun (n : BitVec 12) (f : Ctx → Ctx) => write n (s.modCtx f)
    ctx 0x010 (fun c => { c with rm := (new 0x010).setWidth 2, fmtchk := (new 0x010).getLsbD 2 }) ∧
    (how = 3 → ctx 0x011 fun c => c) ∧
    (how ≠ 3 → ctx 0x011 fun c => { c with fpstat :=
      { iv := c.fpstat.iv && !v.getLsbD 0, of := c.fpstat.of && !v.getLsbD 1, uf := c.fpstat.uf && !v.getLsbD 2,
        nx := c.fpstat.nx && !v.getLsbD 3, sa := c.fpstat.sa && !v.getLsbD 4 } }) ∧
    ctx 0x012 (fun c => { c with check := (new 0x012).getLsbD 0 }) ∧
    ctx 0x030 (fun c => { c with win := (new 0x030).setWidth 2 }) ∧
    (how ≠ 3 → ctx 0x031 fun c => { c with sumpst := c.sumpst &&& ~~~(v.setWidth 3) }) ∧
    ctx 0x064 (fun c => { c with tepc := new 0x064 }) ∧
    ctx 0x065 (fun c => { c with ppl := (new 0x065).setWidth 2 }) ∧
    ctx 0x06A (fun c => { c with tvec := new 0x06A }) ∧
    ctx 0x06B (fun c => { c with dbgen := (new 0x06B).getLsbD 0 }) ∧
    (∀ k : Fin 4, ctx (0x066 + .ofNat 12 k.val) fun c => { c with tscr := c.tscr.set k.val (new (0x066 + k.val)) }) ∧
    (∀ n ∈ [0x013, 0x060, 0x061, 0x062, 0x063, 0x06C, 0x140, 0x141, 0x142, 0x143, 0x144, 0x145, 0x147],
      write (.ofNat 12 n) s) ∧
    write 0x080 (s.modPump fun p => { p with
      idleThresh := max 16 ((new 0x080).toNat % 2 ^ 16), refpost := (new 0x080).toNat / 2 ^ 16 % 2 ^ 4 }) ∧
    write 0x085 (s.modPump fun p => { p with trefw := (new 0x085).toNat % 2 ^ 32 }) ∧
    write 0x0C0 (s.modOrd fun o => { o with
      qlog2 := (new 0x0C0).toNat % 2 ^ 4, cbwait := (new 0x0C0).toNat / 2 ^ 8 % 2 ^ 8 }) ∧
    write 0x0C8 (s.modDie fun d => { d with win := { d.win with wmbase := (new 0x0C8).setWidth 32 } }) ∧
    write 0x0CE (s.modDie fun d => { d with win := { d.win with treal := (new 0x0CE).toNat % 2 ^ 32 } }) ∧
    write 0x109 (s.modErr fun e => { e with
      limit := (new 0x109).toNat % 2 ^ 24, limEn := (new 0x109).getLsbD 24 })

/-! ### Sync and system slots -/

/-- R243 to R249, R252, R253, R259, R261 and R262: what a sync or system slot does once its wait is over. `REALIGN` gives the
mean of the offsets that it received, and the counter is slewed back by as much, two die-clock cycles a tick. `DOMSW` clears
what R262 lists and keeps the registers of levels S and F; a result in flight for a cleared register goes with it (DEDUCED,
log 90). -/
def Obligations.SyncAndSystemSlotsTakeEffect : Prop :=
  (∀ (s : State) (d a v : BitVec 6) (cond : BitVec 2) (ld st eng tl : Bool) (n : BitVec 4) (code : BitVec 16), s.Issues →
     GivesScalar (.waitA d a v cond) s 1 d (fun x => x.toNat = s.mem.num ((s.rs a).toNat / 8 % 2 ^ 29 * 8) 8) ∧
     Completes (.fence ld st eng tl) s (fun t => t = s) ∧
     Completes (.fenceRc d) s (fun t => t.ctx.dropc = 0 ∧ t.ctx.rcBroke = none ∧ t.ctx.rcDrop = none ∧ SameRegs s t ∧
       SameSpecial s t ∧ SameBays s t ∧ t.mem = s.mem ∧ SameOtherDies s t ∧
         ∃ x : Word, Schedules s t [landing 0 (.sreg d x {})] ∧
         (x.getLsbD 0 = (s.ctx.rcBroke.isSome || s.ctx.rcDrop.isSome)) ∧ x.toNat / 2 ^ 32 = s.ctx.dropc % 2 ^ 32 ∧
         (∀ p, s.ctx.rcBroke = some p ∨ s.ctx.rcBroke = none ∧ s.ctx.rcDrop = some p →
           x.toNat / 2 ^ 8 % 2 ^ 16 = p % 2 ^ 16)) ∧
     GivesScalar (.publish d a) s 1 d (fun x => x = s.ctx.waitValue (.publish d a)) ∧
     GivesScalar (.qwait d n) s 1 d (fun x => x = s.ctx.waitValue (.qwait d n)) ∧
     Completes (.bar a) s (fun t => t = s) ∧
     GivesScalar (.rdgtc d) s 1 d (fun x => x = .ofNat 64 s.gtc) ∧
     GivesScalar (.goWait d) s 1 d (fun x => x = .ofNat 64 s.gtc) ∧
     Completes .nop s (fun t => t = s) ∧
     Completes (.dbrk code) s (fun t => t = s) ∧
     Completes (.trap code) s (fun t => (s.ctx.trap = none → ∃ r, t.ctx.trap = some r ∧ r.cause = 0x14 ∧
         r.aux = code.toNat ∧ r.va = s.ctx.segVa ∧ r.idx = s.ctx.idx) ∧
       SameRegs s t ∧ SameSpecial s t ∧ SameBays s t ∧ t.mem = s.mem ∧ SameOtherDies s t) ∧
     Completes (.tlbSync a) s (fun t => t.die.stored = [] ∧
       t.die.tlb = (if (s.rs a).toNat % 2 ^ 16 = 0 then [] else s.die.tlb) ∧ t.ctx = s.ctx ∧ t.mem = s.mem ∧
       SameOtherDies s t) ∧
     let id := s.domswId a
     (s.ctx.waited (.domsw a) = false → id = (s.rs a).setWidth 16) ∧
     (id = s.ctx.domid → Completes (.domsw a) s fun t => t = s) ∧
     (id ≠ s.ctx.domid → Completes (.domsw a) s fun t => t.ctx.domid = id ∧ (∀ r, t.ctx.rs r = 0) ∧
       (∀ r : BitVec 4, r ≠ 0 → t.ctx.rp r = false) ∧ (∀ r, t.ctx.rh r = 0) ∧ t.ctx.rm = 0 ∧ t.ctx.fmtchk = false ∧
       t.ctx.fpstat = {} ∧ t.ctx.win = 0 ∧ t.ctx.sumpst = 0 ∧ t.ctx.ctr = [] ∧ t.ctx.hoist = [] ∧
       (∀ k, k < 6 → t.ctx.level k = {}) ∧
       (∀ b : BayIx, let x := t.bayAt b
         x.v = [] ∧ x.o = [] ∧ x.k = [] ∧ x.full = 0 ∧ (∀ r, x.mask r = 0) ∧ x.carry = Vector.replicate 32 0 ∧ x.mxu = {} ∧
         (∀ q, x.str q = {}) ∧ x.stn = [] ∧ x.probe = {}) ∧
       (∀ p, p ∈ t.ctx.pend ↔ p ∈ s.ctx.pend ∧ outlivesDomain p.instr = true) ∧ t.ctx.priv = s.ctx.priv ∧
       t.ctx.tvec = s.ctx.tvec ∧ t.ctx.tscr = s.ctx.tscr ∧ t.ctx.trec = s.ctx.trec ∧ t.ctx.tepc = s.ctx.tepc ∧
       t.ctx.ppl = s.ctx.ppl ∧ t.ctx.inH = s.ctx.inH ∧ t.ctx.exw = s.ctx.exw ∧ t.ctx.dbgen = s.ctx.dbgen ∧
       t.ctx.check = s.ctx.check ∧ t.mem = s.mem ∧ SameOtherDies s t)) ∧
  (∀ (s : State) (d : BitVec 6) (m : Int), s.Issues → s.die.offsets ≠ [] →
     (s.die.offsets.map Prod.snd).sum = m * s.die.offsets.length →
     Completes (.realign d) s fun t => Schedules s t [landing 0 (.sreg d (.ofInt 64 m) {})] ∧ t.slew = -2 * m ∧
       t.fab.lastra = s.gtc ∧ t.fab.unsync = false ∧ t.die.offsets = [] ∧ t.gtc = s.gtc ∧
       SameRegs s t ∧ SameSpecial s t ∧ SameBays s t ∧ t.mem = s.mem ∧ SameOtherDies s t)

/-- R250 and R251: `SHADOW` gives a set with zeroed shadows or bit 63, and `SHADOW.FREE` frees a set without exchange. -/
def Obligations.ShadowSetsAreMadeAndFreed : Prop :=
  ∀ (s : State) (d a n : BitVec 6), s.Issues →
    (s.shadowAlloc (s.rs a) (s.rs n) = none →
      GivesScalar (.shadow d a n) s 1 d (fun v => v.toNat = 2 ^ 63)) ∧
    (∀ k maps, s.shadowAlloc (s.rs a) (s.rs n) = some (k, maps) → s.mem.wf = true → Completes (.shadow d a n) s fun t =>
      Schedules s t [landing 0 (.sreg d (.ofNat 64 k) {})] ∧
      t.die.sets = s.die.sets ++ [{ id := k, maps := maps, owner := s.ctx.ctxNo.toNat }] ∧
      (∀ x, t.byteAt x = if maps.any (fun m => granAddr s.cur.val m.2 ≤ x && x < granAddr s.cur.val m.2 + 8192) = true
        then 0 else s.byteAt x) ∧ SameRegs s t ∧ SameSpecial s t ∧ SameBays s t ∧ SameOtherDies s t) ∧
    Completes (.shadowFree a) s (fun t =>
      t.die.sets = (s.die.sets.filter fun x => x.id != (s.rs a).toNat % 16) ∧ t.mem = s.mem ∧ SameRegs s t ∧
      SameSpecial s t ∧ SameBays s t ∧ SameOtherDies s t)

/-! ### The end of a timeline cycle -/

/-- R50, R60, R123, R148, R151, R152 and R309: what a result that lands writes: its register, the latch and the full bit of
a vector result, the operand-file entries that a last read frees, the LOST bit of a leaf; and the flags, and nothing else. -/
def Obligations.LandedResultsWriteTheirRegisters : Prop :=
  ∀ s : State,
  let flags := fun (t : State) (f : Flags) => t.ctx.fpstat = orFlags s.ctx.fpstat f ∧
    SameSpecial s (t.modCtx fun c => { c with fpstat := s.ctx.fpstat }) ∧ t.ctx.pend = s.ctx.pend ∧ t.mem = s.mem ∧
    SameOtherDies s t
  (∀ (r : BitVec 6) (v : Word) (f : Flags), Completes (.timelineResultLanding (.sreg r v f)) s fun t =>
    t.ctx.rs r = (if r = 0 then 0 else v) ∧ (∀ q, q ≠ r → t.ctx.rs q = s.ctx.rs q) ∧ (∀ q, t.ctx.rp q = s.ctx.rp q) ∧
    (∀ q, t.ctx.rh q = s.ctx.rh q) ∧ t.ctx.hoist = (s.ctx.hoist.filter fun e => e.d != r.toNat) ∧ flags t f ∧ SameBays s t) ∧
  (∀ (r : BitVec 4) (v : Bool) (f : Flags), Completes (.timelineResultLanding (.preg r v f)) s fun t =>
    t.ctx.rp r = (if r = 0 then true else v) ∧ (∀ q, q ≠ r → t.ctx.rp q = s.ctx.rp q) ∧ (∀ q, t.ctx.rs q = s.ctx.rs q) ∧
    (∀ q, t.ctx.rh q = s.ctx.rh q) ∧ t.ctx.hoist = s.ctx.hoist ∧ flags t f ∧ SameBays s t) ∧
  (∀ v : BitVec 16, Completes (.timelineResultLanding (.preds v)) s fun t =>
    (∀ q : BitVec 4, t.ctx.rp q = (decide (q = 0) || v.getLsbD q.toNat)) ∧ (∀ q, t.ctx.rs q = s.ctx.rs q) ∧
    (∀ q, t.ctx.rh q = s.ctx.rh q) ∧ t.ctx.hoist = s.ctx.hoist ∧ flags t {} ∧ SameBays s t) ∧
  (∀ (r : BitVec 4) (v : Handle), Completes (.timelineResultLanding (.hreg r v)) s fun t =>
    t.ctx.rh r = v ∧ (∀ q, q ≠ r → t.ctx.rh q = s.ctx.rh q) ∧ (∀ q, t.ctx.rs q = s.ctx.rs q) ∧
    (∀ q, t.ctx.rp q = s.ctx.rp q) ∧ t.ctx.hoist = s.ctx.hoist ∧ flags t {} ∧ SameBays s t) ∧
  (∀ (b : BayIx) (m : Nat) (v : BitVec 128) (f : Flags), m < 8 →
    Completes (.timelineResultLanding (.mask b m v f)) s fun t =>
      (∀ k : BitVec 3, (t.bayAt b).mask k = if k.toNat = m then v else (s.bayAt b).mask k) ∧
      { t.bayAt b with m := (s.bayAt b).m } = s.bayAt b ∧ (∀ b', b' ≠ b → t.bayAt b' = s.bayAt b') ∧ flags t f ∧
      SameRegs s t) ∧
  (∀ (b : BayIx) (u : VUnit) (d : VDst) (vs : List Word32) (en : BitVec 128) (f : Flags), vs.length = 128 →
    let x := s.bayAt b
    let written := fun (m m' : SMap Word32) (r : Nat) => (∀ k, k < 128 →
        SMap.get 0 m' (128 * r + k) = if en.getLsbD k = true then vs.getD k 0 else SMap.get 0 m (128 * r + k)) ∧
      ∀ k, k < 128 * r ∨ 128 * r + 128 ≤ k → SMap.get 0 m' k = SMap.get 0 m k
    SMap.wf 0 x.v = true → SMap.wf 0 x.o = true → SMap.wf 0 x.k = true →
    Completes (.timelineResultLanding (.vec b u d vs en f)) s fun t =>
      let y := t.bayAt b
      written x.k y.k (match u with | .alu => 0 | .fma => 1 | .trans => 2 | .conv => 3) ∧
      (match d with
       | .v r => written x.v y.v r ∧ y.o = x.o ∧ y.full = x.full
       | .o r => written x.o y.o r ∧ y.v = x.v ∧ y.full = x.full ||| (1#8 <<< r)
       | .none => y.v = x.v ∧ y.o = x.o ∧ y.full = x.full) ∧
      { y with v := x.v, o := x.o, k := x.k, full := x.full } = x ∧ (∀ b', b' ≠ b → t.bayAt b' = s.bayAt b') ∧ flags t f ∧
      SameRegs s t) ∧
  (∀ (b : BayIx) (os : BitVec 8), Completes (.timelineResultLanding (.freeO b os)) s fun t =>
    t.bayAt b = { s.bayAt b with full := (s.bayAt b).full &&& ~~~os } ∧ (∀ b', b' ≠ b → t.bayAt b' = s.bayAt b') ∧
    flags t {} ∧ SameRegs s t) ∧
  ∀ a : Nat, a % 16 = 0 → a < 2 ^ 30 → s.plainAt a → s.soundWord (a / 16) →
    Completes (.timelineResultLanding (.leafLost a)) s fun t =>
      (∀ x, t.byteAt x = if x = a + 10 then s.byteAt x ||| 0x80#8 else s.byteAt x) ∧ SameRegs s t ∧ SameSpecial s t ∧
      SameBays s t

/-- R166 to R171, for INT32 without carry or saturation: prefix sums and reductions modulo 2^32, the greatest element, the
flagged elements moved together, and the count of flags below each position. -/
def Obligations.ScanGroupsComputeTheirFunction : Prop :=
  ∀ (j : ScanJob) (c : Nat) (xs fs : List Nat), j.fmt = 9 → j.carry = false → j.sat = false →
    xs.length = fs.length → (∀ x ∈ xs, x < 2 ^ 32) →
    let out := (scanGroup j c xs fs).els
    (j.opc ≠ 10 → out.length = xs.length) ∧
    (j.opc = 0 → ∀ p, p < xs.length → out.getD p 0 < 2 ^ 32 ∧
      ((out.getD p 0 : Int) - ((xs.take (p + 1)).map int32).sum) % 2 ^ 32 = 0) ∧
    (j.opc = 4 → ∀ p, p < xs.length → out.getD p 0 < 2 ^ 32 ∧ ((out.getD p 0 : Int) - (xs.map int32).sum) % 2 ^ 32 = 0) ∧
    (j.opc = 5 → ∀ p, p < xs.length → out.getD p 0 ∈ xs ∧ ∀ x ∈ xs, int32 x ≤ int32 (out.getD p 0)) ∧
    (j.opc = 6 → ∀ p, p < xs.length → out.getD p 0 ∈ xs ∧ ∀ x ∈ xs, int32 (out.getD p 0) ≤ int32 x) ∧
    (j.opc = 8 → ∀ p, p < xs.length →
      out.getD p 0 = (((xs.zip fs).filter fun x => x.2 != 0).map Prod.fst).getD p 0) ∧
    (j.opc = 11 → ∀ p, p < xs.length → xs.length ≤ 64 → out.getD p 0 = ((xs.take p).filter fun x => x != 0).length)

/-- R25, R26, R100, R101, R201, R203, R322 and R386: the lanes of a pour that the banks of their entry take reach their bytes
through the stencil, in the word that the lowest lane of each bank names, and no other byte of the cistern changes; poison
and residency travel with them. A pour of a word in a granule of mode TXW is reflected in the same cycle. -/
def Obligations.PoursWriteTheirLanesAndNoOtherByte : Prop :=
  (∀ (s : State) (p : Pour) (w : Nat → Nat), s.mem.wf = true → s.sideW = [] → (∀ k, w k < 8192) →
    (∀ l ∈ p.lanes, l.lane < 1024) → (p.lanes.map (·.lane)).Nodup →
    let bank := fun (l : PourLane) => laneOut p.stn l.lane / 8
    let ls := p.lanes.filter fun l => match l.banks with
      | some (b0, n) => inBanks b0 n (bank l)
      | none => true
    let at_ := fun (l : PourLane) => wordAddr s.cur.val p.bay.val (bank l) (w (bank l)) + 2 * (laneOut p.stn l.lane % 8)
    (∀ l ∈ ls, (∀ x ∈ ls, bank x = bank l → l.lane ≤ x.lane) → l.word = w (bank l)) →
    (∀ l ∈ ls, granMode (s.mem.entryOf (at_ l)) ≠ 2) → (∀ l ∈ ls, s.soundWord (at_ l / 16)) →
    (∀ l ∈ ls, p.bay.val = 7 → bank l ≠ 127) →
    Completes (.pourBankWrite p) s fun t =>
      (∀ l ∈ ls, t.mem.num (at_ l) 2 = l.v.toNat) ∧
      (∀ x, (∀ l ∈ ls, x < at_ l ∨ at_ l + 2 ≤ x) → t.byteAt x = s.byteAt x) ∧
      (∀ l ∈ ls, SMap.get false t.mem.pz (at_ l / 16) = ls.any (fun x => bank x == bank l && x.pz) ∧
        SMap.get false t.mem.nr (at_ l / 16) = ls.any fun x => bank x == bank l && x.nr) ∧
      (∀ x, t.resAt x = s.resAt x) ∧ t.mem.hbm = s.mem.hbm ∧ SameRegs s t ∧ SameSpecial s t ∧ SameBays s t) ∧
  ∀ (s : State) (p : Pour) (w k off pset : Nat) (peers : List Nat), s.mem.wf = true → s.sideW = [] → s.mem.ecc = [] →
    w < 8192 → k < 128 → (p.bay.val = 7 → k ≠ 127) → p.lanes ≠ [] → (p.lanes.map (·.lane)).Nodup →
    (∀ l ∈ p.lanes, l.lane < 1024 ∧ l.banks = none ∧ l.word = w ∧ laneOut p.stn l.lane / 8 = k) →
    let a := wordAddr s.cur.val p.bay.val k w
    let at_ := fun (l : PourLane) => 2 * (laneOut p.stn l.lane % 8)
    granMode (s.mem.entryOf a) = 2 → s.soundWord (a / 16) → s.txWindow a = some (pset, peers, off) →
    Completes (.pourBankWrite p) s fun t => ∃ (u : State) (mask : BitVec 64) (data : BitVec 512),
      t = (u.closeMeeting peers fun _ => false).stampUnit peers (off / 64 * 64) (a / 64 * 64) mask data false ∧
      u.die.ord = s.die.ord ∧ u.gtc = s.gtc ∧ SameRegs s u ∧ (∀ l ∈ p.lanes, u.mem.num (a + at_ l) 2 = l.v.toNat) ∧
      (∀ x, (∀ l ∈ p.lanes, x < a + at_ l ∨ a + at_ l + 2 ≤ x) → u.byteAt x = s.byteAt x) ∧
      (∀ i, i < 64 → (mask.getLsbD i = true ↔ ∃ l ∈ p.lanes, i / 2 * 2 = off % 64 + at_ l)) ∧
      ∀ l ∈ p.lanes, (data >>> (8 * (off % 64 + at_ l))).setWidth 16 = l.v

/-! ### The sequencer and traps -/

/-- R22, R24, R27, R70, R75, R76, R240, R262, R272, R361, R395 and R400: a bundle with no wait and no trap issues: its acting slots
run, a `Q.RMASK` before the slots that take entries and the control slot last, each whatever becomes of its guard; one with
a waiting slot stalls; HOLD cycles advance the timeline; stalls and freezes change no register; a halt follows a pre-emption
request; a segment that is expanded stands in the inactive half with bundles of sixteen words, the last one alone marked
LAST. -/
def Obligations.SequencerIssuesStallsAndHolds : Prop :=
  (∀ s : State, s.ctx.restored = false → s.ctx.target = none → s.ctx.removed = false → hdrSafe s.ctx.bundle = false →
    s.ctx.safeB = false → s.ctx.due = [] → s.ctx.staticTrap = none → s.ctx.sump = [] →
    let is := s.ctx.acting
    let eaten := is.flatMap fun x => (slotNames x.2).eats
    let acting := (slotsOf s.ctx.bundle).filter fun x => s.ctx.acts x.2
    let looks := fun (x : Nat × Nat) => match slotInstr x.1 x.2 with
      | some (.qRmask _ _ _) => true
      | _ => false
    (∀ x ∈ is, (s.startWait x.2).waitRead x.2 = s) →
    ((∀ x ∈ is, s.slotWaits eaten x.2 = []) → firstOf [s.ctx.safeTrap, s.ctx.boardTrap is] = none →
      s.slotsTrap eaten is = none → s.cbWaits is = false → s.ctx.pump.active = none →
      s.die.err.limEn = false → s.die.err.freeze = 0 → s.die.err.rcBusy = false →
      ((∀ x ∈ is, ∀ a, x.2 ≠ .domsw a) → s.leaveDomain = s) ∧
      (∀ x ∈ acting, s.ctx.acts (unguarded x.2) = true) ∧
      Completes .bundleIssue s fun t => t.Issues ∧ t.die.adv = true ∧ t.die.rows = false ∧ t.die.fills = !s.ctx.inH ∧
        t.die.ord = { s.die.ord with cbStall := 0 } ∧ t.ctx.hold = hdrHold s.ctx.bundle ∧ t.ctx.noDbrk = false ∧
        SameRegs s.leaveDomain t ∧ SameSpecial s.leaveDomain t ∧ SameBays s.leaveDomain t ∧ t.mem = s.mem ∧
        SameOtherDies s t ∧
        ∃ l1 l2 l3 : List (Nat × Nat), l1 = acting.filter (fun x => x.1 != 1 && looks x) ∧
          l2 = acting.filter (fun x => x.1 != 1 && !looks x) ∧ l3 = acting.filter (fun x => x.1 == 1) ∧
          t.todo = (l1 ++ l2 ++ l3).map (fun x => ⟨s.cur, .slot (unguarded x.2) x.1⟩) ++ ⟨s.cur, .draw true⟩ :: s.todo) ∧
    ((∃ x ∈ is, s.slotWaits eaten x.2 ≠ []) → Completes .bundleIssue s fun t =>
      t.todo = ⟨s.cur, .instr .stallCycle .none⟩ :: s.todo ∧ t.die.issued = s.die.issued ∧
      (t.ctx.safecnt = if ∃ x ∈ is, true ∈ s.slotWaits eaten x.2 then 0 else s.ctx.safecnt) ∧ SameRegs s t ∧
      SameSpecial s t ∧ SameBays s t ∧ t.mem = s.mem ∧ SameOtherDies s t)) ∧
  (∀ s : State, s.ctx.hold ≠ 0 → s.ctx.pump.active = none → s.die.err.limEn = false → s.die.err.freeze = 0 →
    s.die.err.rcBusy = false → Completes .holdCycle s fun t => t.die.adv = true ∧ t.die.hcyc = true ∧ t.die.pstn = 0 ∧
      t.die.issued = s.die.issued ∧ t.todo = ⟨s.cur, .draw false⟩ :: s.todo ∧ SameRegs s t ∧ SameSpecial s t ∧
      SameBays s t ∧ t.mem = s.mem ∧ SameOtherDies s t) ∧
  (∀ s : State, s.ctx.hold = 0 → Completes .holdCycle s fun t => t = s) ∧
  (∀ s : State,
    (s.ctx.preq = false → Completes .stallCycle s fun t => t = s.modErr fun e => { e with wnow := 0 }) ∧
    (s.die.running = true → s.ctx.preq = true → s.ctx.hold = 0 → s.ctx.exiting = false → s.ctx.trap = none →
      Completes .stallCycle s fun t => t.die.running = false ∧ t.die.halting = true ∧ SameRegs s t ∧ t.mem = s.mem ∧
        ComesAfter s t 256 .preemptionHalt (.status 0))) ∧
  (∀ s : State, Completes .freezeCycle s fun t =>
    t.die.err.freezeCnt = (if s.die.err.limFrz = some s.now then s.die.err.freezeCnt + 1 else s.die.err.freezeCnt) ∧
    t.die.err.rcFrz = (if s.die.err.freeze = 0 then s.die.err.rcFrz else s.die.err.rcFrz + 1) ∧ t.die.err.freeze = 0 ∧
    t.ctx = s.ctx ∧ t.mem = s.mem ∧ SameOtherDies s t) ∧
  (∀ s : State, (s.die.ord.cbStall = 0 ∨ s.die.running = false → Completes .commitBufferOverflow s fun t => t = s) ∧
    (s.die.ord.cbStall ≠ 0 → s.die.running = true → s.ctx.pend = [] → s.ctx.inH = false → s.ctx.tvec ≠ 0 →
      Completes .commitBufferOverflow s fun t => t.ctx.inH = true ∧ t.ctx.priv = 1 ∧ t.die.ord.cbStall = 0 ∧
        (t.ctx.trec.get 0).toNat % 2 ^ 8 = 0x10 ∧ SameRegs s t ∧ t.mem = s.mem)) ∧
  (∀ (s : State) (va : Nat), s.ctx.half ≠ .expanding va → Completes (.segmentExpansionDone va) s fun t => t = s) ∧
  (∀ (s : State) (va : Nat), s.ctx.half = .expanding va →
    let g := (s.readSegment va).2.1
    let same := fun (t : State) => SameRegs s t ∧ SameSpecial s t ∧ SameBays s t
    (g.bad = none → g.va = va ∧ (∀ ws ∈ g.bundles, ws.length = 16) ∧
      ∀ k ws, g.bundles[k]? = some ws → (isLast ws = true ↔ k + 1 = g.bundles.length)) ∧
    (g.bad = some (0, 0) → Completes (.segmentExpansionDone va) s fun t => ComesAfter s t 1 (.segmentExpansionDone va) .none ∧
      t.ctx.half = s.ctx.half ∧ same t) ∧
    (g.bad ≠ some (0, 0) → s.ctx.restored = false → (s.readSegment va).2.2 = [] →
      Completes (.segmentExpansionDone va) s fun t => t.ctx.half = .ready g ∧ t.ctx.seg = s.ctx.seg ∧ same t) ∧
    (g.bad = none → s.ctx.restored = true → Completes (.segmentExpansionDone va) s fun t => t.ctx.seg = some g ∧
      t.ctx.restored = false ∧ same t) ∧
    (∀ x, g.bad = some x → x ≠ (0, 0) → s.ctx.restored = true → Completes (.segmentExpansionDone va) s fun t =>
      t.ctx.half = .ready g ∧ t.ctx.seg = none ∧ t.ctx.restored = false ∧ same t))

/-- R65, R256, R258, R379 and R381: with the results in flight landed, a trap saves its record, the resumption point and
the privilege, and enters the handler at system level; while results are in flight it waits for them; one that arises in a
handler, whatever its cause, or that only the dispatcher takes, halts the die instead. -/
def Obligations.TrapsSaveTheirRecordAndEnterTheHandler : Prop :=
  ∀ (s : State) (r : TrapRec) (l : List Task), s.todo = ⟨s.cur, .turn⟩ :: l → s.die.running = true → s.die.alive = true →
    s.ctx.trap = some r → r.cause < 2 ^ 8 → r.slots < 2 ^ 15 → r.bays < 2 ^ 8 →
    (s.ctx.pend ≠ [] → ∃ t, step s = .next t ∧ t.ctx.trap = some r ∧ t.die.adv = true ∧ SameRegs s t ∧ SameSpecial s t ∧
      t.mem = s.mem ∧ t.todo = ⟨s.cur, .instr .stallCycle .none⟩ :: l) ∧
    (s.ctx.pend = [] → toDispatcher r.cause = false → s.ctx.inH = false → s.ctx.tvec ≠ 0 → ∃ t, step s = .next t ∧
      (t.ctx.trec.get 0).toNat % 2 ^ 8 = r.cause ∧ (t.ctx.trec.get 0).toNat / 2 ^ 8 % 2 ^ 15 = r.slots ∧
      (t.ctx.trec.get 0).toNat / 2 ^ 23 % 2 ^ 8 = r.bays ∧ (t.ctx.trec.get 0).toNat / 2 ^ 31 % 2 ^ 3 = s.ctx.depth ∧
      (t.ctx.trec.get 0).getLsbD 34 = r.stale ∧ (t.ctx.trec.get 0).toNat / 2 ^ 35 = 0 ∧
      (t.ctx.trec.get 1).toNat % 2 ^ 8 = r.idx % 2 ^ 8 ∧ (t.ctx.trec.get 1).toNat / 2 ^ 8 = r.va / 2 ^ 7 % 2 ^ 56 ∧
      t.ctx.trec.get 2 = .ofNat 64 r.aux ∧ t.ctx.trec.get 3 = .ofNat 64 s.gtc ∧
      t.ctx.tepc.toNat % 2 ^ 8 = r.rIdx % 2 ^ 8 ∧ t.ctx.tepc.toNat / 2 ^ 8 = r.rVa / 2 ^ 7 % 2 ^ 56 ∧
      t.ctx.ppl.toNat = s.ctx.priv % 4 ∧ t.ctx.priv = 1 ∧ t.ctx.inH = true ∧ t.ctx.exw = r.exw ∧ t.ctx.trap = none ∧
      (∃ x, t.ctx.target = some x ∧ x.va = s.ctx.tvec.toNat ∧ x.idx = 0 ∧ x.hops = 0) ∧ t.ctx.hold = 0 ∧
      t.ctx.owed = s.ctx.hold ∧ t.ctx.safecnt = 0 ∧ t.ctx.hoist = [] ∧ t.ctx.noDbrk = false ∧ SameRegs s t ∧ SameBays s t ∧
      SameSpecial s (t.modCtx fun c => { c with
        trec := s.ctx.trec, tepc := s.ctx.tepc, ppl := s.ctx.ppl, priv := s.ctx.priv, inH := s.ctx.inH, exw := s.ctx.exw }) ∧
      t.mem = s.mem ∧ SameOtherDies s t) ∧
    (s.ctx.pend = [] → toDispatcher r.cause = true ∨ s.ctx.inH = true ∨ s.ctx.tvec = 0 → ∃ t, step s = .next t ∧
      let double := s.ctx.inH = true ∨ toDispatcher r.cause = false
      t.die.running = false ∧ t.die.halting = true ∧ t.ctx.priv = s.ctx.priv ∧ t.ctx.inH = s.ctx.inH ∧
      (s.ctx.inH = true → t.ctx.trec = s.ctx.trec ∧ t.ctx.tepc = s.ctx.tepc) ∧
      (s.ctx.inH = false → t.ctx.trec = recWords r s.ctx.depth s.gtc) ∧
      (double → ComesAfter s t 256 .preemptionHalt (.status (0x200 + r.cause)) ∧
        ∃ w ∈ t.disp.faults, w.length = 8 ∧ w.drop 4 = (recWords r s.ctx.depth s.gtc).toList) ∧
      (¬double → ComesAfter s t 256 .preemptionHalt (.status (0x100 + r.cause)) ∧ t.disp = s.disp) ∧
      SameRegs s t ∧ t.mem = s.mem ∧ SameOtherDies s t)

/-- R65 and R66: at user level a bundle that holds a slot of system level traps with cause 0x0D before anything in it acts,
the mask naming every such slot; a slot of user level does at no level, and at system level none does for its level alone
except one that names a register of firmware level. -/
def Obligations.PrivilegedSlotsTrapAtUserLevel : Prop :=
  let system := fun (i : Instr) => (∃ a b, i = .tret a b) ∨ (∃ d a c, i = .pumpActr d a c) ∨ (∃ d, i = .realign d) ∨
    (∃ a, i = .tlbSync a) ∨ (∃ a, i = .domsw a) ∨ ∃ n, csrOf i = some n ∧ 1 ≤ csrLevel n
  (∀ c : Ctx, c.priv = 0 → hdrBad c.bundle = false →
    (∀ x ∈ slotsOf c.bundle, (slotInstr x.1 x.2).isSome = true) →
    (∃ x ∈ slotsOf c.bundle, ∃ i, slotInstr x.1 x.2 = some i ∧ system i) →
    ∃ r, c.staticTrap = some r ∧ r.cause = 0x0D ∧ r.idx = c.idx ∧ r.va = c.segVa ∧ r.rIdx = c.idx ∧ r.rVa = c.segVa ∧
      ∀ x ∈ slotsOf c.bundle, ∀ i, slotInstr x.1 x.2 = some i → system i → r.slots.testBit (x.1 - 1) = true) ∧
  (∀ (c : Ctx) (i : Instr), ¬ system i → c.privTrap i = none) ∧
  (∀ (c : Ctx) (i : Instr), 1 ≤ c.priv → (∀ n, csrOf i = some n → csrLevel n ≤ c.priv) → c.privTrap i = none) ∧
  (∀ (s : State) (r : TrapRec), s.ctx.restored = false → s.ctx.target = none → s.ctx.removed = false →
    hdrSafe s.ctx.bundle = false → s.ctx.safeB = false → s.ctx.due = [] → s.ctx.sump = [] → s.ctx.pend = [] →
    s.ctx.staticTrap = some r → Completes .bundleIssue s fun t => t = s.deliver r)

/-! ### Quantum boundaries -/

/-- R136, R247, R251, R266 to R268, R275, R310, R321, R338 and R359: at a boundary the exchange of a shadow set that is due is
made, a buffered store that is due writes its bytes and frees its entry, a get is served, a reflected unit writes its enabled
bytes or is refused and counted, and the boundary counts for a `QWAIT`; a store that a gang still holds back stays; where
nothing is due nothing changes. -/
def Obligations.QuantumBoundariesCommitWhatIsDue : Prop :=
  ∀ s : State, s.die.ord.cbStall = 0 → s.die.migs = [] →
    Completes .quantumChange s (fun t => t = s.modOrd fun o => { o with qnow := o.qlog2 }) ∧
    (s.ctx.wait = [] → s.die.ord.arrived = [] → Completes .quantumBoundary s fun t => t = s) ∧
    (∀ w d n, s.die.ord.arrived = [] → s.ctx.wait = [w] → w.instr = .qwait d n → w.done = false → w.gtc < s.gtc →
      Completes .quantumBoundary s fun t => SameRegs s t ∧ SameSpecial s t ∧ SameBays s t ∧ t.mem = s.mem ∧
        SameOtherDies s t ∧ t.ctx.wait =
          [if w.left ≤ 1 then { w with left := 0, done := true, value := s.gtc } else { w with left := w.left - 1 }]) ∧
    (∀ w d a k g h n, s.die.ord.arrived = [] → s.ctx.wait = [w] → w.instr = .publish d a → w.done = false →
      w.gtc < s.gtc → s.held = false → s.die.set ((s.rs a).toNat % 16) = some { id := k, maps := [(g, h)], owner := n } →
      g < 16384 → h < 16384 → g ≠ h → s.writesInto [g] = false → s.mem.wf = true → Completes .quantumBoundary s fun t =>
        (∀ x, x < 8192 → t.byteAt (granAddr s.cur.val g + x) = s.byteAt (granAddr s.cur.val h + x) ∧
          t.byteAt (granAddr s.cur.val h + x) = s.byteAt (granAddr s.cur.val g + x)) ∧
        (∀ x, (x < granAddr s.cur.val g ∨ granAddr s.cur.val g + 8192 ≤ x) →
          (x < granAddr s.cur.val h ∨ granAddr s.cur.val h + 8192 ≤ x) → t.byteAt x = s.byteAt x) ∧
        t.ctx.wait = [{ w with done := true, value := s.gtc }] ∧ (∀ y ∈ t.die.sets, y.id ≠ (s.rs a).toNat % 16) ∧
        SameRegs s t ∧ SameSpecial s t ∧ SameBays s t ∧ SameOtherDies s t) ∧
    (∀ x v, s.ctx.wait = [] → s.die.ord.arrived = [x] → x.verb = some v → x.unit = none → x.ripe s.gtc = true →
      s.die.boundaryAt s.gtc = true → (s.dieAt v.src).ord.verbs = [v] → adDie v.op.ea = s.cur → v.op.ea < 2 ^ 30 →
      v.op.size ∈ [1, 2, 4, 8, 32] → s.mem.wf = true →
      let a := v.op.ea / v.op.size * v.op.size
      let freed := fun (t : State) => t.die.ord.arrived = [] ∧ ∀ e ∈ (t.dieAt v.src).ord.cb, e.id ≠ v.seq
      (v.kind = .store → v.op.kind = .st ∨ v.op.kind = .hst → (s.dieAt v.src).ord.holds v.seq = false →
        ((adBay v.op.ea).val = 7 → adBank v.op.ea ≠ 127) → granMode (s.mem.entryOf v.op.ea) ≠ 2 →
        granMode (s.mem.entryOf v.op.ea) ≠ 6 → Completes .quantumBoundary s fun t => freed t ∧
          (∀ k, k < v.op.size → t.byteAt (a + k) = .ofNat 8 (v.op.data / 2 ^ (8 * k))) ∧
          (∀ y, y < a ∨ a + v.op.size ≤ y → t.byteAt y = s.byteAt y) ∧ SameRegs s t) ∧
      (v.kind = .store → (s.dieAt v.src).ord.holds v.seq = true → Completes .quantumBoundary s fun t =>
        t.die.ord.arrived = [x] ∧ t.dies = s.dies ∧ t.mem = s.mem) ∧
      (v.kind = .get → (∀ w ∈ opWords v.op, s.soundWord w) → Completes .quantumBoundary s fun t => freed t ∧ t.mem = s.mem ∧
        SameRegs s t ∧ ∃ y ∈ t.timers, s.now < y.at_ ∧
          y.task = ⟨v.src, .instr .getResponse (.response v.seq (s.mem.num a v.op.size) none)⟩)) ∧
    (∀ x u, s.ctx.wait = [] → s.die.ord.arrived = [x] → x.verb = none → x.unit = some u → x.ripe s.gtc = true →
      x.issuer / 8 ≠ s.host.pkg → u.src / 8 ≠ s.host.pkg → s.mem.wf = true → s.mem.ecc = [] →
      SMap.wf {} s.die.win.paths = true →
      let p := s.die.win.path (inPath u.src)
      (s.unitAddr u = none → Completes .quantumBoundary s fun t => t.die.ord.arrived = [] ∧
        t.die.win.rxdisc = min (s.die.win.rxdisc + 1) (2 ^ 32 - 1) ∧ t.mem = s.mem ∧
        u.wid ∈ (t.die.win.path (inPath u.src)).cut ∧ SameRegs s t ∧ SameOtherDies s t) ∧
      (∀ a, s.unitAddr u = some a → u.wid ∈ p.cut → Completes .quantumBoundary s fun t => t.die.ord.arrived = [] ∧
        t.mem = s.mem ∧ t.die.win.path (inPath u.src) = p ∧ SameRegs s t ∧ SameOtherDies s t) ∧
      (∀ a, s.unitAddr u = some a → u.wid ∉ p.cut → a % 64 = 0 → Completes .quantumBoundary s fun t =>
        t.die.ord.arrived = [] ∧
        (∀ k, k < 64 → t.byteAt (a + k) =
          if u.mask.getLsbD k = true then (u.data >>> (8 * k)).setWidth 8 else s.byteAt (a + k)) ∧
        (∀ y, y < a ∨ a + 64 ≤ y → t.byteAt y = s.byteAt y) ∧ t.die.win.rxdisc = s.die.win.rxdisc ∧
        (t.die.win.path (inPath u.src)).acked = max p.acked (u.cb + 1) ∧ SameRegs s t))

/-! ### The optical fabric -/

/-- R328 to R331, R333, R335, R341 and R342: rings lock when they are tuned and fed, gates darken and release ports, laser
modules feed them, a slot of a rota tunes the rings of the groups in rota mode, and a fabric-manager command tunes or gates
the others, or is refused, and is reported on; no register and no byte of memory of the package changes by it. -/
def Obligations.FabricStepsTuneGateAndLockRings : Prop :=
  ∀ (s : State) (k r : Nat), k < 16 → r < 16 → (∀ j, j < 16 → SMap.wf 0 (s.fab.port j).tune = true) →
    let dies := fun (t : State) => t.dies = s.dies ∧ t.mem = s.mem
    let others := fun (t : State) => ∀ j, j < 16 → j ≠ k → t.fab.port j = s.fab.port j
    let again := s.timers.any fun t => t.task.work == .instr (.ringLock k r) .none
    ((s.fab.port k).feeds r = true → again = false → Completes (.ringLock k r) s fun t => dies t ∧ others t ∧
      (t.fab.port k).lock.getLsbD r = true ∧ (t.fab.port k).tune = (s.fab.port k).tune ∧
      ∀ j, j ≠ r → (t.fab.port k).lock.getLsbD j = (s.fab.port k).lock.getLsbD j) ∧
    ((s.fab.port k).feeds r = false ∨ again = true → Completes (.ringLock k r) s fun t => t = s) ∧
    Completes (.portGateWrite k true) s (fun t => dies t ∧ others t ∧ (t.fab.port k).gate = true ∧
      (s.portBusy k = false → (t.fab.port k).gated = true) ∧
      (s.portBusy k = true → (t.fab.port k).gated = (s.fab.port k).gated ∧
        ∃ x ∈ t.timers, x.task = ⟨0, .instr (.portGated k) .none⟩ ∧ x.at_ = s.portClear k)) ∧
    Completes (.portGateWrite k false) s (fun t => dies t ∧ others t ∧ (t.fab.port k).gate = false ∧
      (t.fab.port k).gated = false ∧ ∀ j, j < 16 → (s.fab.port k).wave j ≠ 0 → (t.fab.port k).lock.getLsbD j = false) ∧
    Completes (.portGated k) s (fun t => dies t ∧ others t ∧ (t.fab.port k).gate = (s.fab.port k).gate ∧
      ((t.fab.port k).gated = true ↔ (s.fab.port k).gated = true ∨ (s.fab.port k).gate = true ∧ s.portBusy k = false)) ∧
    (∀ v : Word, (∀ g, g < 2 → v.getLsbD g = s.fab.mode.getLsbD g ∨ ∀ j, j < 8 → (s.fab.port (8 * g + j)).gated = true) →
      Completes (.fabctlModeWrite v) s fun t => t = s.modFab fun f => { f with mode := v.setWidth 2 }) ∧
    (∀ (v : Word) (g j : Nat), g < 2 → j < 8 → v.getLsbD g ≠ s.fab.mode.getLsbD g → (s.fab.port (8 * g + j)).gated = false →
      Completes (.fabctlModeWrite v) s fun t => t = s) ∧
    (∀ iod : Fin 2, 2 ≤ s.host.stage → s.fab.flight = [] → Completes (.laserRemoval iod) s fun t => dies t ∧
      t.fab.laser.getLsbD iod.val = false ∧ ∀ j, j < 16 → (j / 8 = iod.val → (t.fab.port j).srclost = true ∧
        (t.fab.port j).lock = 0) ∧ (j / 8 ≠ iod.val → t.fab.port j = s.fab.port j)) ∧
    (∀ iod : Fin 2, 2 ≤ s.host.stage → Completes (.laserInsertion iod) s fun t => dies t ∧
      t.fab.laser.getLsbD iod.val = true ∧ ∀ j, j < 16 → (j / 8 = iod.val → (t.fab.port j).srclost = false) ∧
        (j / 8 ≠ iod.val → t.fab.port j = s.fab.port j)) ∧
    let reports := fun (t : State) (c : FmCmd) (obeyed : Bool) =>
      t.fab.reports = s.fab.reports ++ [⟨c, obeyed, t.fab.ports.toList.map Port.lock⟩]
    (∀ w, s.msg = .fm (.tune k r w) → s.fab.rotaMode k = false → s.fmRefused k r w = false →
      (s.fab.port k).wave r ≠ w + 1 → Completes .fabricManagerCommand s fun t => dies t ∧ others t ∧
        reports t (.tune k r w) true ∧ (t.fab.port k).wave r = w + 1 ∧ (t.fab.port k).lock.getLsbD r = false) ∧
    (s.msg = .fm (.off k r) → s.fab.rotaMode k = false → Completes .fabricManagerCommand s fun t => dies t ∧ others t ∧
        reports t (.off k r) true ∧ (t.fab.port k).wave r = 0 ∧ (t.fab.port k).lock.getLsbD r = false) ∧
    (∀ g : Bool, s.msg = .fm (.gate k g) → s.fab.rotaMode k = false → Completes .fabricManagerCommand s fun t => dies t ∧
      reports t (.gate k g) true ∧ t.fab.ports = s.fab.ports ∧
      t.todo = if g = (s.fab.port k).gate then s.todo else ⟨s.cur, .instr (.portGateWrite k g) .none⟩ :: s.todo) ∧
    (∀ (w : Nat) (g : Bool), ∀ c ∈ [FmCmd.tune k r w, .off k r, .gate k g], s.msg = .fm c →
      s.fab.rotaMode k = true ∨ c = .tune k r w ∧ s.fmRefused k r w = true →
      Completes .fabricManagerCommand s fun t => reports t c false ∧
        t = s.modFab fun f => { f with reports := t.fab.reports }) ∧
    (s.fab.unsync = false → Completes .unsyncTimeout s fun t => t.fab.unsync = true ∧ t.fab.ports = s.fab.ports ∧ dies t) ∧
    (∀ n, s.fab.rotaOn = true → n = s.fab.rotaN → s.fab.rotaStop = 0 → s.fab.rotaSlots ≠ 0 →
      (∀ j, j < 16 → (s.fab.port j).back = none) → Completes (.rotaSlotStart n) s fun t => dies t ∧
        t.fab.slot = n % s.fab.rotaSlots ∧ t.fab.rotaN = n + 1 ∧
        (s.fab.rotaMode k = false → t.fab.port k = s.fab.port k) ∧
        (s.fab.rotaMode k = true → (t.fab.port k).wave r = s.fab.rotaWave (n % s.fab.rotaSlots) k r ∧
          ((s.fab.port k).wave r ≠ s.fab.rotaWave (n % s.fab.rotaSlots) k r → (t.fab.port k).lock.getLsbD r = false))) ∧
    (∀ n, s.fab.rotaOn = false ∨ n ≠ s.fab.rotaN → Completes (.rotaSlotStart n) s fun t => t = s)

/-- R252, R253, R269, R325 to R329, R336 to R342, R355, R356 and R359: a flit leaves on a ring with the next number of its path
and the units of its entries as its body, unless a gang holds them back; one that comes through and is next in the series
hands its units on, and a damaged one is discarded; acknowledged copies leave the commit buffer, a refused or lost BULK flit
breaks the peer and a lost ATOM flit is replayed, a new epoch starts afresh; span entries travel in their slots. -/
def Obligations.FlitsPathsAndSpansCarryTheirEntries : Prop :=
  (∀ (s : State) (p : Nat) (e : CbEntry) (c : Copy) (u : RUnit) (x : Nat), s.msg = .send p → p < 256 → s.unsent p = [e] →
    e.unsent p = some c → e.unit = some u → s.peerEntry p = some x → wmState x = 1 → SMap.wf {} s.die.win.paths = true →
    let n := (s.die.win.path c.target).seqOut
    (e.hold.isSome = true ∨ s.ringFor p = none → Completes .flitSend s fun t => t = s.after 1 .flitSend (.send p)) ∧
    ∀ g, e.hold = none → s.ringFor p = some g →
      Completes .flitSend s fun t => (∃ f : Flight, t.fab.flight = s.fab.flight ++ [f] ∧ f.port = g.1 ∧ f.ring = g.2 ∧
        f.peer = p ∧ f.die = s.cur ∧ f.path = c.target ∧ f.cls = (if u.signal = true then 1 else 2) ∧ f.seq = n ∧
        100 * s.now < f.till ∧ f.bytes.headD 0 = (if u.signal = true then 0xC3 else 0x3C) ∧
        (f.bytes.drop 1).take 240 = flitBody n (s.gdie s.cur) c.die c.wid (e.stamp % 2 ^ 32) [u] ∧
        (t.die.win.path c.target).unacked = (s.die.win.path c.target).unacked ++
          [{ seq := n, peer := p, ids := [e.id], bytes := f.bytes, again := false }]) ∧
      (t.die.win.path c.target).seqOut = (n + 1) % 2 ^ 32 ∧ (t.die.win.path c.target).plane = g.1 ∧ t.unsent p = [] ∧
      t.ctx = s.ctx ∧ t.mem = s.mem ∧ SameOtherDies s t) ∧
  (∀ (seq src die wid stamp : Nat) (us : List RUnit), seq < 2 ^ 32 → src < 256 → wid < 1024 → stamp < 2 ^ 32 →
    1 ≤ us.length → us.length ≤ 3 → (∀ u ∈ us, u.off % 64 = 0 ∧ u.off < 2 ^ 22) → ∀ d : DieIx, d.val = die →
    decodeBody (flitBody seq src die wid stamp us) =
      some ⟨seq, src, d, wid, .ofNat 32 stamp, us.map fun u => (u.off, u.mask, u.data)⟩) ∧
  (∀ (s : State) (k : BulkFlit), s.msg = .bulk k →
    (k.body = none ∨ k.head ≠ 0x3C → Completes .bulkFlitReceive s fun t => t = s) ∧
    (bulkBody k = none → Completes .bulkFlitReceive s fun t => t = s) ∧
    ∀ f, bulkBody k = some f →
      let q := (s.dieAt f.tdie).win.path (inPath f.src)
      (q.lost = true → Completes .bulkFlitReceive s fun t => t.dies = s.dies ∧ t.mem = s.mem) ∧
      (q.early = [] → q.lost = false → f.seq < 2 ^ 32 → q.seqIn = f.seq → s.elastic (k.port / 8) < 32768 →
        SMap.wf {} (s.dieAt f.tdie).win.paths = true → Completes .bulkFlitReceive s fun t => ∃ l : List Arrived,
        (t.dieAt f.tdie).ord.arrived = (s.dieAt f.tdie).ord.arrived ++ l ∧ l.length = f.units.length ∧
        ((t.dieAt f.tdie).win.path (inPath f.src)).seqIn = f.seq + 1 ∧ t.mem = s.mem ∧
        ∀ (k' : Nat) (x : Nat × BitVec 64 × BitVec 512), f.units[k']? = some x → ∃ y u, l[k']? = some y ∧ y.unit = some u ∧
          u.src = f.src ∧ u.wid = f.wid ∧ u.off = x.1 ∧ u.mask = x.2.1 ∧ u.data = x.2.2 ∧ u.signal = false ∧
          y.issuer = f.src ∧ y.phys = s.gtc ∧ y.a = fullStamp s.gtc f.stamp + (s.dieAt f.tdie).ord.rfdly)) ∧
  (∀ (s : State) (k : AtomFlit), s.msg = .atom k →
    (k.bytes.length = 256 → crc32 ((k.bytes.drop 1).take 251) ≠ .ofNat 32 (bytesNat (k.bytes.drop 252)) →
      Completes .atomFlitReceive s fun t => t = s) ∧
    (atomBody k = none → Completes .atomFlitReceive s fun t => t = s) ∧
    ∀ f x, atomBody k = some f → f.units = [x] →
      let q := (s.dieAt f.tdie).win.path (inPath f.src)
      q.early = [] → q.lost = false → f.seq < 2 ^ 32 → q.seqIn = f.seq →
      SMap.wf {} (s.dieAt f.tdie).win.paths = true → Completes .atomFlitReceive s fun t => ∃ y u,
        (t.dieAt f.tdie).ord.arrived = (s.dieAt f.tdie).ord.arrived ++ [y] ∧ y.unit = some u ∧ u.signal = true ∧
        u.off = x.1 ∧ u.mask = x.2.1 ∧ u.data = x.2.2 ∧ u.src = f.src ∧ u.wid = f.wid ∧
        ((t.dieAt f.tdie).win.path (inPath f.src)).seqIn = f.seq + 1 ∧ t.mem = s.mem) ∧
  (∀ (s : State) (g : Nat) (x : Sent) (l : List Sent), s.msg = .committed g x.seq →
    (s.die.win.path g).unacked = x :: l → SMap.wf {} s.die.win.paths = true →
    Completes .commitAcknowledgement s fun t => (t.die.win.path g).unacked = l ∧ t.ctx = s.ctx ∧ t.mem = s.mem ∧
      SameOtherDies s t ∧ ∀ e ∈ t.die.ord.cb, e.id ∈ x.ids → ∀ c ∈ e.copies, c.peer ≠ x.peer) ∧
  (∀ (s : State) (p e : Nat), p < 256 → s.peerEntry p = some e → wmState e ≠ 3 → SMap.wf [] s.die.win.egress = true →
    ∀ x ∈ [(Instr.refusalReport, Msg.refused p, 3), (.refusalReport, .discarded p, 4), (.flitLossTimeout, .path p, 2)],
      s.msg = x.2.1 → Completes x.1 s fun t =>
      t.die.win.brk = true ∧ (s.die.win.brk = false → t.die.win.firstBrk = .ofNat 8 p) ∧
      (∀ y ∈ t.die.ord.cb, ∀ c ∈ y.copies, c.peer ≠ p) ∧ t.egressOf p = [] ∧
      (s.ownsPeer p = true → t.ctx.rcBroke.isSome = true) ∧
      (bitAt e 20 = true → bitAt e 21 = false → ∃ a, t.die.win.traps = s.die.win.traps ++ [(p, a)]) ∧
      (∃ w ∈ t.disp.faults, w.getD 0 0 = .ofNat 64 (s.gdie s.cur) ∧ w.getD 4 0 = .ofNat 64 p ∧ w.getD 5 0 = .ofNat 64 x.2.2) ∧
      SameRegs s t ∧ SameBays s t) ∧
  (∀ (s : State) (p : Nat), s.msg = .path p → 256 ≤ p → SMap.wf {} s.die.win.paths = true →
    Completes .flitLossTimeout s fun t => (t.die.win.path p).lost = true ∧ (t.die.win.path p).early = [] ∧
      (t.die.win.path p).missing = none ∧ t.ctx = s.ctx ∧ t.mem = s.mem ∧ SameOtherDies s t) ∧
  (∀ (s : State) (g : Nat) (x : Sent) (l : List Sent), s.msg = .lostFlit g x.seq → (s.die.win.path g).unacked = x :: l →
    SMap.wf {} s.die.win.paths = true →
    (x.bytes.headD 0 = 0xC3 → Completes .flitLossTimeout s fun t => (t.die.win.path g).replay = some { x with again := true } ∧
      ComesAfter s t 1 .flitSend (.send (1024 + g)) ∧ t.ctx = s.ctx ∧ t.mem = s.mem ∧ SameOtherDies s t) ∧
    (x.bytes.headD 0 ≠ 0xC3 → Completes .flitLossTimeout s fun t => t = s.breakPeer x.peer 2)) ∧
  (∀ (s : State) (src : Nat), s.msg = .epoch src → SMap.wf {} s.die.win.paths = true →
    Completes .pathEpochFlit s fun t => t.die.win.path (inPath src) = {} ∧
      t.die.ord.arrived = (s.die.ord.arrived.filter fun x => !(x.issuer == src && x.iod != 2)) ∧ t.ctx = s.ctx ∧
      t.mem = s.mem ∧ SameOtherDies s t) ∧
  (∀ (s : State) (q : Nat) (d : Int), s.msg = .time q d → Completes .timeExchangeFlit s fun t => t.mem = s.mem ∧
    ∀ i : DieIx, (t.dieAt i).ctx = (s.dieAt i).ctx ∧ (t.dieAt i).offsets = if (s.dieAt i).ctx.realigning = true
      then ((s.dieAt i).offsets.filter fun y => y.1 != q) ++ [(q, d)] else (s.dieAt i).offsets) ∧
  (∀ (s : State) (p e : Nat), s.msg = .path p → s.peerEntry p = some e →
    let outside := fun (t : State) => (∀ x, (∀ k, k < 32 → x ≠ tabAddr s.die.win.wmbase.toNat (p * 32 + k)) →
      t.byteAt x = s.byteAt x) ∧ t.die.win = s.die.win ∧ t.die.ord = s.die.ord ∧ SameRegs s t ∧ SameSpecial s t ∧ SameBays s t
    (wmState e = 1 → s.mem.wf = true → Completes .pathDisconnect s fun t => outside t ∧
      t.todo = List.replicate (s.unsent p).length ⟨s.cur, .instr .servicePathSequence (.send p)⟩ ++ s.todo) ∧
    (wmState e ≠ 1 → Completes .pathDisconnect s fun t => t = s) ∧
    (wmState e = 2 → s.egressOf p = [] → s.unsent p = [] → s.mem.wf = true → Completes .pathReconnect s fun t =>
      t = s.setPeer p 18 2 1 ∧ outside t) ∧
    (∀ r l, wmState e = 2 → s.egressOf p = r :: l → s.egressOk p r.leaf r.at_ = true →
      (s.egressContender p).bind s.pickRing = none → Completes .pathReconnect s fun t => t = s) ∧
    (wmState e ≠ 2 → wmState e ≠ 0 → Completes .pathReconnect s fun t => t = s)) ∧
  (∀ (s : State) (p e : Nat) (x : CbEntry) (l : List CbEntry) (c : Copy) (u : RUnit), s.msg = .send p →
    s.peerEntry p = some e → wmState e = 2 → s.toSend p = x :: l → x.unsent p = some c → x.unit = some u →
    SMap.wf [] s.die.win.egress = true →
    let n := s.egressCap c.eqleaf c.eqn
    let k := bitsAt e 104 32 % n
    s.egressRoom p c.eqleaf c.eqn (bitsAt e 104 32) = true →
    (s.egressFree c.eqleaf k true = false → Completes .servicePathSequence s fun t =>
      t = s.after 1 .servicePathSequence (.send p)) ∧
    (s.egressFree c.eqleaf k true = true → Completes .servicePathSequence s fun t =>
      t.egressOf p = s.egressOf p ++ [⟨x.addr, u.signal, c.pkg, c.die, c.eqleaf, c.eqn, k⟩] ∧
      (∀ y ∈ t.die.ord.cb, y.id = x.id → ∀ z ∈ y.copies, z.peer ≠ p) ∧ SameRegs s t ∧ SameBays s t)) ∧
  (∀ (s : State) (r : Word) (d : DieIx) (e : Entry) (l : List Entry), s.rectDie (spDst r) = some d →
    let q := (s.bayAt (spBay r)).str (spStream r)
    q.queue = e :: l → q.bound = true → q.port = 6 → s.die.spanOff = false → (s.dieAt d).spanOff = false →
    ((s.dieAt d).ctx.bayAt (spDstBay r)).spanIn.length + s.spanFlight d (spDstBay r) < 16 →
    Completes (.spanSlot r) s fun t => (t.bayAt (spBay r)).str (spStream r) = { q with queue := l, slip := 0 } ∧
      (∀ b', b' ≠ spBay r → t.bayAt b' = s.bayAt b') ∧
      (∀ q', q' < 32 → q' ≠ spStream r → (t.bayAt (spBay r)).str q' = (s.bayAt (spBay r)).str q') ∧
      (∃ x ∈ t.timers, x.at_ = s.now + 32 ∧ x.task = ⟨d, .instr (.spanEntryArrival (spDstBay r) e) .none⟩) ∧
      t.ctx.spEmpty = s.ctx.spEmpty ∧ SameRegs s t ∧ SameSpecial s t ∧ t.mem = s.mem ∧ SameOtherDies s t) ∧
  (∀ (s : State) (r : Word), s.rectDie (spDst r) = none ∨ ((s.bayAt (spBay r)).str (spStream r)).queue = [] ∨
      s.die.spanOff = true → Completes (.spanSlot r) s fun t =>
      t.ctx.spEmpty = min (s.ctx.spEmpty + 1) (2 ^ 32 - 1) ∧ SameRegs s t ∧
      SameBays s t ∧ t.mem = s.mem ∧ SameOtherDies s t) ∧
  (∀ (s : State) (b : BayIx) (e : Entry) (q slot : Nat), q < 32 → slot < 2 ^ 12 →
    Completes (.spanEntryArrival b e) s (fun t => (t.bayAt b).spanIn = (s.bayAt b).spanIn ++ [e] ∧
      { t.bayAt b with spanIn := (s.bayAt b).spanIn } = s.bayAt b ∧
      (∀ b', b' ≠ b → t.bayAt b' = s.bayAt b') ∧ SameRegs s t ∧ SameSpecial s t ∧ t.mem = s.mem ∧ SameOtherDies s t) ∧
    Completes (.spanSlip b q slot) s (fun t =>
      t = s.modCtx fun c => { c with due := c.due ++ [⟨0x12, slot + b.val * 2 ^ 12 + q * 2 ^ 15, false⟩] }))

/-! ### Error handling, repair and the loss of dies -/

/-- R313, R314, R385, R390 to R392, R396, R402, R403 and R405: the scrubber reads its next word, a rebuild passes over its
bank, lane errors are counted and replaced lanes carry flits again; a die that misses three polls, or fails, is lost and the
other dispatchers are told of it, and a migration reads units into its buffer, writes them and completes. -/
def Obligations.ServicesRepairAndLossTakeTheirSteps : Prop :=
  (∀ (s : State) (b : BayIx), SMap.wf 0 s.die.err.scrubPos = true →
    let n := SMap.get 0 s.die.err.scrubPos b.val
    s.soundWord (wordAddr s.cur.val b.val (n / 8192 % 128) (n % 8192) / 16) → Completes (.scrubRead b) s fun t =>
      SMap.get 0 t.die.err.scrubPos b.val = (n + 1) % 2 ^ 20 ∧ t.ctx = s.ctx ∧ t.mem = s.mem ∧ SameOtherDies s t ∧
      ∃ x ∈ t.timers, x.at_ = s.now + s.die.err.scrub ∧ x.task = ⟨s.cur, .instr (.scrubRead b) .none⟩) ∧
  (∀ s : State, s.die.err.rcBusy = true →
    let e := s.die.err
    let word := fun b : Nat => wordAddr s.cur.val e.rcBay b e.rcNext / 16
    let w := word e.rcBank
    let row := (e.rcBank :: ((List.range 8).map (e.rcBank / 8 * 8 + ·)).filter (· != e.rcBank)).map word
    (s.sideTaken row = true → Completes .bankRebuildWord s fun t => t = s.after 1 .bankRebuildWord) ∧
    (s.sideTaken row = false → s.mem.wf = true → Completes .bankRebuildWord s fun t =>
      t.die.err.rcNext = e.rcNext + 1 ∧ t.ctx = s.ctx ∧ (∀ x, t.byteAt x = s.byteAt x) ∧ SMap.get .ok t.mem.ecc w = .ok ∧
      (SMap.get .ok s.mem.chk (chkKey w) = .multi → SMap.get false t.mem.pz w = true) ∧
      (s.mem.ecc = [] → SMap.get .ok s.mem.chk (chkKey w) = .ok → (∀ x ∈ row, s.uncorr x = false) → t.mem = s.mem) ∧
      (8191 ≤ e.rcNext → t.todo = ⟨s.cur, .instr .bankRebuildComplete .none⟩ :: s.todo) ∧
      (e.rcNext < 8191 → ∃ x ∈ t.timers, x.at_ = s.now + 1 ∧ x.task = ⟨s.cur, .instr .bankRebuildWord .none⟩)) ∧
    Completes .bankRebuildComplete s (fun t => t.die.err.rcBusy = false ∧ t.die.err.rcNext = 0 ∧
      t.die.err.rebuilt = (e.rebuilt + 1) % 256 ∧ t.die.err.retired = e.retired ∧ t.ctx = s.ctx ∧ t.mem = s.mem ∧
      SameOtherDies s t)) ∧
  (∀ s : State, s.die.err.rcBusy = false → ∀ i ∈ [Instr.bankRebuildWord, .bankRebuildComplete],
    Completes i s fun t => t = s) ∧
  (∀ (s : State) (port lane : Nat), Completes (.ucieLaneError port none) s (fun t => t.ctx = s.ctx ∧ t.mem = s.mem ∧
      SameOtherDies s t ∧ t.die.err.events = s.die.err.events ++ [(72, kCe, port % 16)]) ∧
    Completes (.laneReplacementDone port) s (fun t =>
      t.die.err.down = (s.die.err.down.filter fun x => x.1 != port) ∧ t.ctx = s.ctx ∧ t.mem = s.mem ∧ SameOtherDies s t) ∧
    (port < 16 → lane < 64 → s.die.err.errthr ≠ 1 → s.die.err.errthr ≠ 0 → s.die.err.track = [] →
      Completes (.ucieLaneError port (some lane)) s fun t => t.ctx = s.ctx ∧ t.mem = s.mem ∧ SameOtherDies s t ∧
        t.die.err.track = [⟨.lane port lane, 1, s.gtc⟩])) ∧
  (∀ (s : State) (mask : Nat), s.msg = .status mask → Completes .heartbeatPoll s fun t =>
    t = s.modDisp fun p => { p with silent := .ofNat 8 mask }) ∧
  (∀ s : State, s.disp.launches = [] →
    (∀ d : DieIx, s.disp.lostmap.getLsbD d.val = false → ∀ i ∈ [Instr.islandFailure d, .uciePortFailure d],
      Completes i s fun t => ∃ u : State, t = u.dispatch ∧ u.disp.lostmap.getLsbD d.val = true ∧
        (u.dieAt d).alive = false ∧ (s.mem.wf = true → ∀ a, adDie a = d → a < 2 ^ 30 → u.byteAt a = 0) ∧
        ∃ x ∈ u.timers, x.task = ⟨0, .instr .dieLossNotice (.die s.host.pkg d.val)⟩ ∧ x.at_ ≤ s.now + 200000) ∧
    (s.msg = .none →
      ((∀ d : Fin 8, s.disp.silent.getLsbD d.val = true → s.disp.missed.get d < 2) →
        Completes .heartbeatPoll s fun t => ∃ u : State, t = u.dispatch ∧ u.dies = s.dies ∧ u.mem = s.mem ∧
          u.disp.lostmap = s.disp.lostmap ∧
          (∀ d : Fin 8, u.disp.missed.get d = if s.disp.silent.getLsbD d.val = true then s.disp.missed.get d + 1 else 0) ∧
          ∃ x ∈ u.timers, x.task = ⟨0, .instr .heartbeatPoll .none⟩ ∧ x.at_ = s.now + 200000) ∧
      (∀ d : DieIx, s.disp.silent.getLsbD d.val = true → 2 ≤ s.disp.missed.get d → s.disp.lostmap.getLsbD d.val = false →
        Completes .heartbeatPoll s fun t => ∃ u : State, t = u.dispatch ∧ u.disp.lostmap.getLsbD d.val = true ∧
          (u.dieAt d).alive = false)) ∧
    (∀ pkg die, s.msg = .die pkg die → pkg = s.host.pkg → Completes .dieLossNotice s fun t =>
      t = s.modDisp fun p => { p with notices := p.notices ++ [die] }) ∧
    (∀ pkg die, s.msg = .die pkg die → pkg < 32 → die < 8 → pkg ≠ s.host.pkg → Completes .dieLossNotice s fun t =>
      ∃ u : State, t = u.dispatch ∧ u.disp.lostmap = s.disp.lostmap ∧
        ∀ (i : DieIx) (x : Arrived), (s.dieAt i).alive = true → x ∈ (u.dieAt i).ord.arrived → x.issuer ≠ 8 * pkg + die) ∧
    (∀ pkg id, s.msg = .package pkg id → pkg < 32 → pkg ≠ s.host.pkg → pkg ∉ s.disp.lostPkgs →
      (∀ n, (s.disp.queueAt n).recov = false) →
      Completes .unansweringPackageLost s fun t => ∃ u : State, t = u.dispatch ∧ pkg ∈ u.disp.lostPkgs ∧
        ∀ (i : DieIx) (x : Arrived), (s.dieAt i).alive = true → x ∈ (u.dieAt i).ord.arrived → x.issuer / 8 ≠ pkg)) ∧
  (∀ (s : State) (leaf : Nat) (m : Migr), s.die.migs = [m] → m.leaf = leaf → s.msg = .launch leaf →
    let n := m.geom.bytes
    (m.tier = 1 → m.buf = [] → m.ahead ≠ [] → Completes .servicePathSequence s fun t =>
      (∃ l, t.die.migs = [{ m.taken m.ahead with buf := l }] ∧
        (l.map fun y => (y.1, y.2.1)) = m.ahead.map fun u => (u, rdBytes s.mem.res (m.frame * n + 64 * u) 64)) ∧
      t.mem = s.mem ∧ SameRegs s t ∧ SameOtherDies s t ∧
      ∃ x ∈ t.timers, x.task = ⟨s.cur, .instr .servicePathSequence (.launch leaf)⟩ ∧ s.now < x.at_) ∧
    (∀ (u : Nat) (bs : List Byte) (p q : Bool), m.dtier = 1 → m.buf = [(u, bs, p, q)] → bs.length = 64 → s.mem.wf = true →
      Completes .servicePathSequence s fun t => t.die.migs = [{ m with buf := [] }] ∧
        (∀ (k : Nat) (x : Byte), bs[k]? = some x → t.resAt (m.dframe * n + 64 * u + k) = x) ∧
        (∀ x, x < m.dframe * n + 64 * u ∨ m.dframe * n + 64 * u + 64 ≤ x → t.resAt x = s.resAt x) ∧
        (∀ x, t.byteAt x = s.byteAt x) ∧ t.mem.hbm = s.mem.hbm ∧ SameRegs s t ∧ SameOtherDies s t) ∧
    (m.buf = [] → m.ahead = [] → Completes .servicePathSequence s fun t => t = s) ∧
    (m.tier = 0 → m.buf = [] → m.ahead ≠ [] →
      (∀ k, s.svcReady (m.geom.chunkBank (64 * m.ahead.headD 0)) k false = false) →
      Completes .servicePathSequence s fun t => t = s.after 1 .servicePathSequence (.launch leaf))) ∧
  (∀ (s : State) (leaf st : Nat) (m : Migr), s.msg = .package leaf st → s.die.migs = [m] → m.leaf = leaf →
    s.die.pageq = [] → (m.cmd = false → Completes .migrationComplete s fun t => t.die.migs = [] ∧ t.ctx = s.ctx ∧
        t.mem = s.mem ∧ SameOtherDies s t) ∧
      (m.cmd = true → Completes .migrationComplete s fun t => t.die.migs = [] ∧ t.host.resp = some (0, .ofNat 64 st)))

/-! ### Power-on, the host and the dispatcher -/

/-- R5, R12, R19, R138, R144, R148, R410, R412, R413, R417 and R418: power-on leaves a package ready, or in failsafe at the
stage that failed; a doorbell is recorded and read within 4,000 cycles, and a TAIL beyond the ring disables its queue; the
reservoir window reads and writes the bytes it names, stops beyond the reservoir and is not served in failsafe; a register
write changes its register or rings a doorbell; a debugger's write changes only the storage that it names. -/
def Obligations.HostStepsReachOnlyWhatTheyName : Prop :=
  (∀ s : State, s.host.images.all s.host.accepts = true → Completes (.powerOn none) s fun t => t.gtc = 0 ∧
    t.host.stage = 7 ∧ t.host.ready = true ∧ t.host.failsafe = false ∧ t.host.images = s.host.images ∧
    t.host.minSvn = s.host.minSvn ∧ t.mem.host = s.mem.host ∧ t.mem.res = [] ∧ t.mem.hbm = [] ∧ t.disp.launches = [] ∧
    t.fab.dflight = s.fab.dflight ∧ t.fab.slack = s.fab.slack ∧
    (∀ k, k < 16 → (t.fab.port k).srclost = !s.fab.laser.getLsbD (k / 8)) ∧
    (∀ i : Fin 9, t.host.points.get i = .nominal ∧ t.host.pointDue.get i = none) ∧
    (∃ x ∈ t.timers, x.at_ = s.now + 200000 ∧ x.task = ⟨0, .instr .heartbeatPoll .none⟩) ∧
    ∀ d : DieIx, (t.dieAt d).pump.idleTab = some powerOnIdle ∧ (t.dieAt d).running = false ∧
      (∀ r, (t.dieAt d).ctx.rs r = 0) ∧ (t.dieAt d).err.rebuilt = (s.dieAt d).err.rebuilt ∧
      (t.dieAt d).ctx.tvec.toNat % 128 = 0 ∧
      (∀ b : BayIx, ∃ x ∈ t.timers, x.at_ = s.now + 1024 ∧ x.task = ⟨d, .instr (.scrubRead b) .none⟩) ∧
      (s.host.retireMap = [] → (t.dieAt d).alive = true ∧
        ∀ k, k < 8 → granMode (t.mem.granEntry d.val (16376 + k)) = 6 ∧
          granOwner (t.mem.granEntry d.val (16376 + k)) = 0xFFFF)) ∧
  (∀ (s : State) (k : Nat), 1 ≤ k → k ≤ 7 → (6 ≤ k → s.host.images.all s.host.accepts = true) →
    Completes (.powerOn (some k)) s fun t => t.gtc = 0 ∧ t.host.stage = k ∧ t.host.ready = false ∧ t.host.failsafe = true ∧
      t.host.images = s.host.images ∧ t.mem.host = s.mem.host ∧ t.host.msix.get 3 = 1 ∧
      ∀ d : DieIx, (t.dieAt d).pump.idleTab = if 4 ≤ k then some powerOnIdle else none) ∧
  (∀ s : State, s.host.images.all s.host.accepts = false → ∀ i ∈ [Instr.powerOn none, .powerOn (some 6), .powerOn (some 7)],
    Completes i s fun t => t.host.stage = 5 ∧ t.host.ready = false ∧ t.host.failsafe = true) ∧
  (∀ (s : State) (q tail : BitVec 16), SMap.wf {} s.disp.queues = true → Completes (.hostDoorbellWrite q tail) s fun t =>
    t.disp.queueAt q.toNat = { s.disp.queueAt q.toNat with bell := tail.toNat } ∧
    (∀ n, n ≠ q.toNat → t.disp.queueAt n = s.disp.queueAt n) ∧ t.dies = s.dies ∧ t.mem = s.mem ∧
    ∃ x ∈ t.timers, x.task = ⟨0, .instr .doorbellPoll .none⟩ ∧ s.now < x.at_ ∧ x.at_ ≤ s.now + 4000) ∧
  (∀ s : State, s.host.ready = false ∨ s.host.failsafe = true → Completes .doorbellPoll s fun t => t = s) ∧
  (∀ (s : State) (n : Nat) (q : Queue), s.host.ready = true → s.host.failsafe = false → s.disp.launches = [] →
    s.disp.queues = [(n, q)] → q.queued = true →
    let beyond := 2 ^ q.rlog < (q.bell + 2 ^ 16 - q.head) % 2 ^ 16
    (q.en = false → ¬ beyond → Completes .doorbellPoll s fun t =>
      t.disp.queueAt n = { q with tail := q.bell } ∧ t.disp.faults = s.disp.faults ∧ t.dies = s.dies ∧ t.mem = s.mem) ∧
    (q.en = true ∨ q.bell ≠ q.tail → beyond → s.disp.faults.length < 4096 → Completes .doorbellPoll s fun t =>
      t.disp.queueAt n = { q with tail := q.bell, en := false } ∧ (∃ w, t.disp.faults = s.disp.faults ++ [w]) ∧
      t.dies = s.dies ∧ t.mem = s.mem)) ∧
  (∀ (s : State) (a n : Nat), s.msg = .hostRead a n →
    (a + n ≤ 2 ^ 40 → s.host.failsafe = false → Completes .hostReservoirRead s fun t =>
      t.host.answer.1 = (List.range n).map (fun k => s.resAt (a + k)) ∧
      (t.host.answer.2 = true ↔ ∃ w, a / 16 ≤ w ∧ 16 * w < a + n ∧ SMap.get false s.mem.resPz w = true) ∧
      t.mem = s.mem ∧ t.dies = s.dies ∧ t.disp = s.disp) ∧
    (a + n ≤ 2 ^ 40 → s.host.failsafe = true → Completes .hostReservoirRead s fun t =>
      t = s.modHost fun h => { h with answer := ([], false) }) ∧
    (2 ^ 40 < a + n → exec .hostReservoirRead s = .fault (.noReservoirByte a))) ∧
  (∀ (s : State) (a : Nat) (l : List Byte), s.msg = .hostWrite a l →
    (a + l.length ≤ 2 ^ 40 → s.host.failsafe = false → s.mem.wf = true → Completes .hostReservoirWrite s fun t =>
      (∀ (k : Nat) (x : Byte), l[k]? = some x → t.resAt (a + k) = x) ∧
      (∀ x, x < a ∨ a + l.length ≤ x → t.resAt x = s.resAt x) ∧
      (∀ w, SMap.get false t.mem.resPz w = (SMap.get false s.mem.resPz w &&
        !decide (a ≤ 16 * w ∧ 16 * w + 16 ≤ a + l.length))) ∧
      (∀ x, t.byteAt x = s.byteAt x) ∧ t.mem.hbm = s.mem.hbm ∧ t.mem.host = s.mem.host ∧ t.dies = s.dies ∧
      t.host = s.host ∧ t.disp = s.disp) ∧
    (a + l.length ≤ 2 ^ 40 → s.host.failsafe = true → Completes .hostReservoirWrite s fun t => t = s) ∧
    (2 ^ 40 < a + l.length → exec .hostReservoirWrite s = .fault (.noReservoirByte a))) ∧
  (∀ (s : State) (off : Nat) (v : Word), s.msg = .hostReg off v →
    (off = 0x010 → s.host.cren = false → Completes .hostRegisterWrite s fun t =>
      t = s.modHost fun h => { h with crbase := v.toNat - v.toNat % 4096 }) ∧
    (off = 0x010 → s.host.cren = true → Completes .hostRegisterWrite s fun t => t = s) ∧
    (off = 0x018 → Completes .hostRegisterWrite s fun t => t = s.modHost fun h =>
      { h with cren := v.getLsbD 8, crlog := if s.host.cren = true then h.crlog else min (v.toNat % 16) 8 }) ∧
    (off = 0x020 → Completes .hostRegisterWrite s fun t => t = s.modHost fun h => { h with crtail := v.toNat % 2 ^ 16 }) ∧
    (∀ q : Nat, q < 2 ^ 16 → off = 0x100000 + 8 * q → SMap.wf {} s.disp.queues = true →
      Completes .hostRegisterWrite s fun t =>
        t.disp.queueAt q = { s.disp.queueAt q with bell := v.toNat % 2 ^ 16 } ∧
        (∀ n, n ≠ q → t.disp.queueAt n = s.disp.queueAt n) ∧ t.dies = s.dies ∧ t.mem = s.mem ∧ t.host = s.host ∧
        ∃ x ∈ t.timers, x.task = ⟨0, .instr .doorbellPoll .none⟩ ∧ s.now < x.at_ ∧ x.at_ ≤ s.now + 4000) ∧
    (off ≠ 0x010 → off ≠ 0x018 → off ≠ 0x020 → off < 0x100000 ∨ 0x180000 ≤ off ∨ off % 8 ≠ 0 →
      Completes .hostRegisterWrite s fun t => t = s)) ∧
  (∀ (s : State) (kind lane ix : Nat) (b : BayIx) (v : BitVec 256), s.msg = .debug kind b.val lane ix v → lane < 128 →
    (kind = 0 → 0 < ix → ix < 64 → Completes .debuggerWrite s fun t => t.ctx.rs (.ofNat 6 ix) = v.setWidth 64 ∧
      (∀ r : BitVec 6, r.toNat ≠ ix → t.ctx.rs r = s.ctx.rs r) ∧ (∀ r, t.ctx.rp r = s.ctx.rp r) ∧
      (∀ r, t.ctx.rh r = s.ctx.rh r) ∧ (∀ e ∈ t.ctx.hoist, e.d ≠ ix) ∧
      (∀ f ∈ t.ctx.failed, f.isH = false → f.reg ≠ ix) ∧ SameBays s t ∧ SameSpecial s t ∧ t.mem = s.mem ∧
      SameOtherDies s t) ∧
    (kind = 1 → ix < 16 → Completes .debuggerWrite s fun t => t.ctx.rh (.ofNat 4 ix) = v ∧
      (∀ r : BitVec 4, r.toNat ≠ ix → t.ctx.rh r = s.ctx.rh r) ∧ (∀ r, t.ctx.rs r = s.ctx.rs r) ∧
      (∀ r, t.ctx.rp r = s.ctx.rp r) ∧ (∀ f ∈ t.ctx.failed, f.isH = true → f.reg ≠ ix) ∧ t.ctx.hoist = s.ctx.hoist ∧
      SameBays s t ∧ SameSpecial s t ∧ t.mem = s.mem ∧ SameOtherDies s t) ∧
    (kind = 2 → 0 < ix → ix < 16 → Completes .debuggerWrite s fun t => t.ctx.rp (.ofNat 4 ix) = v.getLsbD 0 ∧
      (∀ r : BitVec 4, r.toNat ≠ ix → t.ctx.rp r = s.ctx.rp r) ∧ (∀ r, t.ctx.rs r = s.ctx.rs r) ∧
      (∀ r, t.ctx.rh r = s.ctx.rh r) ∧ SameBays s t ∧ SameSpecial s t ∧ t.mem = s.mem ∧ SameOtherDies s t) ∧
    (kind = 3 → ix < 64 → SMap.wf 0 (s.bayAt b).v = true → Completes .debuggerWrite s fun t =>
      SMap.get 0 (t.bayAt b).v (128 * ix + lane) = v.setWidth 32 ∧
      (∀ k, k ≠ 128 * ix + lane → SMap.get 0 (t.bayAt b).v k = SMap.get 0 (s.bayAt b).v k) ∧
      (∀ b', b' ≠ b → t.bayAt b' = s.bayAt b') ∧ SameRegs s t ∧ SameSpecial s t ∧ t.mem = s.mem ∧ SameOtherDies s t) ∧
    (kind = 6 → 0 < ix → ix < 8 → Completes .debuggerWrite s fun t => (t.bayAt b).mask (.ofNat 3 ix) = v.setWidth 128 ∧
      (∀ r : BitVec 3, r.toNat ≠ ix → (t.bayAt b).mask r = (s.bayAt b).mask r) ∧ (t.bayAt b).v = (s.bayAt b).v ∧
      (∀ b', b' ≠ b → t.bayAt b' = s.bayAt b') ∧ SameRegs s t ∧ SameSpecial s t ∧ t.mem = s.mem ∧ SameOtherDies s t) ∧
    (kind = 7 → ix < 2 ^ 16 → SMap.wf 0 (s.bayAt b).mxu.acca = true → Completes .debuggerWrite s fun t =>
      SMap.get 0 (t.bayAt b).mxu.acca ix = v.setWidth 32 ∧ (t.bayAt b).mxu.accb = (s.bayAt b).mxu.accb ∧
      (∀ k, k ≠ ix → SMap.get 0 (t.bayAt b).mxu.acca k = SMap.get 0 (s.bayAt b).mxu.acca k) ∧
      (∀ b', b' ≠ b → t.bayAt b' = s.bayAt b') ∧ SameRegs s t ∧ SameSpecial s t ∧ t.mem = s.mem ∧ SameOtherDies s t))

/-- R414 to R416, R418 to R421, R343, R345, R363, R365, R392, R402, R404 and R314: what each command of the host answers,
and what it changes; in failsafe only three of them are served. -/
def Obligations.HostCommandsAnswer : Prop :=
  let answers := fun (t : State) (st : Nat) (v : Word) => t.host.resp = some (st, v)
  let kept := fun (s t : State) => t.dies = s.dies ∧ t.fab = s.fab ∧ t.mem.cistern = s.mem.cistern ∧ t.mem.res = s.mem.res ∧
    t.mem.hbm = s.mem.hbm
  let hw := fun (s : State) (a n : Nat) => bytesNat (rdBytes s.mem.host a n)
  (∀ (s : State) (q n c : BitVec 16) (k : BitVec 3) (bay d : BitVec 3) (bank : BitVec 7) (g : BitVec 8) (p : BitVec 5)
      (w x y z a : Word) (b : Bool), s.host.failsafe = true → s.msg = .none →
    ∀ i ∈ [Instr.qset q k w x, .ctxset c w, .region n g w x, .tier w x, .tierMigration w x y b, .recover q w, .retireDie d,
      .retireBank d bay bank, .attest w x y z a, .domainJoin p, .domainLeave p, .pcap w],
    Completes i s fun t => answers t 2 0 ∧ kept s t ∧ t.disp = s.disp) ∧
  (∀ (s : State) (addr max : Word), let n := min max.toNat s.disp.faults.length
    s.host.unreadable = [] → s.host.serving = false → SMap.wf 0 s.mem.host = true → (∀ w ∈ s.disp.faults, w.length = 8) →
    Completes (.faults addr max) s fun t => answers t 0 (.ofNat 64 n) ∧ kept s t ∧
      t.disp = { s.disp with faults := s.disp.faults.drop n } ∧
      ∀ (k j i : Nat) (w : List Word) (x : Word), k < n → s.disp.faults[k]? = some w → w[j]? = some x → i < 8 →
        SMap.get 0 t.mem.host (addr.toNat + 64 * k + 8 * j + i) = .ofNat 8 (x.toNat / 256 ^ i)) ∧
  (∀ (s : State) (addr : Word), s.host.unreadable = [] → s.host.serving = false → SMap.wf 0 s.mem.host = true →
    Completes (.resync addr) s fun t => answers t 0 (.ofNat 64 s.gtc) ∧ kept s t ∧ t.disp = s.disp ∧
      hw t addr.toNat 8 = 0x14E595352 ∧ hw t (addr.toNat + 8) 8 = s.gtc % 2 ^ 64) ∧
  (∀ (s : State) (q : BitVec 16) (k : BitVec 3) (v m : Word), s.host.failsafe = false → k.toNat ≤ 2 →
    SMap.wf {} s.disp.queues = true →
    let x := s.disp.queueAt q.toNat
    let new := (BitVec.ofNat 64 (x.word k.toNat) &&& ~~~m) ||| (v &&& m)
    let runs := ∃ l ∈ s.disp.launches, l.ctx = x.ctx ∧ l.phase ≠ .parked ∧ l.phase ≠ .waiting
    let sound := v &&& m &&& ~~~BitVec.ofNat 64 (queueBits k.toNat) = 0 ∧ queueBad k.toNat new.toNat m.toNat = false
    let free := k.toNat = 0 ∧ m.toNat < 16
    x.head < 2 ^ 16 → x.tail < 2 ^ 16 → x.ring < 2 ^ 40 → x.rlog < 16 → x.tier < 8 → x.shr < 256 → x.shc < 256 →
    x.region < 2 ^ 16 → x.ctx < 2 ^ 16 →
    (sound → ¬ runs ∨ free → Completes (.qset q k v m) s fun t => answers t 0 0 ∧ kept s t ∧
        (∀ n, n ≠ q.toNat → t.disp.queueAt n = s.disp.queueAt n) ∧
        (∀ j, j ≤ 2 → j ≠ k.toNat → (t.disp.queueAt q.toNat).word j = x.word j) ∧
        (k.toNat ≤ 1 → BitVec.ofNat 64 ((t.disp.queueAt q.toNat).word k.toNat) = new ∧
          (t.disp.queueAt q.toNat).bell = x.bell) ∧
        (k.toNat = 2 → (t.disp.queueAt q.toNat).head = x.head ∧ (t.disp.queueAt q.toNat).tail = new.toNat / 2 ^ 16 % 2 ^ 16 ∧
          (t.disp.queueAt q.toNat).bell = new.toNat / 2 ^ 16 % 2 ^ 16) ∧
        ∃ y ∈ t.timers, y.at_ = s.now + 1 ∧ y.task = ⟨0, .instr .doorbellPoll .none⟩) ∧
    (sound → runs → ¬ free → Completes (.qset q k v m) s fun t => answers t 2 0 ∧ kept s t ∧ t.disp = s.disp) ∧
    (¬ sound → Completes (.qset q k v m) s fun t => answers t 1 0 ∧ kept s t ∧ t.disp = s.disp)) ∧
  (∀ (s : State) (c : BitVec 16) (addr : Word), s.host.failsafe = false → s.host.unreadable = [] →
    let a := addr.toNat
    (hw s (a + 80) 8 % 128 = 0 → (∀ l ∈ s.disp.launches, l.ctx ≠ c.toNat) → SMap.wf {} s.disp.ctxs = true →
      Completes (.ctxset c addr) s fun t => answers t 0 0 ∧ kept s t ∧ t.disp.queues = s.disp.queues ∧
        (∀ n, n ≠ c.toNat → t.disp.ctxAt n = s.disp.ctxAt n) ∧
        t.disp.ctxAt c.toNat =
          { domid := hw s a 2, region := hw s (a + 2) 2, leafBase := hw s (a + 8) 4, leafN := hw s (a + 12) 4,
            codeBase := hw s (a + 16) 4, csaLeaf := hw s (a + 20) 4, csan := hw s (a + 24) 1, rbase := hw s (a + 32) 5,
            rlen := hw s (a + 40) 5, touch := (s.disp.ctxAt c.toNat).touch, tvec := hw s (a + 80) 8 }) ∧
    (hw s (a + 80) 8 % 128 ≠ 0 → Completes (.ctxset c addr) s fun t => answers t 1 0 ∧ kept s t ∧ t.disp = s.disp) ∧
    (hw s (a + 80) 8 % 128 = 0 → (∃ l ∈ s.disp.launches, l.ctx = c.toNat) →
      Completes (.ctxset c addr) s fun t => answers t 2 0 ∧ kept s t ∧ t.disp = s.disp)) ∧
  (∀ (s : State) (n : BitVec 16) (die : BitVec 8) (addr count : Word), s.host.failsafe = false → s.host.unreadable = [] →
    let g := die.toNat
    let gs := (List.range count.toNat).map fun k => hw s (addr.toNat + 2 * k) 2
    let ok := ∀ x ∈ gs, x < 16384 ∧ (g / 8 = s.host.pkg → granMode (s.mem.granEntry (g % 8) x) = 4)
    (n ≠ 0 → ok → Completes (.region n die addr count) s fun t => answers t 0 0 ∧ kept s t ∧
      (gs ≠ [] → (n.toNat, g, gs) ∈ t.disp.regions) ∧
      (∀ x ∈ t.disp.regions, x.1 = n.toNat → x.2.1 = g → x.2.2 = gs ∧ gs ≠ []) ∧
      ∀ x : Nat × Nat × List Nat, x.1 ≠ n.toNat ∨ x.2.1 ≠ g → (x ∈ t.disp.regions ↔ x ∈ s.disp.regions)) ∧
    (n = 0 ∨ ¬ ok → Completes (.region n die addr count) s fun t => answers t 1 0 ∧ kept s t ∧ t.disp = s.disp)) ∧
  (∀ (s : State) (sel v : Word), s.host.failsafe = false → s.disp.queues = [] →
    let sets := fun (p : Disp) => Completes (.tier sel v) s fun t => answers t 0 0 ∧ kept s t ∧ t.disp = p
    (∀ k : Fin 8, sel.toNat = k.val → sets { s.disp with horizon := s.disp.horizon.set k.val v.toNat k.isLt }) ∧
    (sel.toNat = 8 → 100000 ≤ v.toNat → sets { s.disp with maxSlice := v.toNat }) ∧
    (sel.toNat = 9 → sets { s.disp with prepLead := v.toNat }) ∧
    (sel.toNat = 10 → sets { s.disp with goLead := v.toNat }) ∧
    (sel.toNat = 11 → sets { s.disp with ackWin := v.toNat }) ∧
    (sel.toNat = 12 → v.toNat ≠ 0 → v.toNat < 2 ^ 32 → sets { s.disp with acthr := v.toNat }) ∧
    (12 < sel.toNat ∨ (sel.toNat = 8 ∧ v.toNat < 100000) ∨ (sel.toNat = 12 ∧ (v.toNat = 0 ∨ 2 ^ 32 ≤ v.toNat)) →
      Completes (.tier sel v) s fun t => answers t 1 0 ∧ kept s t ∧ t.disp = s.disp)) ∧
  (∀ (s : State) (ctx leaf df : Word) (tier : Bool), s.host.failsafe = false → ctx.toNat < 2 ^ 16 → leaf.toNat < 2 ^ 32 →
    df.toNat < 2 ^ 32 →
    ((∀ d : DieIx, (s.dieAt d).ctx.ctxNo.toNat ≠ ctx.toNat) →
      Completes (.tierMigration ctx leaf df tier) s fun t => answers t 2 0 ∧ kept s t ∧ t.disp = s.disp) ∧
    (∀ d : DieIx, (s.dieAt d).alive = true → (s.dieAt d).ctx.ctxNo.toNat = ctx.toNat → (s.dieAt d).ctx.leafN ≠ 0 →
      (∀ d', d' ≠ d → (s.dieAt d').ctx.ctxNo.toNat ≠ ctx.toNat) → (s.dieAt d).pageq = [] →
      let u : State := { s with cur := d }
      let w := u.cachedWord leaf.toNat
      let dt := if tier = true then 1 else 0
      let ok := leaf.toNat < u.ctx.leafN ∧ lfValid w = true ∧ lfMoving w = false ∧
        frameOk u.ctx (u.leafGeom leaf.toNat) (lfTier w) (lfFrame w) = true ∧
        frameOk u.ctx (u.leafGeom leaf.toNat) dt df.toNat = true
      (ok → u.die.shadowOf (granule (u.leafAddr leaf.toNat)) = none →
        Completes (.tierMigration ctx leaf df tier) s fun t => t.host = s.host ∧ t.disp = s.disp ∧
          (∀ d', d' ≠ d → t.dieAt d' = s.dieAt d') ∧ ∃ m, (t.dieAt d).migs = (s.dieAt d).migs ++ [m] ∧ m.idx = leaf.toNat ∧
            m.dframe = df.toNat ∧ m.dtier = dt ∧ m.tier = lfTier w ∧ m.frame = lfFrame w ∧ m.cmd = true ∧ m.pos = 0 ∧
            m.buf = []) ∧
      (¬ ok → Completes (.tierMigration ctx leaf df tier) s fun t => answers t 0 3 ∧ kept s t ∧ t.disp = s.disp))) ∧
  (∀ (s : State) (q : BitVec 16) (addr : Word), s.host.failsafe = false → s.host.unreadable = [] →
    SMap.wf 0 s.disp.recovery = true → Completes (.recover q addr) s fun t => answers t 0 0 ∧ kept s t ∧
      SMap.get 0 t.disp.recovery q.toNat = (if addr = 0 then 0 else hw s addr.toNat 64 + 2 ^ 512) ∧
      ∀ n, n ≠ q.toNat → SMap.get 0 t.disp.recovery n = SMap.get 0 s.disp.recovery n) ∧
  (∀ (s : State) (d : BitVec 3), s.host.failsafe = false → s.disp.launches = [] → s.disp.lostmap.getLsbD d.toNat = false →
    Completes (.retireDie d) s fun t => answers t 0 0 ∧ ∃ u : State, t = u.dispatch.reply 0 0 ∧
      u.host.retireMap = s.host.retireMap ++ [(d.toNat, none)] ∧ u.disp.lostmap.getLsbD d.toNat = true ∧
      (u.dieAt ⟨d.toNat, d.isLt⟩).alive = false) ∧
  (∀ (s : State) (d bay : BitVec 3) (bank : BitVec 7), s.host.failsafe = false → s.msg = .none →
    let i : DieIx := ⟨d.toNat, d.isLt⟩
    let e := (s.dieAt i).err
    let k := 16 * bay.toNat + bank.toNat / 8
    SMap.wf 0 e.retired = true → e.isLost bay.toNat bank.toNat = false → SMap.get 0 e.retired k = 0 → e.rcBusy = false →
    Completes (.retireBank d bay bank) s fun t => answers t 0 0 ∧ t.mem.cistern = s.mem.cistern ∧
      (∀ d', d' ≠ i → t.dieAt d' = s.dieAt d') ∧ (t.dieAt i).ctx = (s.dieAt i).ctx ∧
      SMap.get 0 (t.dieAt i).err.retired k = bank.toNat + 1 ∧ (t.dieAt i).err.rcBusy = true ∧
      (t.dieAt i).err.rcBay = bay.toNat ∧ (t.dieAt i).err.rcBank = bank.toNat ∧ (t.dieAt i).err.rcNext = 0 ∧
      (d.toNat, some (bay.toNat, bank.toNat)) ∈ t.host.retireMap ∧
      ∃ x ∈ t.timers, x.at_ = s.now + 1 ∧ x.task = ⟨i, .instr .bankRebuildWord .none⟩) ∧
  (∀ (s : State) (addr len : Word), s.host.unreadable = [] →
    let l := rdBytes s.mem.host addr.toNat len.toNat
    let busy := imageTarget l ≠ 1 ∧ ∃ x ∈ s.disp.launches, x.phase ≠ .parked
    let h := s.host.apply l
    (busy → Completes (.fwload addr len) s fun t => answers t 2 0 ∧ kept s t ∧ t.disp = s.disp ∧
      t.host.images = s.host.images) ∧
    (¬ busy → s.host.accepts l = false → Completes (.fwload addr len) s fun t => answers t 3 0 ∧ kept s t ∧
      t.disp = s.disp ∧ t.host.images = s.host.images ∧ t.host.minSvn = s.host.minSvn) ∧
    (¬ busy → s.host.accepts l = true → Completes (.fwload addr len) s fun t => answers t 0 0 ∧
      t.host.minSvn = max s.host.minSvn (bytesNat ((l.drop 8).take 8)) ∧ l ∈ t.host.images ∧
      (∀ x, x ≠ l → (x ∈ t.host.images ↔ x ∈ s.host.images ∧ imageTarget x ≠ imageTarget l)) ∧
      (s.host.failsafe = true → s.host.stage ≠ 6 → s.host.stage ≠ 7 →
        (h.images.all h.accepts = true → t.host.ready = true ∧ t.host.stage = 7 ∧ t.host.failsafe = false) ∧
        (h.images.all h.accepts = false → t.host.ready = false ∧ t.host.stage = 5 ∧ t.host.failsafe = true)) ∧
      (s.host.failsafe = false → kept s t ∧ t.disp = s.disp))) ∧
  (∀ (s : State) (n0 n1 n2 n3 addr : Word), s.host.failsafe = false →
    (s.host.unreadable = [] → s.host.lmsLeaf < 2 ^ 20 → s.host.serving = false → SMap.wf 0 s.mem.host = true →
      Completes (.attest n0 n1 n2 n3 addr) s fun t => answers t 0 0 ∧ kept s t ∧ t.disp = s.disp ∧
        t.host.lmsLeaf = s.host.lmsLeaf + 1 ∧ hw t addr.toNat 8 = n0.toNat ∧ hw t (addr.toNat + 8) 8 = n1.toNat ∧
        hw t (addr.toNat + 16) 8 = n2.toNat ∧ hw t (addr.toNat + 24) 8 = n3.toNat) ∧
    (2 ^ 20 ≤ s.host.lmsLeaf → Completes (.attest n0 n1 n2 n3 addr) s fun t => answers t 2 0 ∧ kept s t ∧
      t.disp = s.disp)) ∧
  (∀ (s : State) (p : BitVec 5), s.host.failsafe = false →
    ((∀ l ∈ s.disp.launches, l.phase = .parked) →
      let delays := fun (t : State) (w : Nat) => t.fab.dflight = w ∧ w + t.fab.slack ≤ 1024 ∧
        ∀ d : DieIx, (t.dieAt d).ord.rfdly = w + t.fab.slack ∧ (t.dieAt d).ctx = (s.dieAt d).ctx
      (s.takeWait.1 ≤ 1024 → Completes (.domainJoin p) s fun t => answers t 0 0 ∧ t.host.pkg = p.toNat ∧
        t.host.domain = true ∧ t.mem.cistern = s.mem.cistern ∧ delays t s.takeWait.1 ∧
        ∀ k : Nat, k < 16 → (s.fab.port k).srclost = false → ⟨s.cur, .instr (.portGateWrite k false) .none⟩ ∈ t.todo) ∧
      (1024 < s.takeWait.1 → Completes (.domainJoin p) s fun t => answers t 2 0 ∧ kept s t ∧ t.disp = s.disp) ∧
      Completes (.domainLeave p) s fun t => answers t 0 0 ∧ t.host.pkg = p.toNat ∧ t.host.domain = false ∧
        t.mem.cistern = s.mem.cistern ∧ delays t (min s.takeWait.1 1024) ∧
        ∀ k : Nat, k < 16 → ⟨s.cur, .instr (.portGateWrite k true) .none⟩ ∈ t.todo) ∧
    ((∃ l ∈ s.disp.launches, l.phase ≠ .parked) → ∀ i ∈ [Instr.domainJoin p, .domainLeave p],
      Completes i s fun t => answers t 2 0 ∧ kept s t ∧ t.disp = s.disp)) ∧
  (∀ (s : State) (w : Word), s.host.failsafe = false →
    (1000 ≤ w.toNat → w.toNat ≤ 5600 → Completes (.pcap w) s fun t => answers t 0 0 ∧ t.host.watts = w.toNat ∧
      t.mem.cistern = s.mem.cistern ∧ t.disp = s.disp ∧ t.fab = s.fab ∧ ∀ d : DieIx, (t.dieAt d).ctx = (s.dieAt d).ctx ∧
        (t.dieAt d).err.limit = (Config.capLimit w.toNat).toNat ∧ ∀ i : Fin 9, t.host.points.get i = s.host.points.get i ∧
          t.host.pointDue.get i = some (.capped w.toNat)) ∧
    (w.toNat < 1000 ∨ 5600 < w.toNat → Completes (.pcap w) s fun t => answers t 1 0 ∧ kept s t ∧ t.disp = s.disp))

/-- R5, R144, R242, R274, R344, R348, R361, R362, R364, R367, R368, R369 and R372: slices, halts, saves and restores of a
launch, the end of a kernel here and in other packages, and the nodes of a task graph. Where a decision follows, the state
before it is described (R347). -/
def Obligations.LaunchesAreDispatchedHaltedAndSaved : Prop :=
  let me := fun (s : State) (i : Instr) (m : Msg) (n : Nat) (t : State) =>
    ∃ x ∈ t.timers, x.at_ = s.now + n ∧ x.task = ⟨s.cur, .instr i m⟩
  let others := fun (s : State) (l : Launch) => ∃ d ∈ l.runs, d ≠ s.cur.val ∧ d ∉ l.halted
  let less := fun (s : State) (l : Launch) => l.runs.filter fun d => d != s.cur.val
  let halted := fun (s : State) (l : Launch) => (s.cur.val :: l.halted).dedup
  let asked := fun (s : State) (l : Launch) (t : State) => ∀ d : DieIx, d.val ∈ l.runs →
    ∃ x ∈ t.timers, x.task = ⟨d, .instr .preemptionRequest (.launch l.id)⟩ ∧ x.at_ ≤ s.now + 60
  (∀ (s : State) (id : Nat) (l : Launch), s.launch id = some l →
    let stands := l.phase = .halting ∨ l.phase = .parked ∨ l.phase = .ending ∨ s.now < l.sliceAt
    (¬ stands → SMap.wf {} s.disp.queues = true → Completes (.sliceEnd id) s fun t =>
      ∃ u : State, t = u.dispatch ∧ u.launch id = some { l with sliceAt := s.now + 2 * s.disp.maxSlice } ∧
        (u.disp.queueAt l.queue).enq = s.gtc ∧ (u.disp.queueAt l.queue).queued = true ∧
        ∃ x ∈ u.timers, x.at_ = s.now + 2 * s.disp.maxSlice ∧ x.task = ⟨0, .instr (.sliceEnd id) .none⟩) ∧
    (stands → Completes (.sliceEnd id) s fun t => t = s) ∧
    (l.phase = .halting → Completes (.contextSaveComplete id) s fun t => ∃ u : State, t = u.dispatch ∧
      u.launch id = some { l with phase := .parked, kept :=
        if l.rota = true then some (s.fab.rota, s.fab.rotaT0, s.fab.rot, s.fab.deads) else none } ∧
      u.dies = s.dies ∧ u.mem = s.mem) ∧
    (l.phase ≠ .halting → Completes (.contextSaveComplete id) s fun t => t = s) ∧
    (l.phase ≠ .restoring → Completes (.contextRestore id) s fun t => t = s) ∧
    (∀ (d : DieIx) (x : Saved), l.phase = .restoring → l.rota = false → l.kept = none → l.saved = [x] → x.die = d.val →
      x.ctx.seg = none → x.ctx.half = .empty → x.ctx.walk.busy = false → SMap.wf 0 x.cells = true → s.mem.wf = true →
      Completes (.contextRestore id) s fun t => ∃ u : State, t = u.dispatch ∧
        u.launch id = some { l with phase := .running, saved := [], halted := [] } ∧
        ((u.dieAt d).running = true ↔ d.val ∈ l.runs) ∧ (u.dieAt d).halting = false ∧
        (u.dieAt d).ctx.s = x.ctx.s ∧ (u.dieAt d).ctx.p = x.ctx.p ∧ (u.dieAt d).ctx.h = x.ctx.h ∧
        (u.dieAt d).ctx.bay = x.ctx.bay ∧ (u.dieAt d).ctx.loops = x.ctx.loops ∧ (u.dieAt d).ctx.idx = x.ctx.idx ∧
        (u.dieAt d).ctx.pend = x.ctx.pend ∧ (u.dieAt d).ctx.ldq = x.ctx.ldq ∧ (u.dieAt d).ctx.stq = x.ctx.stq ∧
        (u.dieAt d).ord.qlog2 = x.qlog2 ∧ (u.dieAt d).ord.cbwait = x.cbwait ∧
        (∀ a, u.byteAt a = if SMap.get 0 x.cells a = 0 then s.byteAt a else SMap.get 0 x.cells a) ∧
        ∀ d', d' ≠ d → u.dieAt d' = s.dieAt d')) ∧
  (∀ (s : State) (id : Nat), s.launch id = none →
    ∀ i ∈ [Instr.sliceEnd id, .contextSaveComplete id, .contextRestore id], Completes i s fun t => t = s) ∧
  (∀ (s : State) (id : Nat), s.msg = .launch id →
    (∀ l, s.launchOn s.cur.val = some l → l.id = id → s.cur.val ∈ l.runs → l.phase = .halting ∨ l.phase = .ending →
      Completes .preemptionRequest s fun t => t = s.modCtx fun c => { c with preq := true }) ∧
    (∀ l, s.launchOn s.cur.val = some l → s.launch id = some l → l.gang = true → l.phase = .running →
      Completes .preemptionRequest s fun t => t.launch id = some { l with phase := .halting } ∧ asked s l t) ∧
    ((∀ l, s.launchOn s.cur.val = some l → l.id ≠ id ∨ (¬ (l.gang = true ∧ l.phase = .running) ∧
        ¬ (s.cur.val ∈ l.runs ∧ (l.phase = .halting ∨ l.phase = .ending)))) →
      Completes .preemptionRequest s fun t => t = s)) ∧
  (∀ s : State, s.launchOn s.cur.val = none →
    (∀ n, s.msg = .status n → Completes .preemptionHalt s fun t => t.die.halting = false ∧ t.ctx.hoist = [] ∧ SameRegs s t ∧
      SameBays s t ∧ SameMem s t ∧ SameOtherDies s t) ∧
    (s.msg = .none → Completes .kernelEnd s fun t => t.die.running = false ∧ t.ctx.exit = none ∧
      (∀ k, k < 6 → (t.ctx.level k).act = false) ∧ t.ctx.hoist = [] ∧
      SameRegs s t ∧ SameBays s t ∧ SameMem s t ∧ SameOtherDies s t)) ∧
  (∀ (s : State) (pkg id code : Nat) (l : Launch), s.msg = .ended pkg id code → s.launch id = some l →
    (pkg = s.host.pkg → Completes .kernelEnd s fun t => t = s) ∧
    (pkg ≠ s.host.pkg → l.confirmed = false ∨ (∃ p ∈ l.rect.pkgs, p ≠ pkg ∧ p ∉ l.ended) →
      Completes .kernelEnd s fun t => ∃ u : State, t = u.dispatch ∧
        u.launch id = some { l with code := code, ended := (pkg :: l.ended).dedup } ∧ u.dies = s.dies ∧ u.mem = s.mem) ∧
    (pkg ≠ s.host.pkg → l.confirmed = true → (∀ p ∈ l.rect.pkgs, p = pkg ∨ p ∈ l.ended) →
      Completes .kernelEnd s fun t => ∃ u : State, t = u.dispatch ∧ u.launch id = none)) ∧
  (∀ (s : State) (l : Launch), s.launchOn s.cur.val = some l → s.launch l.id = some l →
    (s.msg = .status 0 → others s l → Completes .preemptionHalt s fun t =>
      t.launch l.id = some { l with halted := halted s l } ∧ t.ctx.hoist = [] ∧ SameRegs s t ∧ SameBays s t ∧
      t.mem = s.mem ∧ SameOtherDies s t) ∧
    (s.msg = .status 0 → l.fault = none → l.phase = .halting → l.saved = [] → l.runs = [s.cur.val] → l.dies = [s.cur.val] →
      s.die.alive = true →
      (s.die.engine ≠ [] → s.die.sets = [] → Completes .preemptionHalt s fun t => me s .preemptionHalt (.status 0) 1 t ∧
        t.launch l.id = some { l with halted := halted s l } ∧ t.ctx.hoist = [] ∧ SameRegs s t ∧ SameBays s t ∧
        t.mem = s.mem) ∧
      (s.requestsDone = true → s.ctx.sump = [] → s.die.sets = [] → Completes .preemptionHalt s fun t =>
        t.die.running = false ∧ t.die.halting = false ∧
        (∀ g ∈ s.ownGranules s.cur.val s.ctx.domid.toNat, ∀ k, k < 8192 → t.byteAt (granAddr s.cur.val g + k) = 0) ∧
        (∃ x, t.launch l.id = some { l with halted := halted s l, saved := [x] } ∧
          x.die = s.cur.val ∧ x.ctx.s = s.ctx.s ∧ x.ctx.p = s.ctx.p ∧ x.ctx.h = s.ctx.h ∧ x.ctx.bay = s.ctx.bay ∧
          x.ctx.loops = s.ctx.loops ∧ x.ctx.pend = s.ctx.pend ∧ x.ctx.ldq = s.ctx.gets ++ s.ctx.ldq ∧
          x.qlog2 = s.die.ord.qlog2 ∧ x.cbwait = s.die.ord.cbwait) ∧
        ∃ x ∈ t.timers, x.task = ⟨0, .instr (.contextSaveComplete l.id) .none⟩ ∧ s.now < x.at_)) ∧
    (∀ n, s.msg = .status n → n ≠ 0 → l.fault = none →
      (others s l → Completes .preemptionHalt s fun t => asked s l t ∧ t.launch l.id = some { l with
        fault := some (faultStatus n, n % 256), phase := .ending, halted := halted s l }) ∧
      (l.saved = [] → l.runs = [s.cur.val] → l.dies = [s.cur.val] → s.die.alive = true → s.requestsDone = true →
        s.ctx.sump = [] → s.die.sets = [] → Completes .preemptionHalt s fun t => ∃ u : State, t = u.dispatch ∧
          u.launch l.id = none ∧ u.die.running = false)) ∧
    (s.msg = .none → s.ctx.walk.graph = 0 → others s l → Completes .kernelEnd s fun t => ∃ u : State, t = u.dispatch ∧
      u.die.running = false ∧ u.launch l.id = some { l with code := (s.ctx.exit.getD 0).toNat, runs := less s l }) ∧
    (s.msg = .none → s.ctx.walk.graph = 0 → l.runs = [s.cur.val] → l.fault = none → l.saved = [] →
      (l.confirmed = false ∨ (∃ p ∈ l.rect.pkgs, p ≠ s.host.pkg ∧ p ∉ l.ended) → Completes .kernelEnd s fun t =>
        ∃ u : State, t = u.dispatch ∧ u.launch l.id = some { l with
          code := (s.ctx.exit.getD 0).toNat, runs := [], ended := (s.host.pkg :: l.ended).dedup }) ∧
      (∀ ws, l.confirmed = true → (∀ p ∈ l.rect.pkgs, p = s.host.pkg ∨ p ∈ l.ended) → l.coord = true →
        SMap.wf {} s.disp.queues = true → SMap.wf 0 s.mem.res = true → s.record l.queue (s.disp.queueAt l.queue) = some ws →
        ws.getD 2 0 % 16 = 0 → ws.getD 2 0 < 2 ^ 40 → Completes .kernelEnd s fun t => ∃ u : State, t = u.dispatch ∧
          u.launch l.id = none ∧ (u.disp.queueAt l.queue).head = ((s.disp.queueAt l.queue).head + 1) % 2 ^ 16 ∧
          rdBytes u.mem.res (ws.getD 2 0) 16 = natBytes (ws.getD 3 0) 8 ++
            natBytes ((s.ctx.exit.getD 0).toNat % 2 ^ 16 * 2 ^ 8) 8)) ∧
    (s.msg = .none → s.ctx.walk.graph ≠ 0 → Completes .kernelEnd s fun t => t.die.running = false ∧
      t.launch l.id = some { l with code := (s.ctx.exit.getD 0).toNat } ∧
      ∃ l', t.todo = ⟨s.cur, .instr .walkerKernelNode (.status (s.ctx.exit.getD 0).toNat)⟩ :: l') ∧
    (l.fault = none → others s l → ∀ i ∈ [(Instr.walkerKernelNode, 0), (.walkerConditionalNode, 1), (.walkerWhileNode, 2),
        (.walkerJoinNode, 3)],
      let v := (s.node i.2).1
      (s.node i.2).2 = none ∨ (i.2 ≠ 0 ∧ ∃ ws, (s.node i.2).2 = some ws ∧ (v.nodeCond ws).2 = none) ∨
        (i.2 = 2 ∧ ∃ ws, (s.node 2).2 = some ws ∧ (v.nodeCond ws).2 = some true ∧
          (bitsAt (ws.getD 3 0) 16 16 ≤ s.ctx.walk.count ∨ (s.ctx.walk.count = 0 ∧ 8 ≤ s.ctx.walk.whiles.length))) →
      Completes i.1 s fun t => ∃ u : State, t = u.dispatch ∧ u.launch l.id = some { l with
        fault := some (7, 0), phase := .ending, runs := less s l })) ∧
  (∀ (s : State) (ws : List Nat) (kind : Nat), (s.node kind).2 = some ws →
    let v := (s.node kind).1
    let c := v.nodeCond ws
    let goes := fun (v : State) (n : Nat) (whiles : List (Nat × Nat)) (t : State) =>
      if n = 0xFFFF then ∀ l, s.launchOn s.cur.val = some l → s.launch l.id = some l → others s l →
        ∃ u : State, t = u.dispatch ∧ u.ctx.walk.busy = false ∧
          u.launch l.id = some { l with runs := less s l }
      else t.ctx.walk.node = n ∧ t.ctx.walk.busy = true ∧ t.ctx.walk.whiles = whiles ∧ SameRegs s t ∧ SameBays s t ∧
        t.mem = v.mem ∧ (∀ a, t.byteAt a = s.byteAt a) ∧
        (s.ctx.preq = true → t.die.halting = true ∧ me s .preemptionHalt (.status 0) 256 t) ∧
        (s.ctx.preq = false → me s (walkerStep (bitsAt (v.mem.num
          (s.cur.val * 2 ^ 27 + (s.ctx.walk.graph + 32 * n) / 8 * 8 % 2 ^ 27) 8) 0 3)) .none 64 t)
    (kind = 0 → ∀ code, s.msg = .status code →
      Completes .walkerKernelNode s (goes v (if code = 0 then nodeNext ws else nodeAlt ws) s.ctx.walk.whiles)) ∧
    (kind = 0 → s.msg = .none → Completes .walkerKernelNode s fun t => t.die.running = true ∧
      t.ctx.walk.busy = false ∧ t.ctx.target = some { va := ws.getD 1 0, idx := 0 } ∧ t.ctx.seg = none ∧ t.ctx.hoist = [] ∧
      t.die.ord.qlog2 = (if s.ctx.quantum = 0 then 7 else s.ctx.quantum) ∧ t.die.ord.cbwait = 64 ∧
      (∀ b, t.bayAt b = (s.bayAt b).noCuts) ∧ SameRegs s t ∧ t.mem = v.mem ∧ (∀ a, t.byteAt a = s.byteAt a) ∧
      SameOtherDies s t) ∧
    (kind = 1 → ∀ b, c.2 = some b →
      Completes .walkerConditionalNode s (goes c.1 (if b = true then nodeNext ws else nodeAlt ws) s.ctx.walk.whiles)) ∧
    (kind = 2 → c.2 = some false →
      Completes .walkerWhileNode s (goes c.1 (nodeAlt ws) (s.ctx.walk.setCount 0).whiles)) ∧
    (kind = 2 → c.2 = some true → s.ctx.walk.count < bitsAt (ws.getD 3 0) 16 16 →
      s.ctx.walk.count ≠ 0 ∨ s.ctx.walk.whiles.length < 8 →
      Completes .walkerWhileNode s (goes c.1 (nodeNext ws) (s.ctx.walk.setCount (s.ctx.walk.count + 1)).whiles)) ∧
    (kind = 3 → c.2 = some true → Completes .walkerJoinNode s (goes c.1 (nodeNext ws) s.ctx.walk.whiles)) ∧
    (kind = 3 → c.2 = some false → Completes .walkerJoinNode s fun t =>
      (s.ctx.preq = false → t = c.1.after 1 .walkerJoinNode) ∧
      (s.ctx.preq = true → SameRegs s t ∧ (∀ a, t.byteAt a = s.byteAt a) ∧ t.ctx.walk = s.ctx.walk ∧ t.die.halting = true ∧
        me s .preemptionHalt (.status 0) 256 t)))

/-- R358, R359 and R360: the steps of a gang launch at one of its packages: prepared, ready, started at T0 with the token,
confirmed when the last package has started, cancelled or aborted. Where a decision or a start follows, the state before it
is described. -/
def Obligations.GangLaunchesFollowTheirTimes : Prop :=
  (∀ (s u : State) (id n t0 row col va : Nat) (d : DieIx) (i : Image), s.msg = .gang id n t0 row col →
    s.headOf n (s.disp.queueAt n) = (u, .ok (va, d, i)) →
    let q := s.disp.queueAt n
    let r : Rect := if i.free = true then ⟨row, col, i.nr, i.nc⟩ else ⟨i.row, i.col, i.nr, i.nc⟩
    let fits := i.bad = false ∧ u.launch id = none ∧ u.rectOk q r = true ∧ u.diesOpen n [] r = true
    (∀ (v : State) (x : Loads), fits → u.launchLoads q va d i r = (v, .ok x) → v.launch id = none →
      Completes .gangPrepare s fun t => ∃ w : State, t = w.startReady ∧ ∃ l, w.launch id = some l ∧ l.queue = n ∧
        l.phase = .waiting ∧ l.t0 = t0 ∧ l.coord = false ∧ l.rect = r ∧ l.image = va ∧ l.dies = r.own v.host.pkg ∧
        l.token = false ∧ l.begun = false) ∧
    (∀ (v : State) (e : Nat), fits → u.launchLoads q va d i r = (v, .error e) → Completes .gangPrepare s fun t => t = v) ∧
    (¬ fits → Completes .gangPrepare s fun t => t = u)) ∧
  (∀ (s : State) (p id : Nat) (l : Launch), s.msg = .package p id → s.launch id = some l →
    (l.coord = true → Completes .gangReady s fun t => t.dies = s.dies ∧ t.mem = s.mem ∧
      ∃ ps, t.launch id = some { l with ready := ps } ∧ ∀ q, q ∈ ps ↔ q = p ∨ q ∈ l.ready) ∧
    (l.coord = false → Completes .gangReady s fun t => t.launch id = some l ∧ t.dies = s.dies ∧ t.mem = s.mem) ∧
    (l.coord = true → Completes .gangStarted s fun t => t.dies = s.dies ∧ t.mem = s.mem ∧
      ∃ ps, t.launch id = some { l with started := ps } ∧ (∀ q, q ∈ ps ↔ q = p ∨ q ∈ l.started) ∧
        ((∀ q ∈ l.rect.pkgs, q ∈ ps) → l.confirmed = false →
          t.todo = ⟨s.cur, .instr .gangConfirm (.launch id)⟩ :: s.todo) ∧
        ((∃ q ∈ l.rect.pkgs, q ∉ ps) ∨ l.confirmed = true → t.todo = s.todo)) ∧
    (l.coord = false → Completes .gangStarted s fun t => t.launch id = some l ∧ t.dies = s.dies ∧ t.mem = s.mem ∧
      t.todo = s.todo)) ∧
  (∀ (s : State) (id : Nat), s.msg = .launch id → s.launch id = none →
    ∀ i ∈ [Instr.gangReadyDeadline, .goToken, .gangCancel, .gangStart, .gangAckDeadline, .gangConfirm, .gangAbort],
      Completes i s fun t => t = s) ∧
  (∀ (s : State) (id : Nat) (l : Launch), s.msg = .launch id → s.launch id = some l →
    let next := fun (i : Instr) (t : State) => t = { s with todo := ⟨s.cur, .instr i (.launch id)⟩ :: s.todo }
    ((∀ p ∈ l.rect.pkgs, p ∈ l.ready) → Completes .gangReadyDeadline s (next .goToken)) ∧
    ((∃ p ∈ l.rect.pkgs, p ∉ l.ready) → Completes .gangReadyDeadline s (next .gangCancel)) ∧
    (l.confirmed = true ∨ (∀ p ∈ l.rect.pkgs, p ∈ l.started) → Completes .gangAckDeadline s fun t => t = s) ∧
    (l.confirmed = false → (∃ p ∈ l.rect.pkgs, p ∉ l.started) → Completes .gangAckDeadline s (next .gangAbort)) ∧
    (l.phase = .prepared → s.gtc < l.t0 → Completes .goToken s fun t => t.launch id = some { l with token := true } ∧
      (∀ d : DieIx, d.val ∈ l.dies → (t.dieAt d).ctx.token = true) ∧
      (∀ d : DieIx, d.val ∉ l.dies → t.dieAt d = s.dieAt d) ∧ t.mem = s.mem ∧
      ∃ x ∈ t.timers, x.task = ⟨0, .instr .gangStart (.launch id)⟩ ∧
        x.at_ = s.now + (2 * (l.t0 - s.gtc) - if s.half = true then 1 else 0)) ∧
    (l.phase ≠ .prepared ∨ l.t0 ≤ s.gtc → Completes .goToken s fun t => t = s) ∧
    (l.phase ≠ .prepared → l.phase ≠ .waiting → Completes .gangCancel s fun t => t = s) ∧
    (l.phase = .prepared ∨ l.phase = .waiting → Completes .gangCancel s fun t => ∃ u : State, t = u.dispatch ∧
      u.launch id = none ∧ (∀ d : DieIx, d.val ∈ l.dies → (u.dieAt d).ctx.token = false) ∧
      (SMap.wf {} s.disp.queues = true → l.coord = true →
        ((s.disp.queueAt l.queue).cancels < 2 → u.disp.queueAt l.queue =
          { s.disp.queueAt l.queue with cancels := (s.disp.queueAt l.queue).cancels + 1 }) ∧
        (2 ≤ (s.disp.queueAt l.queue).cancels → (u.disp.queueAt l.queue).cancels = 0 ∧
          (u.disp.queueAt l.queue).head = ((s.disp.queueAt l.queue).head + 1) % 2 ^ 16))) ∧
    (l.phase ≠ .prepared ∨ l.token = false → Completes .gangStart s fun t => t = s) ∧
    (∀ (u : State) (d : DieIx) (i : Image), l.phase = .prepared → l.token = true →
      s.headAt l.ctx l.image (List.finRange 8) = (u, some (d, i)) → u.launch id = some l → i.graph = 0 →
      Completes .gangStart s fun t =>
        t.launch id = some { l with phase := .running, begun := true, runs := l.dies } ∧
        (∀ d : DieIx, d.val ∈ l.dies → (t.dieAt d).running = true ∧ (t.dieAt d).ctx.target = some { va := i.entry, idx := 0 }) ∧
        (∀ d : DieIx, d.val ∉ l.dies → t.dieAt d = u.dieAt d) ∧ t.mem = u.mem ∧
        ⟨u.cur, .instr .gangStarted (.package u.host.pkg id)⟩ ∈ t.todo ∧
        (l.coord = true → ∃ x ∈ t.timers, x.task = ⟨0, .instr .gangAckDeadline (.launch id)⟩ ∧
          x.at_ = u.now + 2 * u.disp.ackWin)) ∧
    ((∃ p ∈ l.rect.pkgs, p ∉ l.ended) → Completes .gangConfirm s fun t =>
      (∀ d : DieIx, d.val ∈ l.dies → (s.dieAt d).ctx.launchId = .ofNat 64 id → (t.dieAt d).ctx.confirmed = true) ∧
      (∀ d : DieIx, ∀ e ∈ (t.dieAt d).ord.cb, e.hold ≠ some id) ∧
      (∃ l', t.launch id = some l' ∧ l'.confirmed = true ∧ l'.phase = l.phase ∧ ∀ x ∈ l'.saved, x.ctx.confirmed = true) ∧
      t.mem = s.mem) ∧
    ((∀ p ∈ l.rect.pkgs, p ∈ l.ended) → Completes .gangConfirm s fun t => t.launch id = none) ∧
    (l.phase = .prepared ∨ l.phase = .waiting → l.begun = false → Completes .gangAbort s fun t => ∃ u : State,
      t = u.dispatch ∧ u.launch id = none ∧
      (SMap.wf {} s.disp.queues = true → l.coord = true →
        (u.disp.queueAt l.queue).head = ((s.disp.queueAt l.queue).head + 1) % 2 ^ 16)) ∧
    (l.begun = true → l.phase ≠ .running → l.phase ≠ .halting → Completes .gangAbort s fun t => ∃ u : State,
      t = u.dispatch ∧ u.launch id = none) ∧
    (∀ d : DieIx, l.phase = .running → l.begun = true → d.val ∈ l.dies → d.val ∈ l.runs → d.val ∉ l.halted →
      (s.dieAt d).halting = false →
      let gone := fun t : State => (∀ e ∈ (t.dieAt d).ord.cb, e.hold ≠ some id) ∧
        ((s.dieAt d).ctx.launchId = .ofNat 64 id → (t.dieAt d).sets = [])
      ((s.dieAt d).running = true → (s.dieAt d).ctx.pend ≠ [] → Completes .gangAbort s fun t => gone t ∧
        ∃ r, (t.dieAt d).ctx.trap = some r ∧ r.cause = 0x13 ∧ r.aux = id) ∧
      ((s.dieAt d).running = false ∨ ((s.dieAt d).ctx.pend = [] ∧ (s.dieAt d).ctx.inH = false) →
        Completes .gangAbort s fun t => gone t ∧ (t.dieAt d).running = false ∧ (t.dieAt d).halting = true ∧
          ∃ x ∈ t.timers, x.at_ = s.now + 256 ∧ x.task = ⟨d, .instr .preemptionHalt (.status 0x113)⟩)))

/-! ### Steps, encodings, reset and the whole machine -/

/-- Log 2: a step runs the piece of work that stands first, and the instruction that its word decodes to; a slot that does
not act runs nothing, and a word that holds no instruction traps with cause 0x02 (R57, R58, R62, R225, R414). -/
def Obligations.StepRunsTheDecodedSlot : Prop :=
  (∀ (s : State) (d : DieIx) (l : List Task) (w n : Nat), s.todo = ⟨d, .slot w n⟩ :: l →
    let u : State := { s with todo := l, cur := d, slot := n, msg := .none }
    (w = 0 → step s = exec .nop u) ∧
    (∀ i, w ≠ 0 → u.ctx.acts w = true → slotInstr n w = some i → step s = exec i u) ∧
    (w ≠ 0 → u.ctx.acts w = false → step s = .next u) ∧
    (w ≠ 0 → u.ctx.acts w = true → slotInstr n w = none → step s = .next (u.slotRaise ⟨0x02, 0, 0⟩))) ∧
  (∀ (s : State) (d : DieIx) (l : List Task) (w : Nat) (h : Option Nat) (i : Instr), s.todo = ⟨d, .pump w h⟩ :: l →
    decodePump w h = .ok i → step s = exec i { s with todo := l, cur := d, msg := .none }) ∧
  (∀ (s : State) (d : DieIx) (l : List Task) (ws : List Nat) (i : Instr), s.todo = ⟨d, .command ws⟩ :: l →
    decodeCommand ws = .ok i → step s = exec i { s with todo := l, cur := d, msg := .none }) ∧
  (∀ (s : State) (d : DieIx) (l : List Task) (ws : List Nat) (e : DecodeErr), s.todo = ⟨d, .command ws⟩ :: l →
    decodeCommand ws = .error e →
    let other := ws.headD 0 % 256 ≠ 6 ∧ ws.headD 0 % 256 ≠ 7 ∧ ws.headD 0 % 256 ≠ 9
    let u : State := { s with todo := l, cur := d }
    (s.host.failsafe = true → other → step s = .next (u.reply 2 0)) ∧
    (s.host.failsafe = false ∨ ¬ other → step s = .next (u.reply 1 0))) ∧
  (∀ (s : State) (d : DieIx) (l : List Task) (i : Instr) (m : Msg), s.todo = ⟨d, .instr i m⟩ :: l →
    step s = exec i { s with todo := l, cur := d, msg := m }) ∧
  (∀ (s : State) (w : Nat) (i : Instr), decodeSlot w = .ok i → i ≠ .nop → (guardOf w).1 = 0 → (guardOf w).2 = false →
    w < 2 ^ 64 → step (s.withFetchWord 64 w) =
      exec i { s with slot := if bitsAt w 61 3 = 0 then 1 else 2, msg := .none }) ∧
  (∀ s : State, s.todo = [] → ∃ t, step s = .next t ∧ t.now = s.now + 1)

/-- R57: the all-zero word does nothing in any slot and names no port; a control word stands in slot 1 only, no other stands
there, and a word of class 0 and opcode 0 that is not all zero is none. A bundle that holds such a word and is not removed
traps. -/
def Obligations.ZeroWordIsNopAndControlWordsStandInSlotOne : Prop :=
  (∀ (s : State) (d : DieIx) (l : List Task) (n : Nat), s.todo = ⟨d, .slot 0 n⟩ :: l →
    step s = .next { s with todo := l, cur := d, slot := n, msg := .none }) ∧
  slotNames .nop = {} ∧
  (∀ n w : Nat, 2 ≤ n → w ≠ 0 → w / 2 ^ 61 % 8 = 0 → slotInstr n w = none) ∧
  (∀ w : Nat, w / 2 ^ 61 % 8 ≠ 0 → slotInstr 1 w = none) ∧
  (∀ w : Nat, w ≠ 0 → w < 2 ^ 64 → w / 2 ^ 61 % 8 = 0 → w / 2 ^ 40 % 2 ^ 8 = 0 → ∀ n, slotInstr n w = none) ∧
  ∀ c : Ctx, c.removed = false → (∃ x ∈ slotsOf c.bundle, slotInstr x.1 x.2 = none) →
    ∃ r, c.staticTrap = some r ∧ r.cause = 0x02

/-- R55 to R62, R77, R222, R226, R414 and R415: words written out from the spec's encodings, and words that hold no
instruction. -/
def Obligations.WrittenOutWordsDecode : Prop :=
  decodeSlot 0 = .ok .nop ∧
  decodeSlot 0x2000101450000010 = .ok (.addi 5 5 16) ∧
  decodeSlot 0x20003208518C0000 = .ok (.cmpLt 2 5 6 3) ∧
  decodeSlot 0x1C00060000000000 = .ok (.lbrk 0) ∧ guardOf 0x1C00060000000000 = (14, false) ∧
  guardOf 0xFD00003490200000 = (14, true) ∧
  (∃ o, decodeSlot 0x4001000301C20000 = .ok (.vadd 1 o) ∧ o.d = 3 ∧ o.a = 1 ∧ o.b = 0xC2 ∧ o.vt = 0) ∧
  decodeSlot 0x600100C6C4002200 = .ok (.scanPsum 1 ⟨0xC6, 0xC4, 0, 2, 1, false, 0, false, 0⟩) ∧
  decodeSlot 0x8001033800000000 = .ok (.mxHold 1 14) ∧
  decodeSlot 0xA001040340000000 = .ok (.qXferLand 1 13) ∧
  decodeSlot 0xC001034000000000 = .ok (.sumpCnt 1 8) ∧
  decodeSlot 0xE000002096000000 = .ok (.waitA 8 9 24 0) ∧
  decodePump 0x60D201F300000000 none = .ok (.refr ⟨3, 1, 0⟩ 0x201F3) ∧
  decodePump 0x40C4000000000000 none = .ok (.pre ⟨3, 0, 1⟩) ∧
  decodeCommand [0x0C, 1200, 0, 0, 0, 0, 0, 0] = .ok (.pcap 1200) ∧
  decodeSlot 0x2000FF0000000000 = .error (.opcode 1 0xFF) ∧ decodeSlot 0x2000101450000010 ≠ decodeSlot 0x2001101450000010 ∧
  (∀ i, decodeSlot 0x2001101450000010 ≠ .ok i)

/-- R55 to R62, R77, R222 to R226, R414 and R415: decoding the words of a well-formed instruction gives it back with its
guard, and a word that decodes is the word of what it decodes to: no bit of an encoding is dropped. -/
def Obligations.DecodingAndEncodingAgree : Prop :=
  (∀ (i : Instr) (g : BitVec 4) (neg : Bool) (w : Nat), wf i = true → encodeGuarded g neg i = some w →
    decodeSlot w = .ok i ∧ w < 2 ^ 64 ∧ (i ≠ .nop → guardOf w = (g.toNat, neg))) ∧
  (∀ (w : Nat) (i : Instr), w < 2 ^ 64 → decodeSlot w = .ok i →
    wf i = true ∧ encodeGuarded (.ofNat 4 (guardOf w).1) (guardOf w).2 i = some w) ∧
  (∀ (i : Instr) (w : Nat) (h : Option Nat), wf i = true → encodePump i = some (w, h) →
    decodePump w h = .ok i ∧ w < 2 ^ 64) ∧
  (∀ (i : Instr) (w : Nat) (h : Option Nat), w < 2 ^ 64 → (∀ x, h = some x → x < 2 ^ 64) → decodePump w h = .ok i →
    wf i = true ∧ ∃ h', encodePump i = some (w, h') ∧ (h' = none ∨ h' = h)) ∧
  (∀ (i : Instr) (o tag : Nat) (ws : List Nat), wf i = true → encodeCommand i = some (o, ws) → tag < 2 ^ 16 →
    decodeCommand ((o + 2 ^ 16 * tag) :: ws) = .ok i) ∧
  (∀ (i : Instr) (o : Nat) (ws : List Nat), o < 2 ^ 8 → ws.length = 5 → (∀ x ∈ ws, x < 2 ^ 64) →
    decodeCommand (o :: ws) = .ok i → wf i = true ∧ encodeCommand i = some (o, ws))

/-- R12, R37, R50, R70, R193, R217, R235, R258, R274, R288, R323, R343, R345, R370, R401 and R412: what the spec gives for
reset. -/
def Obligations.ResetHoldsTheStatedValues : Prop :=
  let s := State.reset
  s.mem.wf = true ∧ (∀ a, s.byteAt a = 0) ∧
  (∀ d : DieIx, let x := s.dieAt d
    x.ctx.rm = 0 ∧ x.ctx.fmtchk = false ∧ x.ctx.fpstat = {} ∧ x.ctx.check = false ∧ x.ctx.win = 0 ∧ x.ctx.sumpst = 0 ∧
    x.ctx.trec = Vector.replicate 4 0 ∧ x.ctx.tepc = 0 ∧ x.ctx.ppl = 0 ∧ x.ctx.inH = false ∧ x.ctx.exw = false ∧
    x.ctx.tvec = 0 ∧ x.ctx.dbgen = false ∧ x.ctx.domid = 0 ∧ x.ctx.rs 0 = 0 ∧ x.ctx.rp 0 = true ∧
    x.ctx.loops = Vector.replicate 6 {} ∧ x.ctx.preq = false ∧ x.ctx.launchId = 0 ∧ x.ctx.token = false ∧
    x.ctx.confirmed = false ∧ x.ctx.t0 = 0 ∧ x.ctx.spEmpty = 0 ∧ x.ctx.dropc = 0 ∧
    x.ord.qlog2 = 7 ∧ x.ord.cbwait = 64 ∧ x.ord.qnow = 7 ∧ x.ord.free = 2048 ∧ x.ord.peak = 0 ∧ x.ord.late = 0 ∧
    x.ord.mldly = 48 ∧ x.ord.rfdly = 640 ∧
    x.pump.idleThresh = 256 ∧ x.pump.refpost = 8 ∧ x.pump.t = #v[28, 28, 66, 94, 4, 6, 24, 2, 4, 32, 6, 16, 8, 70, 40] ∧
    x.pump.trefw = 32000000 ∧ x.pump.debtPeak = 0 ∧
    x.win.wmbase = 0 ∧ x.win.psbase = 0 ∧ x.win.rwbase = 0 ∧ x.win.brk = false ∧ x.win.firstBrk = 0 ∧ x.win.rxdisc = 0 ∧
    x.win.treal = 10000000 ∧
    x.err.nmtrap = false ∧ x.err.autoret = true ∧ x.err.errthr = 3 ∧ x.err.errwin = 86400000000000 ∧ x.err.elbase = 0 ∧
    x.err.head = 0 ∧ x.err.tail = 0 ∧ x.err.ovf = false ∧ x.err.dropped = 0 ∧ x.err.freezeCnt = 0 ∧ x.err.rcFrz = 0 ∧
    x.err.limit = 40960 ∧ x.err.limEn = true ∧ x.err.overCnt = 0 ∧ x.err.scrub = 1024 ∧
    ∀ (b : BayIx) (q : Nat), let y := (x.ctx.bayAt b).str q
      y.bound = false ∧ y.port = 0 ∧ y.depth = 0 ∧ y.wrap = false ∧ y.feed = false ∧ y.queue = []) ∧
  (∀ k, k < 16 → (s.fab.port k).lock = 0 ∧ (s.fab.port k).srclost = true ∧ (s.fab.port k).gate = true ∧
    (s.fab.port k).gated = true) ∧
  s.fab.mode = 0 ∧ s.fab.unsync = false ∧ s.fab.lastra = 0 ∧ s.fab.slot = 0 ∧ s.fab.rot = 0 ∧ s.fab.deads = 0 ∧
  (∀ n, s.disp.queueAt n = {}) ∧
  s.disp.horizon = #v[500000, 1000000, 2000000, 4000000, 8000000, 16000000, 32000000, 40000000] ∧
  s.disp.maxSlice = 4000000 ∧ s.disp.prepLead = 200000 ∧ s.disp.goLead = 20000 ∧ s.disp.ackWin = 50000 ∧
  s.disp.acthr = 4096 ∧ s.disp.lostmap = 0 ∧ s.host.ready = false ∧ s.host.failsafe = false ∧ s.host.stage = 0 ∧
  s.host.crbase = 0 ∧ s.host.cren = false ∧ s.host.crtail = 0 ∧ s.host.crhead = 0

/-- No instruction stops the machine: each answers a next state in every state and with every operand, the host's window
into the reservoir excepted, which stops on a byte that the reservoir does not have (R410). The steps that are no slots are
named one by one. -/
def Obligations.EveryInstructionAnswersANextState : Prop :=
  let answers := fun (i : Instr) (s : State) => ∃ t, exec i s = .next t
  (∀ (i : Instr) (s : State), i ≠ .hostReservoirRead → i ≠ .hostReservoirWrite → answers i s) ∧
  (∀ (s : State) (a n : Nat), s.msg = .hostRead a n → a + n ≤ 2 ^ 40 → answers .hostReservoirRead s) ∧
  (∀ (s : State) (a : Nat) (l : List Byte), s.msg = .hostWrite a l → a + l.length ≤ 2 ^ 40 →
    answers .hostReservoirWrite s) ∧
  (∀ (va : Nat) (s : State), answers (.segmentExpansionDone va) s) ∧
  (∀ (r : Result) (s : State), answers (.timelineResultLanding r) s) ∧
  (∀ (bay : BayIx) (q : Nat) (e : Entry) (s : State), answers (.streamEntryArrival bay q e) s) ∧
  (∀ (p : Pour) (s : State), answers (.pourBankWrite p) s) ∧
  (∀ (m : MxStep) (s : State), answers (.mxStepLanding m) s) ∧
  (∀ (bay : BayIx) (fa fb : Nat) (s : State), answers (.mxModePartialClear bay fa fb) s) ∧
  (∀ (bay : BayIx) (dst : Option Resv) (lanes : List Lane) (s : State), answers (.mxDrainPresent bay dst lanes) s) ∧
  (∀ (bay : BayIx) (toB : Bool) (cells : SMap Word32) (step : BitVec 32) (s : State), answers (.mxSnapTargetWrite bay toB cells step) s) ∧
  (∀ (bay : BayIx) (q : Nat) (e : Entry) (s : State), answers (.xferDelivery bay q e) s) ∧
  (∀ (u : CtrUpdate) (s : State), answers (.routingCounterUpdate u) s) ∧
  (∀ (id : Nat) (s : State), answers (.combiningEntryClose id) s) ∧
  (∀ (port ring : Nat) (s : State), answers (.ringLock port ring) s) ∧
  (∀ (n : Nat) (s : State), answers (.rotaSlotStart n) s) ∧
  (∀ (iod : Fin 2) (s : State), answers (.laserRemoval iod) s) ∧
  (∀ (iod : Fin 2) (s : State), answers (.laserInsertion iod) s) ∧
  (∀ (port : Nat) (g : Bool) (s : State), answers (.portGateWrite port g) s) ∧
  (∀ (port : Nat) (s : State), answers (.portGated port) s) ∧
  (∀ (v : Word) (s : State), answers (.fabctlModeWrite v) s) ∧
  (∀ (csr : BitVec 12) (v : Word) (s : State), answers (.loopLevelWrite csr v) s) ∧
  (∀ (csr : BitVec 12) (how : BitVec 2) (v : Word) (s : State), answers (.registerWrite csr how v) s) ∧
  (∀ (r : Word) (s : State), answers (.spanSlot r) s) ∧
  (∀ (bay : BayIx) (e : Entry) (s : State), answers (.spanEntryArrival bay e) s) ∧
  (∀ (bay : BayIx) (q slot : Nat) (s : State), answers (.spanSlip bay q slot) s) ∧
  (∀ (b : BankId) (rowcol : BitVec 18) (s : State), answers (.act b rowcol) s) ∧
  (∀ (b : BankId) (col : BitVec 5) (caddr : BitVec 32) (s : State), answers (.rd b col caddr) s) ∧
  (∀ (b : BankId) (col : BitVec 5) (caddr : BitVec 32) (s : State), answers (.wr b col caddr) s) ∧
  (∀ (b : BankId) (s : State), answers (.pre b) s) ∧
  (∀ (pc : BitVec 6) (s : State), answers (.prea pc) s) ∧
  (∀ (b : BankId) (rowcol : BitVec 18) (s : State), answers (.refr b rowcol) s) ∧
  (∀ (n : NmcOp) (s : State), answers (.nmcFade n) s) ∧
  (∀ (n : NmcOp) (s : State), answers (.nmcAxpy n) s) ∧
  (∀ (n : NmcOp) (s : State), answers (.nmcAdd n) s) ∧
  (∀ (n : NmcOp) (s : State), answers (.nmcScale n) s) ∧
  (∀ (n : NmcOp) (s : State), answers (.nmcFill n) s) ∧
  (∀ (bay : BayIx) (s : State), answers (.scrubRead bay) s) ∧
  (∀ (port : Nat) (s : State), answers (.laneReplacementDone port) s) ∧
  (∀ (die : DieIx) (s : State), answers (.islandFailure die) s) ∧
  (∀ (q : BitVec 16) (tail : BitVec 16) (s : State), answers (.hostDoorbellWrite q tail) s) ∧
  (∀ (launch : Nat) (s : State), answers (.sliceEnd launch) s) ∧
  (∀ (launch : Nat) (s : State), answers (.contextSaveComplete launch) s) ∧
  (∀ (launch : Nat) (s : State), answers (.contextRestore launch) s) ∧
  (∀ (fails : Option Nat) (s : State), answers (.powerOn fails) s) ∧
  (∀ (q : BitVec 16) (word : BitVec 3) (value mask : Word) (s : State), answers (.qset q word value mask) s) ∧
  (∀ (ctx : BitVec 16) (addr : Word) (s : State), answers (.ctxset ctx addr) s) ∧
  (∀ (n : BitVec 16) (die : BitVec 8) (addr : Word) (count : Word) (s : State), answers (.region n die addr count) s) ∧
  (∀ (sel value : Word) (s : State), answers (.tier sel value) s) ∧
  (∀ (ctx leaf dframe : Word) (dtier : Bool) (s : State), answers (.tierMigration ctx leaf dframe dtier) s) ∧
  (∀ (q : BitVec 16) (addr : Word) (s : State), answers (.recover q addr) s) ∧
  (∀ (addr max : Word) (s : State), answers (.faults addr max) s) ∧
  (∀ (addr : Word) (s : State), answers (.resync addr) s) ∧
  (∀ (die : BitVec 3) (s : State), answers (.retireDie die) s) ∧
  (∀ (die bay : BitVec 3) (bank : BitVec 7) (s : State), answers (.retireBank die bay bank) s) ∧
  (∀ (addr len : Word) (s : State), answers (.fwload addr len) s) ∧
  (∀ (n0 n1 n2 n3 addr : Word) (s : State), answers (.attest n0 n1 n2 n3 addr) s) ∧
  (∀ (pkg : BitVec 5) (s : State), answers (.domainJoin pkg) s) ∧
  (∀ (pkg : BitVec 5) (s : State), answers (.domainLeave pkg) s) ∧
  (∀ (watts : Word) (s : State), answers (.pcap watts) s) ∧
  (∀ (port : Nat) (lane : Option Nat) (s : State), answers (.ucieLaneError port lane) s) ∧
  (∀ (die : DieIx) (s : State), answers (.uciePortFailure die) s) ∧
  (∀ (n : Nat) (s : State), answers (.pageRequestRefusal n) s) ∧
  ∀ (s : State), ∀ i ∈ [Instr.bundleIssue, .holdCycle, .stallCycle, .freezeCycle, .pumpRdPresent, .pumpWrSend,
      .queuedLoadPerform, .queuedStorePerform, .getVerbArrival, .remoteStoreVerbArrival, .signalVerbArrival,
      .atomicVerbArrival, .getResponse, .dieCommitAck, .quantumBoundary, .quantumChange, .commitBufferOverflow,
      .flitSend, .bulkFlitReceive, .atomFlitReceive, .commitAcknowledgement, .refusalReport, .pathEpochFlit,
      .timeExchangeFlit, .flitLossTimeout, .pathDisconnect, .pathReconnect, .fabricManagerCommand, .unsyncTimeout,
      .copyCompletion, .probeFillCompletion, .stnCutCompletion, .stnLdCompletion, .sumpGroupApply, .sumpSnapWrite,
      .pumpStageComplete, .pumpSkip, .nmcCompletion, .idleSequenceEntry, .idleRowIssue, .idleRunEnd, .tableResume,
      .refreshDebtAccrual, .servicePathSequence, .migrationComplete, .bankRebuildWord, .bankRebuildComplete,
      .heartbeatPoll, .dieLossNotice, .doorbellPoll, .preemptionRequest, .preemptionHalt, .kernelEnd,
      .walkerKernelNode, .walkerConditionalNode, .walkerWhileNode, .walkerJoinNode, .gangPrepare, .gangReady,
      .gangReadyDeadline, .goToken, .gangCancel, .gangStart, .gangStarted, .gangAckDeadline, .gangConfirm, .gangAbort,
      .rdDataReturn, .debuggerWrite, .hostRegisterWrite, .unansweringPackageLost],
    answers i s

/-- Every step keeps each memory, and each map of stored errors, in canonical form (log 5). -/
def Obligations.EveryStepKeepsTheMemoriesCanonical : Prop :=
  ∀ s t : State, s.mem.wf = true → step s = .next t → t.mem.wf = true
end

