-- ==== Sys2Proof/Laws/State.lean ====
section
/-!
SUPPORT. What each update of the state does to each part of it, once: later proofs unfold no record update.
-/

namespace Sys2Proof.Machine

/-! ### Dies -/

@[simp] theorem State.dieAt_setDieAt_self (s : State) (i : DieIx) (d : Die) : (s.setDieAt i d).dieAt i = d :=
  Vector.getElem_set_self i.isLt

theorem State.dieAt_setDieAt_ne (s : State) {i j : DieIx} (d : Die) (h : j ≠ i) :
    (s.setDieAt i d).dieAt j = s.dieAt j := by
  have h' : i.val ≠ j.val := fun e => h (Fin.ext e.symm)
  simp only [State.dieAt, State.setDieAt]
  exact Vector.getElem_set_ne i.isLt j.isLt h'

@[simp] theorem State.setDieAt_dieAt (s : State) (i : DieIx) : s.setDieAt i (s.dieAt i) = s := by
  cases s
  simp [State.dieAt, State.setDieAt, Vector.get]

@[simp] theorem State.die_setDie (s : State) (d : Die) : (s.setDie d).die = d := State.dieAt_setDieAt_self s s.cur d

@[simp] theorem State.die_modDie (s : State) (f : Die → Die) : (s.modDie f).die = f s.die := State.die_setDie s _

@[simp] theorem State.ctx_modDie (s : State) (f : Die → Die) : (s.modDie f).ctx = (f s.die).ctx := by
  simp [State.ctx]

@[simp] theorem State.ctx_modCtx (s : State) (f : Ctx → Ctx) : (s.modCtx f).ctx = f s.ctx := by
  simp [State.ctx, State.modCtx]

@[simp] theorem State.die_modCtx (s : State) (f : Ctx → Ctx) : (s.modCtx f).die = { s.die with ctx := f s.ctx } := by
  simp [State.ctx, State.modCtx]

theorem State.modDie_dieAt_ne (s : State) (f : Die → Die) {i : DieIx} (h : i ≠ s.cur) :
    (s.modDie f).dieAt i = s.dieAt i := State.dieAt_setDieAt_ne s _ h

theorem State.modCtx_dieAt_ne (s : State) (f : Ctx → Ctx) {i : DieIx} (h : i ≠ s.cur) :
    (s.modCtx f).dieAt i = s.dieAt i := State.modDie_dieAt_ne s _ h

/-- Two changes of the running die are one. -/
@[simp] theorem State.modDie_modDie (s : State) (f g : Die → Die) : (s.modDie f).modDie g = s.modDie fun d => g (f d) := by
  have h : (s.modDie f).die = f s.die := State.die_modDie s f
  unfold State.modDie at *
  rw [h]
  simp [State.setDie, State.setDieAt]

/-- Two changes of the running context are one. -/
@[simp] theorem State.modCtx_modCtx (s : State) (f g : Ctx → Ctx) : (s.modCtx f).modCtx g = s.modCtx fun c => g (f c) := by
  simp [State.modCtx]

/-- A change that changes nothing. -/
@[simp] theorem State.modDie_id (s : State) : (s.modDie fun d => d) = s := State.setDieAt_dieAt s s.cur

@[simp] theorem State.modCtx_id (s : State) : (s.modCtx fun c => c) = s := State.modDie_id s

/-! ### `State.setDieAt` -/

@[simp] theorem State.setDieAt_cur (s : State) (i : DieIx) (d : Die) : (s.setDieAt i d).cur = s.cur := rfl
@[simp] theorem State.setDieAt_msg (s : State) (i : DieIx) (d : Die) : (s.setDieAt i d).msg = s.msg := rfl
@[simp] theorem State.setDieAt_slot (s : State) (i : DieIx) (d : Die) : (s.setDieAt i d).slot = s.slot := rfl
@[simp] theorem State.setDieAt_now (s : State) (i : DieIx) (d : Die) : (s.setDieAt i d).now = s.now := rfl
@[simp] theorem State.setDieAt_gtc (s : State) (i : DieIx) (d : Die) : (s.setDieAt i d).gtc = s.gtc := rfl
@[simp] theorem State.setDieAt_half (s : State) (i : DieIx) (d : Die) : (s.setDieAt i d).half = s.half := rfl
@[simp] theorem State.setDieAt_slew (s : State) (i : DieIx) (d : Die) : (s.setDieAt i d).slew = s.slew := rfl
@[simp] theorem State.setDieAt_slewCnt (s : State) (i : DieIx) (d : Die) : (s.setDieAt i d).slewCnt = s.slewCnt := rfl
@[simp] theorem State.setDieAt_mem (s : State) (i : DieIx) (d : Die) : (s.setDieAt i d).mem = s.mem := rfl
@[simp] theorem State.setDieAt_sideW (s : State) (i : DieIx) (d : Die) : (s.setDieAt i d).sideW = s.sideW := rfl
@[simp] theorem State.setDieAt_sideB (s : State) (i : DieIx) (d : Die) : (s.setDieAt i d).sideB = s.sideB := rfl
@[simp] theorem State.setDieAt_fab (s : State) (i : DieIx) (d : Die) : (s.setDieAt i d).fab = s.fab := rfl
@[simp] theorem State.setDieAt_disp (s : State) (i : DieIx) (d : Die) : (s.setDieAt i d).disp = s.disp := rfl
@[simp] theorem State.setDieAt_host (s : State) (i : DieIx) (d : Die) : (s.setDieAt i d).host = s.host := rfl
@[simp] theorem State.setDieAt_todo (s : State) (i : DieIx) (d : Die) : (s.setDieAt i d).todo = s.todo := rfl
@[simp] theorem State.setDieAt_timers (s : State) (i : DieIx) (d : Die) : (s.setDieAt i d).timers = s.timers := rfl
@[simp] theorem State.setDieAt_inputs (s : State) (i : DieIx) (d : Die) : (s.setDieAt i d).inputs = s.inputs := rfl
@[simp] theorem State.setDieAt_waits (s : State) (i : DieIx) (d : Die) : (s.setDieAt i d).waits = s.waits := rfl
@[simp] theorem State.setDieAt_free (s : State) (i : DieIx) (d : Die) : (s.setDieAt i d).free = s.free := rfl
@[simp] theorem State.setDieAt_drop (s : State) (i : DieIx) (d : Die) : (s.setDieAt i d).drop = s.drop := rfl

/-! ### `State.setDie` -/

@[simp] theorem State.setDie_cur (s : State) (d : Die) : (s.setDie d).cur = s.cur := rfl
@[simp] theorem State.setDie_msg (s : State) (d : Die) : (s.setDie d).msg = s.msg := rfl
@[simp] theorem State.setDie_slot (s : State) (d : Die) : (s.setDie d).slot = s.slot := rfl
@[simp] theorem State.setDie_now (s : State) (d : Die) : (s.setDie d).now = s.now := rfl
@[simp] theorem State.setDie_gtc (s : State) (d : Die) : (s.setDie d).gtc = s.gtc := rfl
@[simp] theorem State.setDie_half (s : State) (d : Die) : (s.setDie d).half = s.half := rfl
@[simp] theorem State.setDie_slew (s : State) (d : Die) : (s.setDie d).slew = s.slew := rfl
@[simp] theorem State.setDie_slewCnt (s : State) (d : Die) : (s.setDie d).slewCnt = s.slewCnt := rfl
@[simp] theorem State.setDie_mem (s : State) (d : Die) : (s.setDie d).mem = s.mem := rfl
@[simp] theorem State.setDie_sideW (s : State) (d : Die) : (s.setDie d).sideW = s.sideW := rfl
@[simp] theorem State.setDie_sideB (s : State) (d : Die) : (s.setDie d).sideB = s.sideB := rfl
@[simp] theorem State.setDie_fab (s : State) (d : Die) : (s.setDie d).fab = s.fab := rfl
@[simp] theorem State.setDie_disp (s : State) (d : Die) : (s.setDie d).disp = s.disp := rfl
@[simp] theorem State.setDie_host (s : State) (d : Die) : (s.setDie d).host = s.host := rfl
@[simp] theorem State.setDie_todo (s : State) (d : Die) : (s.setDie d).todo = s.todo := rfl
@[simp] theorem State.setDie_timers (s : State) (d : Die) : (s.setDie d).timers = s.timers := rfl
@[simp] theorem State.setDie_inputs (s : State) (d : Die) : (s.setDie d).inputs = s.inputs := rfl
@[simp] theorem State.setDie_waits (s : State) (d : Die) : (s.setDie d).waits = s.waits := rfl
@[simp] theorem State.setDie_free (s : State) (d : Die) : (s.setDie d).free = s.free := rfl
@[simp] theorem State.setDie_drop (s : State) (d : Die) : (s.setDie d).drop = s.drop := rfl

/-! ### `State.modDie` -/

@[simp] theorem State.modDie_cur (s : State) (f : Die → Die) : (s.modDie f).cur = s.cur := rfl
@[simp] theorem State.modDie_msg (s : State) (f : Die → Die) : (s.modDie f).msg = s.msg := rfl
@[simp] theorem State.modDie_slot (s : State) (f : Die → Die) : (s.modDie f).slot = s.slot := rfl
@[simp] theorem State.modDie_now (s : State) (f : Die → Die) : (s.modDie f).now = s.now := rfl
@[simp] theorem State.modDie_gtc (s : State) (f : Die → Die) : (s.modDie f).gtc = s.gtc := rfl
@[simp] theorem State.modDie_half (s : State) (f : Die → Die) : (s.modDie f).half = s.half := rfl
@[simp] theorem State.modDie_slew (s : State) (f : Die → Die) : (s.modDie f).slew = s.slew := rfl
@[simp] theorem State.modDie_slewCnt (s : State) (f : Die → Die) : (s.modDie f).slewCnt = s.slewCnt := rfl
@[simp] theorem State.modDie_mem (s : State) (f : Die → Die) : (s.modDie f).mem = s.mem := rfl
@[simp] theorem State.modDie_sideW (s : State) (f : Die → Die) : (s.modDie f).sideW = s.sideW := rfl
@[simp] theorem State.modDie_sideB (s : State) (f : Die → Die) : (s.modDie f).sideB = s.sideB := rfl
@[simp] theorem State.modDie_fab (s : State) (f : Die → Die) : (s.modDie f).fab = s.fab := rfl
@[simp] theorem State.modDie_disp (s : State) (f : Die → Die) : (s.modDie f).disp = s.disp := rfl
@[simp] theorem State.modDie_host (s : State) (f : Die → Die) : (s.modDie f).host = s.host := rfl
@[simp] theorem State.modDie_todo (s : State) (f : Die → Die) : (s.modDie f).todo = s.todo := rfl
@[simp] theorem State.modDie_timers (s : State) (f : Die → Die) : (s.modDie f).timers = s.timers := rfl
@[simp] theorem State.modDie_inputs (s : State) (f : Die → Die) : (s.modDie f).inputs = s.inputs := rfl
@[simp] theorem State.modDie_waits (s : State) (f : Die → Die) : (s.modDie f).waits = s.waits := rfl
@[simp] theorem State.modDie_free (s : State) (f : Die → Die) : (s.modDie f).free = s.free := rfl
@[simp] theorem State.modDie_drop (s : State) (f : Die → Die) : (s.modDie f).drop = s.drop := rfl

/-! ### `State.modCtx` -/

@[simp] theorem State.modCtx_cur (s : State) (f : Ctx → Ctx) : (s.modCtx f).cur = s.cur := rfl
@[simp] theorem State.modCtx_msg (s : State) (f : Ctx → Ctx) : (s.modCtx f).msg = s.msg := rfl
@[simp] theorem State.modCtx_slot (s : State) (f : Ctx → Ctx) : (s.modCtx f).slot = s.slot := rfl
@[simp] theorem State.modCtx_now (s : State) (f : Ctx → Ctx) : (s.modCtx f).now = s.now := rfl
@[simp] theorem State.modCtx_gtc (s : State) (f : Ctx → Ctx) : (s.modCtx f).gtc = s.gtc := rfl
@[simp] theorem State.modCtx_half (s : State) (f : Ctx → Ctx) : (s.modCtx f).half = s.half := rfl
@[simp] theorem State.modCtx_slew (s : State) (f : Ctx → Ctx) : (s.modCtx f).slew = s.slew := rfl
@[simp] theorem State.modCtx_slewCnt (s : State) (f : Ctx → Ctx) : (s.modCtx f).slewCnt = s.slewCnt := rfl
@[simp] theorem State.modCtx_mem (s : State) (f : Ctx → Ctx) : (s.modCtx f).mem = s.mem := rfl
@[simp] theorem State.modCtx_sideW (s : State) (f : Ctx → Ctx) : (s.modCtx f).sideW = s.sideW := rfl
@[simp] theorem State.modCtx_sideB (s : State) (f : Ctx → Ctx) : (s.modCtx f).sideB = s.sideB := rfl
@[simp] theorem State.modCtx_fab (s : State) (f : Ctx → Ctx) : (s.modCtx f).fab = s.fab := rfl
@[simp] theorem State.modCtx_disp (s : State) (f : Ctx → Ctx) : (s.modCtx f).disp = s.disp := rfl
@[simp] theorem State.modCtx_host (s : State) (f : Ctx → Ctx) : (s.modCtx f).host = s.host := rfl
@[simp] theorem State.modCtx_todo (s : State) (f : Ctx → Ctx) : (s.modCtx f).todo = s.todo := rfl
@[simp] theorem State.modCtx_timers (s : State) (f : Ctx → Ctx) : (s.modCtx f).timers = s.timers := rfl
@[simp] theorem State.modCtx_inputs (s : State) (f : Ctx → Ctx) : (s.modCtx f).inputs = s.inputs := rfl
@[simp] theorem State.modCtx_waits (s : State) (f : Ctx → Ctx) : (s.modCtx f).waits = s.waits := rfl
@[simp] theorem State.modCtx_free (s : State) (f : Ctx → Ctx) : (s.modCtx f).free = s.free := rfl
@[simp] theorem State.modCtx_drop (s : State) (f : Ctx → Ctx) : (s.modCtx f).drop = s.drop := rfl

/-! ### `State.modPump` -/

@[simp] theorem State.modPump_cur (s : State) (f : Pump → Pump) : (s.modPump f).cur = s.cur := rfl
@[simp] theorem State.modPump_msg (s : State) (f : Pump → Pump) : (s.modPump f).msg = s.msg := rfl
@[simp] theorem State.modPump_slot (s : State) (f : Pump → Pump) : (s.modPump f).slot = s.slot := rfl
@[simp] theorem State.modPump_now (s : State) (f : Pump → Pump) : (s.modPump f).now = s.now := rfl
@[simp] theorem State.modPump_gtc (s : State) (f : Pump → Pump) : (s.modPump f).gtc = s.gtc := rfl
@[simp] theorem State.modPump_half (s : State) (f : Pump → Pump) : (s.modPump f).half = s.half := rfl
@[simp] theorem State.modPump_slew (s : State) (f : Pump → Pump) : (s.modPump f).slew = s.slew := rfl
@[simp] theorem State.modPump_slewCnt (s : State) (f : Pump → Pump) : (s.modPump f).slewCnt = s.slewCnt := rfl
@[simp] theorem State.modPump_mem (s : State) (f : Pump → Pump) : (s.modPump f).mem = s.mem := rfl
@[simp] theorem State.modPump_sideW (s : State) (f : Pump → Pump) : (s.modPump f).sideW = s.sideW := rfl
@[simp] theorem State.modPump_sideB (s : State) (f : Pump → Pump) : (s.modPump f).sideB = s.sideB := rfl
@[simp] theorem State.modPump_fab (s : State) (f : Pump → Pump) : (s.modPump f).fab = s.fab := rfl
@[simp] theorem State.modPump_disp (s : State) (f : Pump → Pump) : (s.modPump f).disp = s.disp := rfl
@[simp] theorem State.modPump_host (s : State) (f : Pump → Pump) : (s.modPump f).host = s.host := rfl
@[simp] theorem State.modPump_todo (s : State) (f : Pump → Pump) : (s.modPump f).todo = s.todo := rfl
@[simp] theorem State.modPump_timers (s : State) (f : Pump → Pump) : (s.modPump f).timers = s.timers := rfl
@[simp] theorem State.modPump_inputs (s : State) (f : Pump → Pump) : (s.modPump f).inputs = s.inputs := rfl
@[simp] theorem State.modPump_waits (s : State) (f : Pump → Pump) : (s.modPump f).waits = s.waits := rfl
@[simp] theorem State.modPump_free (s : State) (f : Pump → Pump) : (s.modPump f).free = s.free := rfl
@[simp] theorem State.modPump_drop (s : State) (f : Pump → Pump) : (s.modPump f).drop = s.drop := rfl

/-! ### `State.modOrd` -/

@[simp] theorem State.modOrd_cur (s : State) (f : Order → Order) : (s.modOrd f).cur = s.cur := rfl
@[simp] theorem State.modOrd_msg (s : State) (f : Order → Order) : (s.modOrd f).msg = s.msg := rfl
@[simp] theorem State.modOrd_slot (s : State) (f : Order → Order) : (s.modOrd f).slot = s.slot := rfl
@[simp] theorem State.modOrd_now (s : State) (f : Order → Order) : (s.modOrd f).now = s.now := rfl
@[simp] theorem State.modOrd_gtc (s : State) (f : Order → Order) : (s.modOrd f).gtc = s.gtc := rfl
@[simp] theorem State.modOrd_half (s : State) (f : Order → Order) : (s.modOrd f).half = s.half := rfl
@[simp] theorem State.modOrd_slew (s : State) (f : Order → Order) : (s.modOrd f).slew = s.slew := rfl
@[simp] theorem State.modOrd_slewCnt (s : State) (f : Order → Order) : (s.modOrd f).slewCnt = s.slewCnt := rfl
@[simp] theorem State.modOrd_mem (s : State) (f : Order → Order) : (s.modOrd f).mem = s.mem := rfl
@[simp] theorem State.modOrd_sideW (s : State) (f : Order → Order) : (s.modOrd f).sideW = s.sideW := rfl
@[simp] theorem State.modOrd_sideB (s : State) (f : Order → Order) : (s.modOrd f).sideB = s.sideB := rfl
@[simp] theorem State.modOrd_fab (s : State) (f : Order → Order) : (s.modOrd f).fab = s.fab := rfl
@[simp] theorem State.modOrd_disp (s : State) (f : Order → Order) : (s.modOrd f).disp = s.disp := rfl
@[simp] theorem State.modOrd_host (s : State) (f : Order → Order) : (s.modOrd f).host = s.host := rfl
@[simp] theorem State.modOrd_todo (s : State) (f : Order → Order) : (s.modOrd f).todo = s.todo := rfl
@[simp] theorem State.modOrd_timers (s : State) (f : Order → Order) : (s.modOrd f).timers = s.timers := rfl
@[simp] theorem State.modOrd_inputs (s : State) (f : Order → Order) : (s.modOrd f).inputs = s.inputs := rfl
@[simp] theorem State.modOrd_waits (s : State) (f : Order → Order) : (s.modOrd f).waits = s.waits := rfl
@[simp] theorem State.modOrd_free (s : State) (f : Order → Order) : (s.modOrd f).free = s.free := rfl
@[simp] theorem State.modOrd_drop (s : State) (f : Order → Order) : (s.modOrd f).drop = s.drop := rfl

/-! ### `State.modErr` -/

@[simp] theorem State.modErr_cur (s : State) (f : Err → Err) : (s.modErr f).cur = s.cur := rfl
@[simp] theorem State.modErr_msg (s : State) (f : Err → Err) : (s.modErr f).msg = s.msg := rfl
@[simp] theorem State.modErr_slot (s : State) (f : Err → Err) : (s.modErr f).slot = s.slot := rfl
@[simp] theorem State.modErr_now (s : State) (f : Err → Err) : (s.modErr f).now = s.now := rfl
@[simp] theorem State.modErr_gtc (s : State) (f : Err → Err) : (s.modErr f).gtc = s.gtc := rfl
@[simp] theorem State.modErr_half (s : State) (f : Err → Err) : (s.modErr f).half = s.half := rfl
@[simp] theorem State.modErr_slew (s : State) (f : Err → Err) : (s.modErr f).slew = s.slew := rfl
@[simp] theorem State.modErr_slewCnt (s : State) (f : Err → Err) : (s.modErr f).slewCnt = s.slewCnt := rfl
@[simp] theorem State.modErr_mem (s : State) (f : Err → Err) : (s.modErr f).mem = s.mem := rfl
@[simp] theorem State.modErr_sideW (s : State) (f : Err → Err) : (s.modErr f).sideW = s.sideW := rfl
@[simp] theorem State.modErr_sideB (s : State) (f : Err → Err) : (s.modErr f).sideB = s.sideB := rfl
@[simp] theorem State.modErr_fab (s : State) (f : Err → Err) : (s.modErr f).fab = s.fab := rfl
@[simp] theorem State.modErr_disp (s : State) (f : Err → Err) : (s.modErr f).disp = s.disp := rfl
@[simp] theorem State.modErr_host (s : State) (f : Err → Err) : (s.modErr f).host = s.host := rfl
@[simp] theorem State.modErr_todo (s : State) (f : Err → Err) : (s.modErr f).todo = s.todo := rfl
@[simp] theorem State.modErr_timers (s : State) (f : Err → Err) : (s.modErr f).timers = s.timers := rfl
@[simp] theorem State.modErr_inputs (s : State) (f : Err → Err) : (s.modErr f).inputs = s.inputs := rfl
@[simp] theorem State.modErr_waits (s : State) (f : Err → Err) : (s.modErr f).waits = s.waits := rfl
@[simp] theorem State.modErr_free (s : State) (f : Err → Err) : (s.modErr f).free = s.free := rfl
@[simp] theorem State.modErr_drop (s : State) (f : Err → Err) : (s.modErr f).drop = s.drop := rfl

/-! ### `State.modBay` -/

@[simp] theorem State.modBay_cur (s : State) (b : BayIx) (f : Bay → Bay) : (s.modBay b f).cur = s.cur := rfl
@[simp] theorem State.modBay_msg (s : State) (b : BayIx) (f : Bay → Bay) : (s.modBay b f).msg = s.msg := rfl
@[simp] theorem State.modBay_slot (s : State) (b : BayIx) (f : Bay → Bay) : (s.modBay b f).slot = s.slot := rfl
@[simp] theorem State.modBay_now (s : State) (b : BayIx) (f : Bay → Bay) : (s.modBay b f).now = s.now := rfl
@[simp] theorem State.modBay_gtc (s : State) (b : BayIx) (f : Bay → Bay) : (s.modBay b f).gtc = s.gtc := rfl
@[simp] theorem State.modBay_half (s : State) (b : BayIx) (f : Bay → Bay) : (s.modBay b f).half = s.half := rfl
@[simp] theorem State.modBay_slew (s : State) (b : BayIx) (f : Bay → Bay) : (s.modBay b f).slew = s.slew := rfl
@[simp] theorem State.modBay_slewCnt (s : State) (b : BayIx) (f : Bay → Bay) : (s.modBay b f).slewCnt = s.slewCnt := rfl
@[simp] theorem State.modBay_mem (s : State) (b : BayIx) (f : Bay → Bay) : (s.modBay b f).mem = s.mem := rfl
@[simp] theorem State.modBay_sideW (s : State) (b : BayIx) (f : Bay → Bay) : (s.modBay b f).sideW = s.sideW := rfl
@[simp] theorem State.modBay_sideB (s : State) (b : BayIx) (f : Bay → Bay) : (s.modBay b f).sideB = s.sideB := rfl
@[simp] theorem State.modBay_fab (s : State) (b : BayIx) (f : Bay → Bay) : (s.modBay b f).fab = s.fab := rfl
@[simp] theorem State.modBay_disp (s : State) (b : BayIx) (f : Bay → Bay) : (s.modBay b f).disp = s.disp := rfl
@[simp] theorem State.modBay_host (s : State) (b : BayIx) (f : Bay → Bay) : (s.modBay b f).host = s.host := rfl
@[simp] theorem State.modBay_todo (s : State) (b : BayIx) (f : Bay → Bay) : (s.modBay b f).todo = s.todo := rfl
@[simp] theorem State.modBay_timers (s : State) (b : BayIx) (f : Bay → Bay) : (s.modBay b f).timers = s.timers := rfl
@[simp] theorem State.modBay_inputs (s : State) (b : BayIx) (f : Bay → Bay) : (s.modBay b f).inputs = s.inputs := rfl
@[simp] theorem State.modBay_waits (s : State) (b : BayIx) (f : Bay → Bay) : (s.modBay b f).waits = s.waits := rfl
@[simp] theorem State.modBay_free (s : State) (b : BayIx) (f : Bay → Bay) : (s.modBay b f).free = s.free := rfl
@[simp] theorem State.modBay_drop (s : State) (b : BayIx) (f : Bay → Bay) : (s.modBay b f).drop = s.drop := rfl

/-! ### `State.modStr` -/

@[simp] theorem State.modStr_cur (s : State) (b : BayIx) (q : Nat) (f : Stream → Stream) : (s.modStr b q f).cur = s.cur := rfl
@[simp] theorem State.modStr_msg (s : State) (b : BayIx) (q : Nat) (f : Stream → Stream) : (s.modStr b q f).msg = s.msg := rfl
@[simp] theorem State.modStr_slot (s : State) (b : BayIx) (q : Nat) (f : Stream → Stream) : (s.modStr b q f).slot = s.slot := rfl
@[simp] theorem State.modStr_now (s : State) (b : BayIx) (q : Nat) (f : Stream → Stream) : (s.modStr b q f).now = s.now := rfl
@[simp] theorem State.modStr_gtc (s : State) (b : BayIx) (q : Nat) (f : Stream → Stream) : (s.modStr b q f).gtc = s.gtc := rfl
@[simp] theorem State.modStr_half (s : State) (b : BayIx) (q : Nat) (f : Stream → Stream) : (s.modStr b q f).half = s.half := rfl
@[simp] theorem State.modStr_slew (s : State) (b : BayIx) (q : Nat) (f : Stream → Stream) : (s.modStr b q f).slew = s.slew := rfl
@[simp] theorem State.modStr_slewCnt (s : State) (b : BayIx) (q : Nat) (f : Stream → Stream) : (s.modStr b q f).slewCnt = s.slewCnt := rfl
@[simp] theorem State.modStr_mem (s : State) (b : BayIx) (q : Nat) (f : Stream → Stream) : (s.modStr b q f).mem = s.mem := rfl
@[simp] theorem State.modStr_sideW (s : State) (b : BayIx) (q : Nat) (f : Stream → Stream) : (s.modStr b q f).sideW = s.sideW := rfl
@[simp] theorem State.modStr_sideB (s : State) (b : BayIx) (q : Nat) (f : Stream → Stream) : (s.modStr b q f).sideB = s.sideB := rfl
@[simp] theorem State.modStr_fab (s : State) (b : BayIx) (q : Nat) (f : Stream → Stream) : (s.modStr b q f).fab = s.fab := rfl
@[simp] theorem State.modStr_disp (s : State) (b : BayIx) (q : Nat) (f : Stream → Stream) : (s.modStr b q f).disp = s.disp := rfl
@[simp] theorem State.modStr_host (s : State) (b : BayIx) (q : Nat) (f : Stream → Stream) : (s.modStr b q f).host = s.host := rfl
@[simp] theorem State.modStr_todo (s : State) (b : BayIx) (q : Nat) (f : Stream → Stream) : (s.modStr b q f).todo = s.todo := rfl
@[simp] theorem State.modStr_timers (s : State) (b : BayIx) (q : Nat) (f : Stream → Stream) : (s.modStr b q f).timers = s.timers := rfl
@[simp] theorem State.modStr_inputs (s : State) (b : BayIx) (q : Nat) (f : Stream → Stream) : (s.modStr b q f).inputs = s.inputs := rfl
@[simp] theorem State.modStr_waits (s : State) (b : BayIx) (q : Nat) (f : Stream → Stream) : (s.modStr b q f).waits = s.waits := rfl
@[simp] theorem State.modStr_free (s : State) (b : BayIx) (q : Nat) (f : Stream → Stream) : (s.modStr b q f).free = s.free := rfl
@[simp] theorem State.modStr_drop (s : State) (b : BayIx) (q : Nat) (f : Stream → Stream) : (s.modStr b q f).drop = s.drop := rfl

/-! ### `State.modMxu` -/

@[simp] theorem State.modMxu_cur (s : State) (b : BayIx) (f : Mxu → Mxu) : (s.modMxu b f).cur = s.cur := rfl
@[simp] theorem State.modMxu_msg (s : State) (b : BayIx) (f : Mxu → Mxu) : (s.modMxu b f).msg = s.msg := rfl
@[simp] theorem State.modMxu_slot (s : State) (b : BayIx) (f : Mxu → Mxu) : (s.modMxu b f).slot = s.slot := rfl
@[simp] theorem State.modMxu_now (s : State) (b : BayIx) (f : Mxu → Mxu) : (s.modMxu b f).now = s.now := rfl
@[simp] theorem State.modMxu_gtc (s : State) (b : BayIx) (f : Mxu → Mxu) : (s.modMxu b f).gtc = s.gtc := rfl
@[simp] theorem State.modMxu_half (s : State) (b : BayIx) (f : Mxu → Mxu) : (s.modMxu b f).half = s.half := rfl
@[simp] theorem State.modMxu_slew (s : State) (b : BayIx) (f : Mxu → Mxu) : (s.modMxu b f).slew = s.slew := rfl
@[simp] theorem State.modMxu_slewCnt (s : State) (b : BayIx) (f : Mxu → Mxu) : (s.modMxu b f).slewCnt = s.slewCnt := rfl
@[simp] theorem State.modMxu_mem (s : State) (b : BayIx) (f : Mxu → Mxu) : (s.modMxu b f).mem = s.mem := rfl
@[simp] theorem State.modMxu_sideW (s : State) (b : BayIx) (f : Mxu → Mxu) : (s.modMxu b f).sideW = s.sideW := rfl
@[simp] theorem State.modMxu_sideB (s : State) (b : BayIx) (f : Mxu → Mxu) : (s.modMxu b f).sideB = s.sideB := rfl
@[simp] theorem State.modMxu_fab (s : State) (b : BayIx) (f : Mxu → Mxu) : (s.modMxu b f).fab = s.fab := rfl
@[simp] theorem State.modMxu_disp (s : State) (b : BayIx) (f : Mxu → Mxu) : (s.modMxu b f).disp = s.disp := rfl
@[simp] theorem State.modMxu_host (s : State) (b : BayIx) (f : Mxu → Mxu) : (s.modMxu b f).host = s.host := rfl
@[simp] theorem State.modMxu_todo (s : State) (b : BayIx) (f : Mxu → Mxu) : (s.modMxu b f).todo = s.todo := rfl
@[simp] theorem State.modMxu_timers (s : State) (b : BayIx) (f : Mxu → Mxu) : (s.modMxu b f).timers = s.timers := rfl
@[simp] theorem State.modMxu_inputs (s : State) (b : BayIx) (f : Mxu → Mxu) : (s.modMxu b f).inputs = s.inputs := rfl
@[simp] theorem State.modMxu_waits (s : State) (b : BayIx) (f : Mxu → Mxu) : (s.modMxu b f).waits = s.waits := rfl
@[simp] theorem State.modMxu_free (s : State) (b : BayIx) (f : Mxu → Mxu) : (s.modMxu b f).free = s.free := rfl
@[simp] theorem State.modMxu_drop (s : State) (b : BayIx) (f : Mxu → Mxu) : (s.modMxu b f).drop = s.drop := rfl

/-! ### `State.modMem` -/

@[simp] theorem State.modMem_cur (s : State) (f : Mem → Mem) : (s.modMem f).cur = s.cur := rfl
@[simp] theorem State.modMem_msg (s : State) (f : Mem → Mem) : (s.modMem f).msg = s.msg := rfl
@[simp] theorem State.modMem_slot (s : State) (f : Mem → Mem) : (s.modMem f).slot = s.slot := rfl
@[simp] theorem State.modMem_now (s : State) (f : Mem → Mem) : (s.modMem f).now = s.now := rfl
@[simp] theorem State.modMem_gtc (s : State) (f : Mem → Mem) : (s.modMem f).gtc = s.gtc := rfl
@[simp] theorem State.modMem_half (s : State) (f : Mem → Mem) : (s.modMem f).half = s.half := rfl
@[simp] theorem State.modMem_slew (s : State) (f : Mem → Mem) : (s.modMem f).slew = s.slew := rfl
@[simp] theorem State.modMem_slewCnt (s : State) (f : Mem → Mem) : (s.modMem f).slewCnt = s.slewCnt := rfl
@[simp] theorem State.modMem_mem (s : State) (f : Mem → Mem) : (s.modMem f).mem = f s.mem := rfl
@[simp] theorem State.modMem_sideW (s : State) (f : Mem → Mem) : (s.modMem f).sideW = s.sideW := rfl
@[simp] theorem State.modMem_sideB (s : State) (f : Mem → Mem) : (s.modMem f).sideB = s.sideB := rfl
@[simp] theorem State.modMem_fab (s : State) (f : Mem → Mem) : (s.modMem f).fab = s.fab := rfl
@[simp] theorem State.modMem_disp (s : State) (f : Mem → Mem) : (s.modMem f).disp = s.disp := rfl
@[simp] theorem State.modMem_host (s : State) (f : Mem → Mem) : (s.modMem f).host = s.host := rfl
@[simp] theorem State.modMem_todo (s : State) (f : Mem → Mem) : (s.modMem f).todo = s.todo := rfl
@[simp] theorem State.modMem_timers (s : State) (f : Mem → Mem) : (s.modMem f).timers = s.timers := rfl
@[simp] theorem State.modMem_inputs (s : State) (f : Mem → Mem) : (s.modMem f).inputs = s.inputs := rfl
@[simp] theorem State.modMem_waits (s : State) (f : Mem → Mem) : (s.modMem f).waits = s.waits := rfl
@[simp] theorem State.modMem_free (s : State) (f : Mem → Mem) : (s.modMem f).free = s.free := rfl
@[simp] theorem State.modMem_drop (s : State) (f : Mem → Mem) : (s.modMem f).drop = s.drop := rfl
@[simp] theorem State.modMem_dies (s : State) (f : Mem → Mem) : (s.modMem f).dies = s.dies := rfl
@[simp] theorem State.modMem_die (s : State) (f : Mem → Mem) : (s.modMem f).die = s.die := rfl
@[simp] theorem State.modMem_ctx (s : State) (f : Mem → Mem) : (s.modMem f).ctx = s.ctx := rfl
@[simp] theorem State.modMem_dieAt (s : State) (f : Mem → Mem) (i : DieIx) : (s.modMem f).dieAt i = s.dieAt i := rfl

/-! ### `State.modDisp` -/

@[simp] theorem State.modDisp_cur (s : State) (f : Disp → Disp) : (s.modDisp f).cur = s.cur := rfl
@[simp] theorem State.modDisp_msg (s : State) (f : Disp → Disp) : (s.modDisp f).msg = s.msg := rfl
@[simp] theorem State.modDisp_slot (s : State) (f : Disp → Disp) : (s.modDisp f).slot = s.slot := rfl
@[simp] theorem State.modDisp_now (s : State) (f : Disp → Disp) : (s.modDisp f).now = s.now := rfl
@[simp] theorem State.modDisp_gtc (s : State) (f : Disp → Disp) : (s.modDisp f).gtc = s.gtc := rfl
@[simp] theorem State.modDisp_half (s : State) (f : Disp → Disp) : (s.modDisp f).half = s.half := rfl
@[simp] theorem State.modDisp_slew (s : State) (f : Disp → Disp) : (s.modDisp f).slew = s.slew := rfl
@[simp] theorem State.modDisp_slewCnt (s : State) (f : Disp → Disp) : (s.modDisp f).slewCnt = s.slewCnt := rfl
@[simp] theorem State.modDisp_mem (s : State) (f : Disp → Disp) : (s.modDisp f).mem = s.mem := rfl
@[simp] theorem State.modDisp_sideW (s : State) (f : Disp → Disp) : (s.modDisp f).sideW = s.sideW := rfl
@[simp] theorem State.modDisp_sideB (s : State) (f : Disp → Disp) : (s.modDisp f).sideB = s.sideB := rfl
@[simp] theorem State.modDisp_fab (s : State) (f : Disp → Disp) : (s.modDisp f).fab = s.fab := rfl
@[simp] theorem State.modDisp_disp (s : State) (f : Disp → Disp) : (s.modDisp f).disp = f s.disp := rfl
@[simp] theorem State.modDisp_host (s : State) (f : Disp → Disp) : (s.modDisp f).host = s.host := rfl
@[simp] theorem State.modDisp_todo (s : State) (f : Disp → Disp) : (s.modDisp f).todo = s.todo := rfl
@[simp] theorem State.modDisp_timers (s : State) (f : Disp → Disp) : (s.modDisp f).timers = s.timers := rfl
@[simp] theorem State.modDisp_inputs (s : State) (f : Disp → Disp) : (s.modDisp f).inputs = s.inputs := rfl
@[simp] theorem State.modDisp_waits (s : State) (f : Disp → Disp) : (s.modDisp f).waits = s.waits := rfl
@[simp] theorem State.modDisp_free (s : State) (f : Disp → Disp) : (s.modDisp f).free = s.free := rfl
@[simp] theorem State.modDisp_drop (s : State) (f : Disp → Disp) : (s.modDisp f).drop = s.drop := rfl
@[simp] theorem State.modDisp_dies (s : State) (f : Disp → Disp) : (s.modDisp f).dies = s.dies := rfl
@[simp] theorem State.modDisp_die (s : State) (f : Disp → Disp) : (s.modDisp f).die = s.die := rfl
@[simp] theorem State.modDisp_ctx (s : State) (f : Disp → Disp) : (s.modDisp f).ctx = s.ctx := rfl
@[simp] theorem State.modDisp_dieAt (s : State) (f : Disp → Disp) (i : DieIx) : (s.modDisp f).dieAt i = s.dieAt i := rfl

/-! ### `State.modHost` -/

@[simp] theorem State.modHost_cur (s : State) (f : HostIf → HostIf) : (s.modHost f).cur = s.cur := rfl
@[simp] theorem State.modHost_msg (s : State) (f : HostIf → HostIf) : (s.modHost f).msg = s.msg := rfl
@[simp] theorem State.modHost_slot (s : State) (f : HostIf → HostIf) : (s.modHost f).slot = s.slot := rfl
@[simp] theorem State.modHost_now (s : State) (f : HostIf → HostIf) : (s.modHost f).now = s.now := rfl
@[simp] theorem State.modHost_gtc (s : State) (f : HostIf → HostIf) : (s.modHost f).gtc = s.gtc := rfl
@[simp] theorem State.modHost_half (s : State) (f : HostIf → HostIf) : (s.modHost f).half = s.half := rfl
@[simp] theorem State.modHost_slew (s : State) (f : HostIf → HostIf) : (s.modHost f).slew = s.slew := rfl
@[simp] theorem State.modHost_slewCnt (s : State) (f : HostIf → HostIf) : (s.modHost f).slewCnt = s.slewCnt := rfl
@[simp] theorem State.modHost_mem (s : State) (f : HostIf → HostIf) : (s.modHost f).mem = s.mem := rfl
@[simp] theorem State.modHost_sideW (s : State) (f : HostIf → HostIf) : (s.modHost f).sideW = s.sideW := rfl
@[simp] theorem State.modHost_sideB (s : State) (f : HostIf → HostIf) : (s.modHost f).sideB = s.sideB := rfl
@[simp] theorem State.modHost_fab (s : State) (f : HostIf → HostIf) : (s.modHost f).fab = s.fab := rfl
@[simp] theorem State.modHost_disp (s : State) (f : HostIf → HostIf) : (s.modHost f).disp = s.disp := rfl
@[simp] theorem State.modHost_host (s : State) (f : HostIf → HostIf) : (s.modHost f).host = f s.host := rfl
@[simp] theorem State.modHost_todo (s : State) (f : HostIf → HostIf) : (s.modHost f).todo = s.todo := rfl
@[simp] theorem State.modHost_timers (s : State) (f : HostIf → HostIf) : (s.modHost f).timers = s.timers := rfl
@[simp] theorem State.modHost_inputs (s : State) (f : HostIf → HostIf) : (s.modHost f).inputs = s.inputs := rfl
@[simp] theorem State.modHost_waits (s : State) (f : HostIf → HostIf) : (s.modHost f).waits = s.waits := rfl
@[simp] theorem State.modHost_free (s : State) (f : HostIf → HostIf) : (s.modHost f).free = s.free := rfl
@[simp] theorem State.modHost_drop (s : State) (f : HostIf → HostIf) : (s.modHost f).drop = s.drop := rfl
@[simp] theorem State.modHost_dies (s : State) (f : HostIf → HostIf) : (s.modHost f).dies = s.dies := rfl
@[simp] theorem State.modHost_die (s : State) (f : HostIf → HostIf) : (s.modHost f).die = s.die := rfl
@[simp] theorem State.modHost_ctx (s : State) (f : HostIf → HostIf) : (s.modHost f).ctx = s.ctx := rfl
@[simp] theorem State.modHost_dieAt (s : State) (f : HostIf → HostIf) (i : DieIx) : (s.modHost f).dieAt i = s.dieAt i := rfl

/-! ### `State.modFab` -/

@[simp] theorem State.modFab_cur (s : State) (f : Fabric → Fabric) : (s.modFab f).cur = s.cur := rfl
@[simp] theorem State.modFab_msg (s : State) (f : Fabric → Fabric) : (s.modFab f).msg = s.msg := rfl
@[simp] theorem State.modFab_slot (s : State) (f : Fabric → Fabric) : (s.modFab f).slot = s.slot := rfl
@[simp] theorem State.modFab_now (s : State) (f : Fabric → Fabric) : (s.modFab f).now = s.now := rfl
@[simp] theorem State.modFab_gtc (s : State) (f : Fabric → Fabric) : (s.modFab f).gtc = s.gtc := rfl
@[simp] theorem State.modFab_half (s : State) (f : Fabric → Fabric) : (s.modFab f).half = s.half := rfl
@[simp] theorem State.modFab_slew (s : State) (f : Fabric → Fabric) : (s.modFab f).slew = s.slew := rfl
@[simp] theorem State.modFab_slewCnt (s : State) (f : Fabric → Fabric) : (s.modFab f).slewCnt = s.slewCnt := rfl
@[simp] theorem State.modFab_mem (s : State) (f : Fabric → Fabric) : (s.modFab f).mem = s.mem := rfl
@[simp] theorem State.modFab_sideW (s : State) (f : Fabric → Fabric) : (s.modFab f).sideW = s.sideW := rfl
@[simp] theorem State.modFab_sideB (s : State) (f : Fabric → Fabric) : (s.modFab f).sideB = s.sideB := rfl
@[simp] theorem State.modFab_fab (s : State) (f : Fabric → Fabric) : (s.modFab f).fab = f s.fab := rfl
@[simp] theorem State.modFab_disp (s : State) (f : Fabric → Fabric) : (s.modFab f).disp = s.disp := rfl
@[simp] theorem State.modFab_host (s : State) (f : Fabric → Fabric) : (s.modFab f).host = s.host := rfl
@[simp] theorem State.modFab_todo (s : State) (f : Fabric → Fabric) : (s.modFab f).todo = s.todo := rfl
@[simp] theorem State.modFab_timers (s : State) (f : Fabric → Fabric) : (s.modFab f).timers = s.timers := rfl
@[simp] theorem State.modFab_inputs (s : State) (f : Fabric → Fabric) : (s.modFab f).inputs = s.inputs := rfl
@[simp] theorem State.modFab_waits (s : State) (f : Fabric → Fabric) : (s.modFab f).waits = s.waits := rfl
@[simp] theorem State.modFab_free (s : State) (f : Fabric → Fabric) : (s.modFab f).free = s.free := rfl
@[simp] theorem State.modFab_drop (s : State) (f : Fabric → Fabric) : (s.modFab f).drop = s.drop := rfl
@[simp] theorem State.modFab_dies (s : State) (f : Fabric → Fabric) : (s.modFab f).dies = s.dies := rfl
@[simp] theorem State.modFab_die (s : State) (f : Fabric → Fabric) : (s.modFab f).die = s.die := rfl
@[simp] theorem State.modFab_ctx (s : State) (f : Fabric → Fabric) : (s.modFab f).ctx = s.ctx := rfl
@[simp] theorem State.modFab_dieAt (s : State) (f : Fabric → Fabric) (i : DieIx) : (s.modFab f).dieAt i = s.dieAt i := rfl

/-! ### Parts of the running die -/

@[simp] theorem State.die_modPump (s : State) (f : Pump → Pump) : (s.modPump f).die = { s.die with pump := f s.die.pump } :=
  State.die_modDie s _

@[simp] theorem State.die_modOrd (s : State) (f : Order → Order) : (s.modOrd f).die = { s.die with ord := f s.die.ord } :=
  State.die_modDie s _

@[simp] theorem State.die_modErr (s : State) (f : Err → Err) : (s.modErr f).die = { s.die with err := f s.die.err } :=
  State.die_modDie s _

@[simp] theorem State.ctx_modPump (s : State) (f : Pump → Pump) : (s.modPump f).ctx = s.ctx := by simp [State.ctx]

@[simp] theorem State.ctx_modOrd (s : State) (f : Order → Order) : (s.modOrd f).ctx = s.ctx := by simp [State.ctx]

@[simp] theorem State.ctx_modErr (s : State) (f : Err → Err) : (s.modErr f).ctx = s.ctx := by simp [State.ctx]

/-! ### Bays -/

@[simp] theorem Ctx.bayAt_setBay_self (c : Ctx) (b : BayIx) (x : Bay) : (c.setBay b x).bayAt b = x :=
  Vector.getElem_set_self b.isLt

theorem Ctx.bayAt_setBay_ne (c : Ctx) {b b' : BayIx} (x : Bay) (h : b' ≠ b) : (c.setBay b x).bayAt b' = c.bayAt b' := by
  have h' : b.val ≠ b'.val := fun e => h (Fin.ext e.symm)
  simp only [Ctx.bayAt, Ctx.setBay]
  exact Vector.getElem_set_ne b.isLt b'.isLt h'

@[simp] theorem State.bayAt_modBay_self (s : State) (b : BayIx) (f : Bay → Bay) :
    (s.modBay b f).bayAt b = f (s.bayAt b) := by
  simp [State.bayAt, State.modBay]

theorem State.bayAt_modBay_ne (s : State) {b b' : BayIx} (f : Bay → Bay) (h : b' ≠ b) :
    (s.modBay b f).bayAt b' = s.bayAt b' := by
  simp [State.bayAt, State.modBay, Ctx.bayAt_setBay_ne _ _ h]

@[simp] theorem Bay.str_setStr_self (x : Bay) (q : Nat) (t : Stream) : (x.setStr q t).str q = t := by
  simp [Bay.str, Bay.setStr]

theorem Bay.str_setStr_ne (x : Bay) {q q' : Nat} (t : Stream) (h : q' % 32 ≠ q % 32) :
    (x.setStr q t).str q' = x.str q' := by
  simp only [Bay.str, Bay.setStr]
  exact Vector.getElem_set_ne _ _ h.symm

/-! ### Registers (R123) -/

theorem Ctx.rs_zero (c : Ctx) : c.rs 0 = 0 := rfl

theorem Ctx.rp_zero (c : Ctx) : c.rp 0 = true := rfl

theorem Ctx.ws_zero (c : Ctx) (v : Word) : c.ws 0 v = c := rfl

theorem Ctx.wp_zero (c : Ctx) (v : Bool) : c.wp 0 v = c := rfl

/-- A write of a scalar register is read back, unless the register is s0. -/
theorem Ctx.rs_ws_self (c : Ctx) {r : BitVec 6} (v : Word) (h : r ≠ 0) : (c.ws r v).rs r = v := by
  rw [Ctx.ws, if_neg h, Ctx.rs, if_neg h]
  exact Vector.getElem_set_self _

theorem Ctx.rs_ws_ne (c : Ctx) {r r' : BitVec 6} (v : Word) (h : r' ≠ r) : (c.ws r v).rs r' = c.rs r' := by
  have h' : r.toNat ≠ r'.toNat := fun e => h (BitVec.eq_of_toNat_eq e.symm)
  unfold Ctx.ws
  split
  · rfl
  · unfold Ctx.rs
    split
    · rfl
    · exact Vector.getElem_set_ne r.isLt r'.isLt h'

/-- A write of a predicate is read back, unless it is p0. -/
theorem Ctx.rp_wp_self (c : Ctx) {r : BitVec 4} (v : Bool) (h : r ≠ 0) : (c.wp r v).rp r = v := by
  have hr : r.toNat < 16 := r.isLt
  rw [Ctx.wp, if_neg h]
  cases v <;> simp [Ctx.rp, hr]
  exact h

theorem Ctx.rp_wp_ne (c : Ctx) {r r' : BitVec 4} (v : Bool) (h : r' ≠ r) : (c.wp r v).rp r' = c.rp r' := by
  have h' : r'.toNat ≠ r.toNat := fun e => h (BitVec.eq_of_toNat_eq e)
  have h2 : r'.toNat < 16 := r'.isLt
  unfold Ctx.wp
  split
  · rfl
  · by_cases h3 : r'.toNat < r.toNat
    · cases v <;> simp [Ctx.rp, h2, h3]
    · have h4 : r'.toNat - r.toNat ≠ 0 := by omega
      cases v <;> simp [Ctx.rp, h2, h4]

@[simp] theorem Ctx.rh_wh_self (c : Ctx) (r : BitVec 4) (v : Handle) : (c.wh r v).rh r = v := by
  simp [Ctx.rh, Ctx.wh]

theorem Ctx.rh_wh_ne (c : Ctx) {r r' : BitVec 4} (v : Handle) (h : r' ≠ r) : (c.wh r v).rh r' = c.rh r' := by
  have h' : r.toNat ≠ r'.toNat := fun e => h (BitVec.eq_of_toNat_eq e.symm)
  simp only [Ctx.rh, Ctx.wh]
  exact Vector.getElem_set_ne _ _ h'

end Sys2Proof.Machine
end

