-- ==== Sys2Proof/Laws/Memory.lean ====
section
/-!
SUPPORT. The sparse maps in which memories are held: a read after a write, and the canonical form, which every write keeps.
-/

namespace Sys2Proof

namespace SMap

variable {α : Type} [DecidableEq α]

/-! ### The canonical form -/

/-- A bound below every key may be lowered, or left out. -/
theorem wfFrom_mono {d : α} {m : SMap α} {l : Nat} {lo : Option Nat} (h : wfFrom d (some l) m = true)
    (hl : ∀ k, lo = some k → k ≤ l) : wfFrom d lo m = true := by
  cases m with
  | nil => rfl
  | cons p m =>
    obtain ⟨k, v⟩ := p
    simp only [wfFrom, Bool.and_eq_true, decide_eq_true_eq] at h ⊢
    refine ⟨⟨?_, h.1.2⟩, h.2⟩
    cases lo with
    | none => rfl
    | some x => simpa using lt_of_le_of_lt (hl x rfl) h.1.1

theorem wfFrom_cons {d : α} {lo : Option Nat} {k : Nat} {v : α} {m : SMap α} :
    wfFrom d lo ((k, v) :: m) = true ↔ (∀ l, lo = some l → l < k) ∧ v ≠ d ∧ wfFrom d (some k) m = true := by
  cases lo <;> simp [wfFrom, and_assoc]

/-- A key at or below the bound reads as unlisted. -/
theorem get_of_le {d : α} {m : SMap α} {l a : Nat} (h : wfFrom d (some l) m = true) (ha : a ≤ l) : get d m a = d := by
  cases m with
  | nil => rfl
  | cons p m =>
    obtain ⟨k, v⟩ := p
    have hk := (wfFrom_cons.1 h).1 l rfl
    simp only [get]
    rw [if_neg (by omega), if_pos (by omega)]

/-- A write keeps the canonical form above a bound. -/
theorem put_wfFrom {d : α} {m : SMap α} {lo : Option Nat} {a : Nat} (v : α) (h : wfFrom d lo m = true)
    (ha : ∀ l, lo = some l → l < a) : wfFrom d lo (put d m a v) = true := by
  induction m generalizing lo with
  | nil =>
    simp only [put]
    split
    · rfl
    · next hv => exact wfFrom_cons.2 ⟨ha, hv, rfl⟩
  | cons p m ih =>
    obtain ⟨k, w⟩ := p
    obtain ⟨h1, h2, h3⟩ := wfFrom_cons.1 h
    simp only [put]
    split
    · next hk =>
      split
      · exact h
      · next hv => exact wfFrom_cons.2 ⟨ha, hv, wfFrom_cons.2 ⟨fun l hl => by cases hl; exact hk, h2, h3⟩⟩
    · split
      · next hk =>
        split
        · exact wfFrom_mono h3 fun l hl => (h1 l hl).le
        · next hv => exact wfFrom_cons.2 ⟨ha, hv, hk ▸ h3⟩
      · next h4 h5 => exact wfFrom_cons.2 ⟨h1, h2, ih h3 fun l hl => by cases hl; omega⟩

/-- A write keeps the canonical form. -/
theorem put_wf {d : α} {m : SMap α} (a : Nat) (v : α) (h : wf d m = true) : wf d (put d m a v) = true :=
  put_wfFrom v h (by simp)

/-- What passes a filter of keys stays in canonical form. -/
theorem filter_wfFrom {d : α} {m : SMap α} {lo : Option Nat} (p : Nat × α → Bool) (h : wfFrom d lo m = true) :
    wfFrom d lo (m.filter p) = true := by
  induction m generalizing lo with
  | nil => rfl
  | cons x m ih =>
    obtain ⟨k, w⟩ := x
    obtain ⟨h1, h2, h3⟩ := wfFrom_cons.1 h
    rw [List.filter_cons]
    split
    · exact wfFrom_cons.2 ⟨h1, h2, ih h3⟩
    · exact wfFrom_mono (ih h3) fun l hl => (h1 l hl).le

/-- Clearing a range of keys keeps the canonical form. -/
theorem clearRange_wf {d : α} {m : SMap α} (lo hi : Nat) (h : wf d m = true) : wf d (clearRange m lo hi) = true :=
  filter_wfFrom _ h

/-! ### Reads -/

/-- A read after a write of the same key gives what was written. -/
theorem get_put_self {d : α} {m : SMap α} {lo : Option Nat} (a : Nat) (v : α) (h : wfFrom d lo m = true) :
    get d (put d m a v) a = v := by
  induction m generalizing lo with
  | nil =>
    simp only [put]
    split
    · next hv => simp [get, hv]
    · simp [get]
  | cons p m ih =>
    obtain ⟨k, w⟩ := p
    obtain ⟨-, -, h3⟩ := wfFrom_cons.1 h
    simp only [put]
    split
    · next hk =>
      split
      · next hv =>
        simp only [get]
        rw [if_neg (by omega), if_pos hk, hv]
      · simp [get]
    · split
      · next hk =>
        split
        · next hv =>
          rw [hv]
          exact get_of_le h3 (by omega)
        · simp [get]
      · next h4 h5 =>
        simp only [get]
        rw [if_neg h5, if_neg h4]
        exact ih h3

/-- A write leaves every other key alone. -/
theorem get_put_ne {d : α} {m : SMap α} {lo : Option Nat} {a b : Nat} (v : α) (h : wfFrom d lo m = true) (hb : b ≠ a) :
    get d (put d m a v) b = get d m b := by
  induction m generalizing lo with
  | nil =>
    simp only [put]
    split
    · rfl
    · simp [get, hb]
  | cons p m ih =>
    obtain ⟨k, w⟩ := p
    obtain ⟨-, -, h3⟩ := wfFrom_cons.1 h
    simp only [put]
    split
    · next hk =>
      split
      · rfl
      · by_cases h5 : b < a
        · simp only [get]
          rw [if_neg hb, if_pos h5, if_neg (by omega), if_pos (by omega)]
        · simp only [get]
          rw [if_neg hb, if_neg h5]
    · split
      · next hk =>
        have hbk : b ≠ k := fun e => hb (e.trans hk.symm)
        split
        · by_cases h5 : b < k
          · simp only [get]
            rw [if_neg hbk, if_pos h5]
            exact get_of_le h3 h5.le
          · simp only [get]
            rw [if_neg hbk, if_neg h5]
        · by_cases h5 : b < a
          · simp only [get]
            rw [if_neg hb, if_pos h5, if_neg hbk, if_pos (by omega)]
          · simp only [get]
            rw [if_neg hb, if_neg h5, if_neg hbk, if_neg (by omega)]
      · simp only [get]
        rw [ih h3]

end SMap

namespace Machine

/-! ### Bytes -/

/-- A fold of operations that keep a property keeps it. -/
theorem foldl_keeps {α β : Type} {P : β → Prop} {f : β → α → β} (l : List α) {b : β} (h : P b)
    (hf : ∀ b a, P b → P (f b a)) : P (l.foldl f b) := by
  induction l generalizing b with
  | nil => exact h
  | cons a l ih => exact ih (hf b a h)

/-- Writing bytes keeps the canonical form. -/
theorem wrBytes_wf {m : List Host.Cell} (a : Nat) (bs : List Byte) (h : SMap.wf 0 m = true) :
    SMap.wf 0 (wrBytes m a bs) = true := by
  induction bs generalizing m a with
  | nil => exact h
  | cons b bs ih => exact ih _ (SMap.put_wf _ _ h)

/-- Bytes outside the range that is written read as before. -/
theorem get_wrBytes_outside {m : List Host.Cell} (a : Nat) (bs : List Byte) {x : Nat} (h : SMap.wf 0 m = true)
    (hx : x < a ∨ a + bs.length ≤ x) : SMap.get 0 (wrBytes m a bs) x = SMap.get 0 m x := by
  induction bs generalizing m a with
  | nil => rfl
  | cons b bs ih =>
    simp only [List.length_cons] at hx
    rw [wrBytes, ih _ (SMap.put_wf _ _ h) (by omega), SMap.get_put_ne _ h (by omega)]

/-- A byte that is written reads as written. -/
theorem get_wrBytes_inside {m : List Host.Cell} (a : Nat) (bs : List Byte) {i : Nat} (h : SMap.wf 0 m = true)
    (hi : i < bs.length) : SMap.get 0 (wrBytes m a bs) (a + i) = bs[i] := by
  induction bs generalizing m a i with
  | nil => simp at hi
  | cons b bs ih =>
    rw [wrBytes]
    cases i with
    | zero =>
      rw [get_wrBytes_outside _ _ (SMap.put_wf _ _ h) (by omega)]
      exact SMap.get_put_self _ _ h
    | succ i =>
      have := ih (m := SMap.put 0 m a b) (a + 1) (SMap.put_wf _ _ h) (i := i) (by simpa using hi)
      rw [show a + (i + 1) = a + 1 + i by omega]
      simpa using this

/-- Reading back what was written. -/
theorem rdBytes_wrBytes {m : List Host.Cell} (a : Nat) (bs : List Byte) (h : SMap.wf 0 m = true) :
    rdBytes (wrBytes m a bs) a bs.length = bs := by
  induction bs generalizing m a with
  | nil => rfl
  | cons b bs ih =>
    rw [List.length_cons, rdBytes, wrBytes, ih _ (SMap.put_wf _ _ h),
      get_wrBytes_outside _ _ (SMap.put_wf _ _ h) (by omega)]
    rw [SMap.get_put_self _ _ h]

end Machine

end Sys2Proof
end

