-- ==== Sys2Proof/Laws/Canonical.lean ====
section
/-!
SUPPORT. Every operation on memory keeps each memory, and each map of stored errors, in canonical form; the operations that
touch no memory leave it as it is.
-/

namespace Sys2Proof.Machine

/-! ### The form, memory by memory -/

theorem Mem.wf_iff {m : Mem} : m.wf = true ↔
    (SMap.wf 0 m.cistern = true ∧ SMap.wf false m.pz = true ∧ SMap.wf false m.nr = true ∧ SMap.wf .ok m.ecc = true ∧
      SMap.wf .ok m.chk = true) ∧
    (SMap.wf 0 m.hbm = true ∧ SMap.wf false m.hbmPz = true ∧ SMap.wf .ok m.hbmErr = true) ∧
    (SMap.wf 0 m.res = true ∧ SMap.wf false m.resPz = true) ∧ SMap.wf 0 m.host = true := by
  simp only [Mem.wf, Bool.and_eq_true, and_assoc]

/-- The cistern and its maps change, and nothing else does. -/
theorem Mem.wf_cistern {m : Mem} (h : m.wf = true) {c : List Host.Cell} {p n : SMap Bool} {e : SMap EccSt}
    (hc : SMap.wf 0 c = true) (hp : SMap.wf false p = true) (hn : SMap.wf false n = true) (he : SMap.wf .ok e = true) :
    ({ m with cistern := c, pz := p, nr := n, ecc := e } : Mem).wf = true := by
  have h := Mem.wf_iff.1 h
  exact Mem.wf_iff.2 ⟨⟨hc, hp, hn, he, h.1.2.2.2.2⟩, h.2⟩

/-- The stack and its maps change, and nothing else does. -/
theorem Mem.wf_stack {m : Mem} (h : m.wf = true) {x : List Host.Cell} {p : SMap Bool} {e : SMap EccSt}
    (hx : SMap.wf 0 x = true) (hp : SMap.wf false p = true) (he : SMap.wf .ok e = true) :
    ({ m with hbm := x, hbmPz := p, hbmErr := e } : Mem).wf = true := by
  have h := Mem.wf_iff.1 h
  exact Mem.wf_iff.2 ⟨h.1, ⟨hx, hp, he⟩, h.2.2⟩

/-- The reservoir changes, and nothing else does. -/
theorem Mem.wf_res {m : Mem} (h : m.wf = true) {x : List Host.Cell} {p : SMap Bool} (hx : SMap.wf 0 x = true)
    (hp : SMap.wf false p = true) : ({ m with res := x, resPz := p } : Mem).wf = true := by
  have h := Mem.wf_iff.1 h
  exact Mem.wf_iff.2 ⟨h.1, h.2.1, ⟨hx, hp⟩, h.2.2.2⟩

/-- The host's memory changes, and nothing else does. -/
theorem Mem.wf_host {m : Mem} (h : m.wf = true) {x : List Host.Cell} (hx : SMap.wf 0 x = true) :
    ({ m with host := x } : Mem).wf = true := by
  have h := Mem.wf_iff.1 h
  exact Mem.wf_iff.2 ⟨h.1, h.2.1, h.2.2.1, hx⟩

theorem State.reset_mem_wf : State.reset.mem.wf = true := by decide

/-! ### Operations that touch no memory -/

@[simp] theorem State.msix_mem (s : State) (v : Nat) : (s.msix v).mem = s.mem := rfl
@[simp] theorem State.at_mem (s : State) (t : Nat) (i : DieIx) (e : Instr) (m : Msg) : (s.at t i e m).mem = s.mem := rfl
@[simp] theorem State.after_mem (s : State) (n : Nat) (e : Instr) (m : Msg) : (s.after n e m).mem = s.mem := rfl
@[simp] theorem State.push_mem (s : State) (ws : List Work) : (s.push ws).mem = s.mem := rfl
@[simp] theorem State.event_mem (s : State) (c k l : Nat) : (s.event c k l).mem = s.mem := rfl
@[simp] theorem State.postFault_mem (s : State) (d k : Nat) (l : List Word) : (s.postFault d k l).mem = s.mem := rfl

@[simp] theorem State.takeWait_mem (s : State) : s.takeWait.2.mem = s.mem := by
  unfold State.takeWait
  split <;> rfl

@[simp] theorem State.whenever_mem (s : State) (e : Instr) (m : Msg) : (s.whenever e m).mem = s.mem := by
  simp [State.whenever]

theorem State.onDie_mem (s : State) (i : DieIx) (f : State → State) : (s.onDie i f).mem = (f { s with cur := i }).mem := rfl

@[simp] theorem State.retireBank_mem (s : State) (bay bank : Nat) : (s.retireBank bay bank).mem = s.mem := by
  unfold State.retireBank
  dsimp only
  split_ifs <;> simp

@[simp] theorem State.lasting_mem (s : State) (l : Loc) : (s.lasting l).mem = s.mem := by
  unfold State.lasting
  split <;> dsimp only <;> (try split_ifs) <;> simp

@[simp] theorem State.trackCe_mem (s : State) (l : Loc) : (s.trackCe l).mem = s.mem := by
  unfold State.trackCe
  dsimp only
  split <;> split_ifs <;> simp

@[simp] theorem State.noteUe_mem (s : State) (a : Nat) : (s.noteUe a).mem = s.mem := by
  unfold State.noteUe
  dsimp only
  split_ifs <;> simp

/-! ### Words of the cistern -/

theorem State.decodeWord_wf {s : State} (wa : Nat) (tl : Bool) (h : s.mem.wf = true) :
    (s.decodeWord wa tl).1.mem.wf = true := by
  have hm := Mem.wf_iff.1 h
  have hp : ({ s.mem with ecc := SMap.put .ok s.mem.ecc wa .ok } : Mem).wf = true :=
    Mem.wf_cistern h hm.1.1 hm.1.2.1 hm.1.2.2.1 (SMap.put_wf _ _ hm.1.2.2.2.1)
  unfold State.decodeWord
  dsimp only
  split
  · simpa [State.onDie_mem] using h
  · split
    · exact h
    · simpa [State.onDie_mem] using hp
    · cases tl <;> simpa [State.onDie_mem] using hp

theorem State.putWord_wf {s : State} (wa : Nat) (bs : List (Nat × Byte)) (tl : Bool) (h : s.mem.wf = true) :
    (s.putWord wa bs tl).mem.wf = true := by
  have key : ∀ (u : State) (pz : Bool), u.mem.wf = true → ({ u.mem with
      cistern := bs.foldl (fun m p => SMap.put 0 m (wa * 16 + p.1) p.2) u.mem.cistern
      pz := SMap.put false u.mem.pz wa pz
      nr := SMap.put false u.mem.nr wa false
      ecc := SMap.put .ok u.mem.ecc wa .ok } : Mem).wf = true := by
    intro u pz hu
    have hm := Mem.wf_iff.1 hu
    exact Mem.wf_cistern hu (foldl_keeps (P := fun m => SMap.wf 0 m = true) bs hm.1.1 fun _ _ hb => SMap.put_wf _ _ hb) (SMap.put_wf _ _ hm.1.2.1)
      (SMap.put_wf _ _ hm.1.2.2.1) (SMap.put_wf _ _ hm.1.2.2.2.1)
  unfold State.putWord
  split_ifs
  · exact h
  · dsimp only
    rw [State.onDie_mem, State.modCtx_mem]
    split_ifs
    · exact key _ _ h
    · exact key _ _ (State.decodeWord_wf _ _ h)

theorem State.putCells_wf {s : State} (l : List (Nat × Nat × Byte)) (h : s.mem.wf = true) : (s.putCells l).mem.wf = true :=
  foldl_keeps (P := fun u : State => u.mem.wf = true) _ h fun _ _ hu => State.putWord_wf _ _ _ hu

theorem State.putBytes_wf {s : State} (a : Nat) (bs : List Byte) (h : s.mem.wf = true) : (s.putBytes a bs).mem.wf = true :=
  State.putCells_wf _ h

theorem State.poison_wf {s : State} (wa : Nat) (h : s.mem.wf = true) : (s.poison wa).mem.wf = true := by
  have hm := Mem.wf_iff.1 h
  exact Mem.wf_cistern h hm.1.1 (SMap.put_wf _ _ hm.1.2.1) hm.1.2.2.1 hm.1.2.2.2.1

theorem State.tabWrite_wf {s : State} (base off : Nat) (bs : List Byte) (h : s.mem.wf = true) :
    (s.tabWrite base off bs).mem.wf = true := State.putCells_wf _ h

theorem State.setPeer_wf {s : State} (p lo w v : Nat) (h : s.mem.wf = true) : (s.setPeer p lo w v).mem.wf = true := by
  unfold State.setPeer
  split
  · exact State.tabWrite_wf _ _ _ h
  · exact h

theorem State.setGran_wf {s : State} (d g e : Nat) (h : s.mem.wf = true) : (s.setGran d g e).mem.wf = true :=
  State.putBytes_wf _ _ h

theorem State.zeroGranule_wf {s : State} (g : Nat) (h : s.mem.wf = true) : (s.zeroGranule g).mem.wf = true := by
  have hm := Mem.wf_iff.1 h
  exact Mem.wf_cistern h (SMap.clearRange_wf _ _ hm.1.1) (SMap.clearRange_wf _ _ hm.1.2.1) (SMap.clearRange_wf _ _ hm.1.2.2.1)
    (SMap.clearRange_wf _ _ hm.1.2.2.2.1)

theorem swapRange_wf {α : Type} [DecidableEq α] {d : α} {m : SMap α} (a b n : Nat) (h : SMap.wf d m = true) :
    SMap.wf d (swapRange d m a b n) = true := by
  unfold swapRange
  exact foldl_keeps (P := fun m => SMap.wf d m = true) _ (foldl_keeps (P := fun m => SMap.wf d m = true) _
    (SMap.clearRange_wf _ _ (SMap.clearRange_wf _ _ h)) fun _ _ hb => SMap.put_wf _ _ hb) fun _ _ hb => SMap.put_wf _ _ hb

theorem State.swapGranules_wf {s : State} (x : Nat × Nat) (h : s.mem.wf = true) : (s.swapGranules x).mem.wf = true := by
  have hm := Mem.wf_iff.1 h
  exact Mem.wf_cistern h (swapRange_wf _ _ _ hm.1.1) (swapRange_wf _ _ _ hm.1.2.1) (swapRange_wf _ _ _ hm.1.2.2.1)
    (swapRange_wf _ _ _ hm.1.2.2.2.1)

/-! ### Units of the stack -/

theorem State.readUnit_wf {s : State} (b r u : Nat) (h : s.mem.wf = true) : (s.readUnit b r u).1.mem.wf = true := by
  have hm := Mem.wf_iff.1 h
  unfold State.readUnit
  dsimp only
  split
  · exact h
  · split
    · exact h
    · simpa using Mem.wf_stack h hm.2.1.1 hm.2.1.2.1 (SMap.put_wf _ _ hm.2.1.2.2)
    · simpa using Mem.wf_stack h hm.2.1.1 (SMap.put_wf _ _ hm.2.1.2.1) (SMap.put_wf _ _ hm.2.1.2.2)

theorem State.writeUnit_wf {s : State} (b r u : Nat) (bs : List Byte) (pz : Bool) (h : s.mem.wf = true) :
    (s.writeUnit b r u bs pz).mem.wf = true := by
  have hm := Mem.wf_iff.1 h
  exact Mem.wf_stack h (wrBytes_wf _ _ hm.2.1.1) (SMap.put_wf _ _ hm.2.1.2.1) (SMap.put_wf _ _ hm.2.1.2.2)

theorem State.reviveRow_wf {s : State} (b r : Nat) (h : s.mem.wf = true) : (s.reviveRow b r).mem.wf = true := by
  have hm := Mem.wf_iff.1 h
  exact Mem.wf_stack h (SMap.clearRange_wf _ _ hm.2.1.1) (SMap.clearRange_wf _ _ hm.2.1.2.1) (SMap.clearRange_wf _ _ hm.2.1.2.2)

theorem State.svcReadUnit_wf {s : State} (b r u : Nat) (h : s.mem.wf = true) : (s.svcReadUnit b r u).1.mem.wf = true := by
  unfold State.svcReadUnit
  split_ifs
  · exact h
  · exact State.readUnit_wf _ _ _ h

theorem State.svcWriteUnit_wf {s : State} (b r u : Nat) (bs : List Byte) (pz : Bool) (h : s.mem.wf = true) :
    (s.svcWriteUnit b r u bs pz).mem.wf = true := by
  unfold State.svcWriteUnit
  split_ifs
  · exact State.writeUnit_wf _ _ _ _ _ (State.reviveRow_wf _ _ h)
  · exact State.writeUnit_wf _ _ _ _ _ h

theorem State.modOwner_mem (s : State) (n : Nat) (f : Ctx → Ctx) : (s.modOwner n f).mem = s.mem := by
  unfold State.modOwner
  dsimp only
  split_ifs <;> rfl

theorem State.nmcError_wf {s : State} (j : NmcJob) (u : Nat) (h : s.mem.wf = true) : (s.nmcError j u).mem.wf = true := by
  have hm := Mem.wf_iff.1 h
  unfold State.nmcError
  dsimp only
  rw [State.modOwner_mem]
  exact Mem.wf_stack h hm.2.1.1 (SMap.put_wf _ _ hm.2.1.2.1) (SMap.put_wf _ _ hm.2.1.2.2)

/-! ### The reservoir, frames of either tier, and the host's memory -/

theorem State.putRes_wf {s : State} (a : Nat) (bs : List Byte) (pz : Bool) (h : s.mem.wf = true) :
    (s.putRes a bs pz).mem.wf = true := by
  have hm := Mem.wf_iff.1 h
  exact Mem.wf_res h (wrBytes_wf _ _ hm.2.2.1.1) (SMap.put_wf _ _ hm.2.2.1.2)

theorem State.resPut_wf {s : State} (a : Nat) (bs : List Byte) (h : s.mem.wf = true) : (s.resPut a bs).mem.wf = true := by
  have hm := Mem.wf_iff.1 h
  exact Mem.wf_res h (wrBytes_wf _ _ hm.2.2.1.1) (foldl_keeps (P := fun m => SMap.wf false m = true) _ hm.2.2.1.2 fun _ _ hb => SMap.put_wf _ _ hb)

theorem State.readChunk_wf {s : State} (g : Geom) (tier frame o : Nat) (h : s.mem.wf = true) :
    (s.readChunk g tier frame o).1.mem.wf = true := by
  unfold State.readChunk
  split_ifs
  · exact State.svcReadUnit_wf _ _ _ (State.svcReadUnit_wf _ _ _ h)
  · exact h

theorem State.writeChunk_wf {s : State} (g : Geom) (tier frame o : Nat) (bs : List Byte) (p q : Bool) (h : s.mem.wf = true) :
    (s.writeChunk g tier frame o bs p q).mem.wf = true := by
  unfold State.writeChunk
  split_ifs
  · exact State.svcWriteUnit_wf _ _ _ _ _ (State.svcWriteUnit_wf _ _ _ _ _ h)
  · have hm := Mem.wf_iff.1 h
    exact Mem.wf_res h (wrBytes_wf _ _ hm.2.2.1.1) (foldl_keeps (P := fun m => SMap.wf false m = true) _ hm.2.2.1.2 fun _ _ hb => SMap.put_wf _ _ hb)

theorem State.hostPut_wf {s t : State} (a : Nat) (bs : List Byte) (h : s.mem.wf = true) (ht : s.hostPut a bs = some t) :
    t.mem.wf = true := by
  unfold State.hostPut at ht
  split_ifs at ht
  cases ht
  exact Mem.wf_host h (wrBytes_wf _ _ (Mem.wf_iff.1 h).2.2.2)

theorem State.reply_wf {s : State} (st : Nat) (v : Word) (h : s.mem.wf = true) : (s.reply st v).mem.wf = true := by
  unfold State.reply
  dsimp only
  split_ifs
  · exact h
  · simp only [State.msix_mem, State.modHost_mem]
    cases hx : (s.modHost fun h => { h with resp := some (st, v) }).hostPut
        ((s.modHost fun h => { h with resp := some (st, v) }).host.entryAddr + 48) (natBytes st 8 ++ natBytes v.toNat 8) with
    | none => exact h
    | some t => exact State.hostPut_wf (s := s.modHost _) _ _ h hx

end Sys2Proof.Machine
end

