-- ==== Sys2Proof/Laws/Ops.lean ====
section
/-!
SUPPORT. The shared operations: what each can do, once. Scheduling, the running of a slot, the entry of a trap and the
return from it.
-/

namespace Sys2Proof.Machine

/-! ### Scheduling -/

theorem mem_insertPend {x y : Pend} {l : List Pend} : x ∈ insertPend y l ↔ x = y ∨ x ∈ l := by
  induction l with
  | nil => simp [insertPend]
  | cons z l ih =>
    simp only [insertPend]
    split <;> simp [ih, or_left_comm]

/-- A step joins those in flight at one place among them. -/
theorem insertPend_split (x : Pend) (l : List Pend) : ∃ a b, l = a ++ b ∧ insertPend x l = a ++ x :: b := by
  induction l with
  | nil => exact ⟨[], [], rfl, rfl⟩
  | cons y l ih =>
    obtain ⟨a, b, h1, h2⟩ := ih
    simp only [insertPend]
    split
    · exact ⟨[], y :: l, rfl, rfl⟩
    · exact ⟨y :: a, b, by simp [h1], by simp [h2]⟩

theorem mem_insertTimer {x y : Timer} {l : List Timer} : x ∈ insertTimer y l ↔ x = y ∨ x ∈ l := by
  induction l with
  | nil => simp [insertTimer]
  | cons z l ih =>
    simp only [insertTimer]
    split <;> simp [ih, or_left_comm]

theorem OnlyScheduled.refl (s : State) : OnlyScheduled s s :=
  ⟨s.ctx.pend, s.ctx.seqNo, by
    have h : (s.modCtx fun c => { c with pend := s.ctx.pend, seqNo := s.ctx.seqNo }) = s.modCtx fun c => c := by
      unfold State.modCtx State.modDie State.ctx
      rfl
    rw [h, State.modCtx_id]⟩

theorem OnlyScheduled.trans {s t u : State} (h : OnlyScheduled s t) (h' : OnlyScheduled t u) : OnlyScheduled s u := by
  obtain ⟨p, n, rfl⟩ := h
  obtain ⟨q, m, rfl⟩ := h'
  exact ⟨q, m, by simp⟩

theorem State.pendAt_only (s : State) (t p : Nat) (i : Instr) (m : Msg) : OnlyScheduled s (s.pendAt t p i m) :=
  ⟨insertPend ⟨t, p, s.ctx.seqNo, i, m⟩ s.ctx.pend, s.ctx.seqNo + 1, by
    unfold State.pendAt State.modCtx State.modDie State.ctx
    rfl⟩

theorem State.later_only (s : State) (lat : Nat) (r : Result) (p : Nat) : OnlyScheduled s (s.later lat r p) :=
  s.pendAt_only _ _ _ _

theorem State.wsLater_only (s : State) (lat : Nat) (r : BitVec 6) (v : Word) (f : Flags) :
    OnlyScheduled s (s.wsLater lat r v f) := s.later_only _ _ _

theorem State.wpLater_only (s : State) (lat : Nat) (r : BitVec 4) (v : Bool) (f : Flags) :
    OnlyScheduled s (s.wpLater lat r v f) := s.later_only _ _ _

/-- A result that is scheduled lands when it is due, and nothing else changes. -/
theorem State.later_landsAt (s : State) (lat : Nat) (r : Result) (p : Nat) :
    LandsAt s (s.later lat r p) (s.ctx.tl + lat - 1) r := by
  obtain ⟨a, b, h1, h2⟩ :=
    insertPend_split ⟨s.ctx.tl + lat - 1, p, s.ctx.seqNo, .timelineResultLanding r, .none⟩ s.ctx.pend
  refine ⟨⟨s.ctx.tl + lat - 1, p, s.ctx.seqNo, .timelineResultLanding r, .none⟩, a, b, h1, rfl, rfl, rfl, ?_⟩
  have h3 : ∀ f g : Ctx → Ctx, f s.ctx = g s.ctx → s.modCtx f = s.modCtx g := fun f g h => by
    simp only [State.modCtx, State.modDie]
    change s.setDie { s.die with ctx := f s.ctx } = s.setDie { s.die with ctx := g s.ctx }
    rw [h]
  have h4 := h3 (fun c => { c with
      pend := insertPend ⟨s.ctx.tl + lat - 1, p, c.seqNo, .timelineResultLanding r, .none⟩ c.pend, seqNo := c.seqNo + 1 })
    (fun c => { c with
      pend := a ++ ⟨s.ctx.tl + lat - 1, p, s.ctx.seqNo, .timelineResultLanding r, .none⟩ :: b, seqNo := c.seqNo + 1 })
    (by simp only [h2])
  exact h4

/-- What a step in flight adds. -/
theorem State.pendAt_schedules (s : State) (k p : Nat) (i : Instr) : Schedules s (s.pendAt (s.ctx.tl + k) p i) [(k, i)] := by
  obtain ⟨a, b, h1, h2⟩ := insertPend_split ⟨s.ctx.tl + k, p, s.ctx.seqNo, i, .none⟩ s.ctx.pend
  simp only [Schedules, State.pendAt, State.ctx_modCtx, h2]
  rw [h1]
  simp only [List.map_append, List.map_cons, List.map_nil, Pend.what]
  exact List.perm_middle.trans (List.perm_append_singleton _ _).symm

theorem State.later_schedules (s : State) (lat : Nat) (r : Result) (p : Nat) (h : 1 ≤ lat) :
    Schedules s (s.later lat r p) [landing (lat - 1) r] := by
  have e : s.ctx.tl + lat - 1 = s.ctx.tl + (lat - 1) := by omega
  rw [State.later, e]
  exact s.pendAt_schedules _ _ _

theorem Schedules.refl {s t : State} (h : t.ctx.pend = s.ctx.pend) : Schedules s t [] := by simp [Schedules, h]

theorem Schedules.trans {s t u : State} {l l' : List (Nat × Instr)} (h : Schedules s t l) (h' : Schedules t u l')
    (htl : t.ctx.tl = s.ctx.tl) : Schedules s u (l ++ l') := by
  unfold Schedules at *
  rw [htl] at h'
  rw [List.map_append, ← List.append_assoc]
  exact h'.trans (h.append_right _)

/-! ### The frame of a step that only schedules -/

namespace OnlyScheduled

variable {s t : State}

theorem mem (h : OnlyScheduled s t) : t.mem = s.mem := by
  obtain ⟨p, n, rfl⟩ := h
  rfl

theorem cur (h : OnlyScheduled s t) : t.cur = s.cur := by
  obtain ⟨p, n, rfl⟩ := h
  rfl

theorem sameMem (h : OnlyScheduled s t) : SameMem s t := by
  simp [SameMem, State.byteAt, State.resAt, h.mem]

theorem sameRegs (h : OnlyScheduled s t) : SameRegs s t := by
  obtain ⟨p, n, rfl⟩ := h
  simp only [SameRegs, State.ctx_modCtx]
  exact ⟨fun _ => rfl, fun _ => rfl, fun _ => rfl⟩

theorem sameSpecial (h : OnlyScheduled s t) : SameSpecial s t := by
  obtain ⟨p, n, rfl⟩ := h
  simp [SameSpecial]

theorem sameBays (h : OnlyScheduled s t) : SameBays s t := by
  obtain ⟨p, n, rfl⟩ := h
  simp [SameBays]

theorem sameOtherDies (h : OnlyScheduled s t) : SameOtherDies s t := by
  obtain ⟨p, n, rfl⟩ := h
  intro i hi
  exact State.modCtx_dieAt_ne s _ hi

end OnlyScheduled

/-! ### Slots -/

/-- A slot of a bundle that issues takes its effect. -/
theorem slotRun_issues {i : Instr} {s : State} {eff : State → State} (h : s.Issues) :
    slotRun i s eff = .next (eff s) := by
  have h' : s.die.issued = true := h
  rw [slotRun, if_pos h']

theorem aluSlot_issues {i : Instr} {d : BitVec 6} {v : State → Word} {s : State} (h : s.Issues) :
    aluSlot i d v s = .next (s.wsLater 1 d (v s)) := slotRun_issues h

theorem mulSlot_issues {i : Instr} {d : BitVec 6} {v : State → Word} {s : State} (h : s.Issues) :
    mulSlot i d v s = .next (s.wsLater 3 d (v s)) := slotRun_issues h

theorem cmpSlot_issues {i : Instr} {pd pn : BitVec 4} {c : State → Bool} {s : State} (h : s.Issues) :
    cmpSlot i pd pn c s = .next ((s.wpLater 1 pd (c s)).wpLater 1 pn (!c s)) := slotRun_issues h

theorem predSlot_issues {i : Instr} {o : POp} {f : Bool → Bool → Bool} {s : State} (h : s.Issues) :
    predSlot i o f s = .next (s.wpLater 1 o.pd (f (s.ctx.rp o.pa != o.na) (s.ctx.rp o.pb != o.nb))) := slotRun_issues h

theorem fpSlot_issues {i : Instr} {d : BitVec 6} {v : State → Nat × Flags} {s : State} (h : s.Issues) :
    fpSlot i d v s = .next (s.wsLater 4 d (.ofNat 64 (v s).1) (v s).2) := slotRun_issues h

theorem loadSlot_issues {i : Instr} {k : MemKind} {o : MOp} {s : State} (h : s.Issues) :
    loadSlot i k o s =
      .next ((s.toLoadQueue k o.d.toNat (effAddr (s.rs o.a) o.off) (2 ^ o.size.toNat) o.u).pendScalar o.d) :=
  slotRun_issues h

/-- An integer slot gives the register that its meaning computes. -/
theorem GivesScalar.of_alu {i : Instr} {s : State} {d : BitVec 6} {v : State → Word} {P : Word → Prop} (h : s.Issues)
    (hi : exec i s = aluSlot i d v s) (hv : P (v s)) : GivesScalar i s 1 d P :=
  ⟨v s, hv, _, hi.trans (aluSlot_issues h), s.later_landsAt _ _ _⟩

theorem GivesScalar.of_mul {i : Instr} {s : State} {d : BitVec 6} {v : State → Word} {P : Word → Prop} (h : s.Issues)
    (hi : exec i s = mulSlot i d v s) (hv : P (v s)) : GivesScalar i s 3 d P :=
  ⟨v s, hv, _, hi.trans (mulSlot_issues h), s.later_landsAt _ _ _⟩

/-! ### Traps -/

theorem State.raise_of_idle (s : State) (r : TrapRec) (h : s.ctx.pend = []) : s.raise r = s.deliver r := by
  rw [State.raise, if_pos h]

/-- With results in flight a trap waits for them. -/
theorem State.raise_of_busy (s : State) (r : TrapRec) (h : s.ctx.pend ≠ []) :
    (s.raise r).ctx.trap = some r := by
  rw [State.raise, if_neg h]
  simp

/-- The context as a trap handler finds it (R258). -/
theorem State.deliver_handler (s : State) (r : TrapRec) (hd : toDispatcher r.cause = false) (hh : s.ctx.inH = false)
    (hv : s.ctx.tvec ≠ 0) :
    s.deliver r = s.modCtx fun c => { c with
      trec := recWords r s.ctx.depth s.gtc, tepc := .ofNat 64 (locWord r.rVa r.rIdx), ppl := .ofNat 2 c.priv, inH := true,
      exw := r.exw, priv := 1, hoist := [], safecnt := 0, safeB := true, noDbrk := false, trap := none, wait := [], exiting := false,
      hold := 0, owed := c.hold, owedOf := c.holdOf, target := some { va := c.tvec.toNat, idx := 0 } } := by
  have hv' : (s.ctx.tvec == 0) = false := by simpa using hv
  simp only [State.deliver, hd, hh, hv', Bool.false_and, Bool.or_self, Bool.false_eq_true, if_false]

/-- A return from a trap takes the saved privilege and leaves the handler (R260). -/
theorem State.tret_ctx (s : State) (skip nodbrk : Bool) :
    (s.tret skip nodbrk).ctx.priv = s.ctx.ppl.toNat ∧ (s.tret skip nodbrk).ctx.inH = false ∧
      (s.tret skip nodbrk).ctx.exw = false := by
  simp [State.tret]

/-! ### Flags -/

theorem State.setFlags_ctx (s : State) (f : Flags) :
    (s.setFlags f).ctx = { s.ctx with fpstat := orFlags s.ctx.fpstat f } := by
  simp [State.setFlags]

@[simp] theorem State.setFlags_mem (s : State) (f : Flags) : (s.setFlags f).mem = s.mem := rfl

end Sys2Proof.Machine
end

