-- ==== Sys2Proof/Laws/Exec.lean ====
section
/-!
SUPPORT. `exec` of each constructor is its meaning: later proofs do not unfold the dispatch.
-/

namespace Sys2Proof.Machine

@[simp] theorem exec_segmentExpansionDone (va : Nat) (s : State) :
    exec (.segmentExpansionDone va) s = execSegmentExpansionDone va s := rfl
@[simp] theorem exec_timelineResultLanding (r : Result) (s : State) :
    exec (.timelineResultLanding r) s = execTimelineResultLanding r s := rfl
@[simp] theorem exec_streamEntryArrival (bay : BayIx) (q : Nat) (e : Entry) (s : State) :
    exec (.streamEntryArrival bay q e) s = execStreamEntryArrival bay q e s := rfl
@[simp] theorem exec_pourBankWrite (p : Pour) (s : State) :
    exec (.pourBankWrite p) s = execPourBankWrite p s := rfl
@[simp] theorem exec_mxStepLanding (m : MxStep) (s : State) :
    exec (.mxStepLanding m) s = execMxStepLanding m s := rfl
@[simp] theorem exec_mxModePartialClear (bay : BayIx) (fa fb : Nat) (s : State) :
    exec (.mxModePartialClear bay fa fb) s = execMxModePartialClear bay fa fb s := rfl
@[simp] theorem exec_mxDrainPresent (bay : BayIx) (dst : Option Resv) (lanes : List Lane) (s : State) :
    exec (.mxDrainPresent bay dst lanes) s = execMxDrainPresent bay dst lanes s := rfl
@[simp] theorem exec_mxSnapTargetWrite (bay : BayIx) (toB : Bool) (cells : SMap Word32) (step : BitVec 32) (s : State) :
    exec (.mxSnapTargetWrite bay toB cells step) s = execMxSnapTargetWrite bay toB cells step s := rfl
@[simp] theorem exec_xferDelivery (bay : BayIx) (q : Nat) (e : Entry) (s : State) :
    exec (.xferDelivery bay q e) s = execXferDelivery bay q e s := rfl
@[simp] theorem exec_routingCounterUpdate (u : CtrUpdate) (s : State) :
    exec (.routingCounterUpdate u) s = execRoutingCounterUpdate u s := rfl
@[simp] theorem exec_combiningEntryClose (id : Nat) (s : State) :
    exec (.combiningEntryClose id) s = execCombiningEntryClose id s := rfl
@[simp] theorem exec_ringLock (port ring : Nat) (s : State) :
    exec (.ringLock port ring) s = execRingLock port ring s := rfl
@[simp] theorem exec_rotaSlotStart (n : Nat) (s : State) :
    exec (.rotaSlotStart n) s = execRotaSlotStart n s := rfl
@[simp] theorem exec_laserRemoval (iod : Fin 2) (s : State) :
    exec (.laserRemoval iod) s = execLaserRemoval iod s := rfl
@[simp] theorem exec_laserInsertion (iod : Fin 2) (s : State) :
    exec (.laserInsertion iod) s = execLaserInsertion iod s := rfl
@[simp] theorem exec_portGateWrite (port : Nat) (g : Bool) (s : State) :
    exec (.portGateWrite port g) s = execPortGateWrite port g s := rfl
@[simp] theorem exec_portGated (port : Nat) (s : State) :
    exec (.portGated port) s = execPortGated port s := rfl
@[simp] theorem exec_fabctlModeWrite (v : Word) (s : State) :
    exec (.fabctlModeWrite v) s = execFabctlModeWrite v s := rfl
@[simp] theorem exec_loopLevelWrite (csr : BitVec 12) (v : Word) (s : State) :
    exec (.loopLevelWrite csr v) s = execLoopLevelWrite csr v s := rfl
@[simp] theorem exec_registerWrite (csr : BitVec 12) (how : BitVec 2) (v : Word) (s : State) :
    exec (.registerWrite csr how v) s = execRegisterWrite csr how v s := rfl
@[simp] theorem exec_spanSlot (r : Word) (s : State) :
    exec (.spanSlot r) s = execSpanSlot r s := rfl
@[simp] theorem exec_spanEntryArrival (bay : BayIx) (e : Entry) (s : State) :
    exec (.spanEntryArrival bay e) s = execSpanEntryArrival bay e s := rfl
@[simp] theorem exec_spanSlip (bay : BayIx) (q slot : Nat) (s : State) :
    exec (.spanSlip bay q slot) s = execSpanSlip bay q slot s := rfl
@[simp] theorem exec_act (b : BankId) (rowcol : BitVec 18) (s : State) :
    exec (.act b rowcol) s = execAct b rowcol s := rfl
@[simp] theorem exec_rd (b : BankId) (col : BitVec 5) (caddr : BitVec 32) (s : State) :
    exec (.rd b col caddr) s = execRd b col caddr s := rfl
@[simp] theorem exec_wr (b : BankId) (col : BitVec 5) (caddr : BitVec 32) (s : State) :
    exec (.wr b col caddr) s = execWr b col caddr s := rfl
@[simp] theorem exec_pre (b : BankId) (s : State) :
    exec (.pre b) s = execPre b s := rfl
@[simp] theorem exec_prea (pc : BitVec 6) (s : State) :
    exec (.prea pc) s = execPrea pc s := rfl
@[simp] theorem exec_refr (b : BankId) (rowcol : BitVec 18) (s : State) :
    exec (.refr b rowcol) s = execRefr b rowcol s := rfl
@[simp] theorem exec_nmcFade (n : NmcOp) (s : State) :
    exec (.nmcFade n) s = execNmcFade n s := rfl
@[simp] theorem exec_nmcAxpy (n : NmcOp) (s : State) :
    exec (.nmcAxpy n) s = execNmcAxpy n s := rfl
@[simp] theorem exec_nmcAdd (n : NmcOp) (s : State) :
    exec (.nmcAdd n) s = execNmcAdd n s := rfl
@[simp] theorem exec_nmcScale (n : NmcOp) (s : State) :
    exec (.nmcScale n) s = execNmcScale n s := rfl
@[simp] theorem exec_nmcFill (n : NmcOp) (s : State) :
    exec (.nmcFill n) s = execNmcFill n s := rfl
@[simp] theorem exec_scrubRead (bay : BayIx) (s : State) :
    exec (.scrubRead bay) s = execScrubRead bay s := rfl
@[simp] theorem exec_laneReplacementDone (port : Nat) (s : State) :
    exec (.laneReplacementDone port) s = execLaneReplacementDone port s := rfl
@[simp] theorem exec_islandFailure (die : DieIx) (s : State) :
    exec (.islandFailure die) s = execIslandFailure die s := rfl
@[simp] theorem exec_hostDoorbellWrite (q : BitVec 16) (tail : BitVec 16) (s : State) :
    exec (.hostDoorbellWrite q tail) s = execHostDoorbellWrite q tail s := rfl
@[simp] theorem exec_sliceEnd (launch : Nat) (s : State) :
    exec (.sliceEnd launch) s = execSliceEnd launch s := rfl
@[simp] theorem exec_contextSaveComplete (launch : Nat) (s : State) :
    exec (.contextSaveComplete launch) s = execContextSaveComplete launch s := rfl
@[simp] theorem exec_contextRestore (launch : Nat) (s : State) :
    exec (.contextRestore launch) s = execContextRestore launch s := rfl
@[simp] theorem exec_powerOn (fails : Option Nat) (s : State) :
    exec (.powerOn fails) s = execPowerOn fails s := rfl
@[simp] theorem exec_qset (q : BitVec 16) (word : BitVec 3) (value mask : Word) (s : State) :
    exec (.qset q word value mask) s = execQset q word value mask s := rfl
@[simp] theorem exec_ctxset (ctx : BitVec 16) (addr : Word) (s : State) :
    exec (.ctxset ctx addr) s = execCtxset ctx addr s := rfl
@[simp] theorem exec_region (n : BitVec 16) (die : BitVec 8) (addr : Word) (count : Word) (s : State) :
    exec (.region n die addr count) s = execRegion n die addr count s := rfl
@[simp] theorem exec_tier (sel value : Word) (s : State) :
    exec (.tier sel value) s = execTier sel value s := rfl
@[simp] theorem exec_tierMigration (ctx leaf dframe : Word) (dtier : Bool) (s : State) :
    exec (.tierMigration ctx leaf dframe dtier) s = execTierMigration ctx leaf dframe dtier s := rfl
@[simp] theorem exec_recover (q : BitVec 16) (addr : Word) (s : State) :
    exec (.recover q addr) s = execRecover q addr s := rfl
@[simp] theorem exec_faults (addr max : Word) (s : State) :
    exec (.faults addr max) s = execFaults addr max s := rfl
@[simp] theorem exec_resync (addr : Word) (s : State) :
    exec (.resync addr) s = execResync addr s := rfl
@[simp] theorem exec_retireDie (die : BitVec 3) (s : State) :
    exec (.retireDie die) s = execRetireDie die s := rfl
@[simp] theorem exec_retireBank (die bay : BitVec 3) (bank : BitVec 7) (s : State) :
    exec (.retireBank die bay bank) s = execRetireBank die bay bank s := rfl
@[simp] theorem exec_fwload (addr len : Word) (s : State) :
    exec (.fwload addr len) s = execFwload addr len s := rfl
@[simp] theorem exec_attest (n0 n1 n2 n3 addr : Word) (s : State) :
    exec (.attest n0 n1 n2 n3 addr) s = execAttest n0 n1 n2 n3 addr s := rfl
@[simp] theorem exec_domainJoin (pkg : BitVec 5) (s : State) :
    exec (.domainJoin pkg) s = execDomainJoin pkg s := rfl
@[simp] theorem exec_domainLeave (pkg : BitVec 5) (s : State) :
    exec (.domainLeave pkg) s = execDomainLeave pkg s := rfl
@[simp] theorem exec_pcap (watts : Word) (s : State) :
    exec (.pcap watts) s = execPcap watts s := rfl
@[simp] theorem exec_br (tgt : BitVec 8) (s : State) :
    exec (.br tgt) s = execBr tgt s := rfl
@[simp] theorem exec_brv (tgt bset : BitVec 8) (m e : BitVec 3) (neg : Bool) (s : State) :
    exec (.brv tgt bset m e neg) s = execBrv tgt bset m e neg s := rfl
@[simp] theorem exec_jseg (a : BitVec 6) (tgt : BitVec 8) (s : State) :
    exec (.jseg a tgt) s = execJseg a tgt s := rfl
@[simp] theorem exec_loop (lvl : BitVec 3) (a : BitVec 6) (end_ : BitVec 8) (hops : BitVec 2) (maxt : BitVec 21) (s : State) :
    exec (.loop lvl a end_ hops maxt) s = execLoop lvl a end_ hops maxt s := rfl
@[simp] theorem exec_lbrk (lvl : BitVec 3) (s : State) :
    exec (.lbrk lvl) s = execLbrk lvl s := rfl
@[simp] theorem exec_lcont (lvl : BitVec 3) (s : State) :
    exec (.lcont lvl) s = execLcont lvl s := rfl
@[simp] theorem exec_exit (code : BitVec 16) (s : State) :
    exec (.exit code) s = execExit code s := rfl
@[simp] theorem exec_tret (skip nodbrk : Bool) (s : State) :
    exec (.tret skip nodbrk) s = execTret skip nodbrk s := rfl
@[simp] theorem exec_add (d a b : BitVec 6) (s : State) :
    exec (.add d a b) s = execAdd d a b s := rfl
@[simp] theorem exec_sub (d a b : BitVec 6) (s : State) :
    exec (.sub d a b) s = execSub d a b s := rfl
@[simp] theorem exec_and (d a b : BitVec 6) (s : State) :
    exec (.and d a b) s = execAnd d a b s := rfl
@[simp] theorem exec_or (d a b : BitVec 6) (s : State) :
    exec (.or d a b) s = execOr d a b s := rfl
@[simp] theorem exec_xor (d a b : BitVec 6) (s : State) :
    exec (.xor d a b) s = execXor d a b s := rfl
@[simp] theorem exec_andn (d a b : BitVec 6) (s : State) :
    exec (.andn d a b) s = execAndn d a b s := rfl
@[simp] theorem exec_shl (d a b : BitVec 6) (s : State) :
    exec (.shl d a b) s = execShl d a b s := rfl
@[simp] theorem exec_shr (d a b : BitVec 6) (s : State) :
    exec (.shr d a b) s = execShr d a b s := rfl
@[simp] theorem exec_sar (d a b : BitVec 6) (s : State) :
    exec (.sar d a b) s = execSar d a b s := rfl
@[simp] theorem exec_min (d a b : BitVec 6) (s : State) :
    exec (.min d a b) s = execMin d a b s := rfl
@[simp] theorem exec_max (d a b : BitVec 6) (s : State) :
    exec (.max d a b) s = execMax d a b s := rfl
@[simp] theorem exec_minu (d a b : BitVec 6) (s : State) :
    exec (.minu d a b) s = execMinu d a b s := rfl
@[simp] theorem exec_maxu (d a b : BitVec 6) (s : State) :
    exec (.maxu d a b) s = execMaxu d a b s := rfl
@[simp] theorem exec_clz (d a : BitVec 6) (s : State) :
    exec (.clz d a) s = execClz d a s := rfl
@[simp] theorem exec_popc (d a : BitVec 6) (s : State) :
    exec (.popc d a) s = execPopc d a s := rfl
@[simp] theorem exec_sel (d a b : BitVec 6) (p : BitVec 4) (s : State) :
    exec (.sel d a b p) s = execSel d a b p s := rfl
@[simp] theorem exec_addi (d a : BitVec 6) (imm : BitVec 28) (s : State) :
    exec (.addi d a imm) s = execAddi d a imm s := rfl
@[simp] theorem exec_andi (d a : BitVec 6) (imm : BitVec 28) (s : State) :
    exec (.andi d a imm) s = execAndi d a imm s := rfl
@[simp] theorem exec_ori (d a : BitVec 6) (imm : BitVec 28) (s : State) :
    exec (.ori d a imm) s = execOri d a imm s := rfl
@[simp] theorem exec_xori (d a : BitVec 6) (imm : BitVec 28) (s : State) :
    exec (.xori d a imm) s = execXori d a imm s := rfl
@[simp] theorem exec_shli (d a : BitVec 6) (imm : BitVec 6) (s : State) :
    exec (.shli d a imm) s = execShli d a imm s := rfl
@[simp] theorem exec_shri (d a : BitVec 6) (imm : BitVec 6) (s : State) :
    exec (.shri d a imm) s = execShri d a imm s := rfl
@[simp] theorem exec_sari (d a : BitVec 6) (imm : BitVec 6) (s : State) :
    exec (.sari d a imm) s = execSari d a imm s := rfl
@[simp] theorem exec_movi (d : BitVec 6) (imm : BitVec 28) (s : State) :
    exec (.movi d imm) s = execMovi d imm s := rfl
@[simp] theorem exec_movhi (d a : BitVec 6) (q : BitVec 2) (imm : BitVec 16) (s : State) :
    exec (.movhi d a q imm) s = execMovhi d a q imm s := rfl
@[simp] theorem exec_mul (d a b : BitVec 6) (s : State) :
    exec (.mul d a b) s = execMul d a b s := rfl
@[simp] theorem exec_mulh (d a b : BitVec 6) (s : State) :
    exec (.mulh d a b) s = execMulh d a b s := rfl
@[simp] theorem exec_mulhu (d a b : BitVec 6) (s : State) :
    exec (.mulhu d a b) s = execMulhu d a b s := rfl
@[simp] theorem exec_cmpEq (pd : BitVec 4) (a b : BitVec 6) (pn : BitVec 4) (s : State) :
    exec (.cmpEq pd a b pn) s = execCmpEq pd a b pn s := rfl
@[simp] theorem exec_cmpNe (pd : BitVec 4) (a b : BitVec 6) (pn : BitVec 4) (s : State) :
    exec (.cmpNe pd a b pn) s = execCmpNe pd a b pn s := rfl
@[simp] theorem exec_cmpLt (pd : BitVec 4) (a b : BitVec 6) (pn : BitVec 4) (s : State) :
    exec (.cmpLt pd a b pn) s = execCmpLt pd a b pn s := rfl
@[simp] theorem exec_cmpLtu (pd : BitVec 4) (a b : BitVec 6) (pn : BitVec 4) (s : State) :
    exec (.cmpLtu pd a b pn) s = execCmpLtu pd a b pn s := rfl
@[simp] theorem exec_cmpLe (pd : BitVec 4) (a b : BitVec 6) (pn : BitVec 4) (s : State) :
    exec (.cmpLe pd a b pn) s = execCmpLe pd a b pn s := rfl
@[simp] theorem exec_cmpLeu (pd : BitVec 4) (a b : BitVec 6) (pn : BitVec 4) (s : State) :
    exec (.cmpLeu pd a b pn) s = execCmpLeu pd a b pn s := rfl
@[simp] theorem exec_cmpiEq (pd : BitVec 4) (a : BitVec 6) (pn : BitVec 4) (imm : BitVec 24) (s : State) :
    exec (.cmpiEq pd a pn imm) s = execCmpiEq pd a pn imm s := rfl
@[simp] theorem exec_cmpiLt (pd : BitVec 4) (a : BitVec 6) (pn : BitVec 4) (imm : BitVec 24) (s : State) :
    exec (.cmpiLt pd a pn imm) s = execCmpiLt pd a pn imm s := rfl
@[simp] theorem exec_pand (o : POp) (s : State) :
    exec (.pand o) s = execPand o s := rfl
@[simp] theorem exec_por (o : POp) (s : State) :
    exec (.por o) s = execPor o s := rfl
@[simp] theorem exec_pxor (o : POp) (s : State) :
    exec (.pxor o) s = execPxor o s := rfl
@[simp] theorem exec_pandn (o : POp) (s : State) :
    exec (.pandn o) s = execPandn o s := rfl
@[simp] theorem exec_pmovsToScalar (d : BitVec 6) (s : State) :
    exec (.pmovsToScalar d) s = execPmovsToScalar d s := rfl
@[simp] theorem exec_pmovsFromScalar (a : BitVec 6) (s : State) :
    exec (.pmovsFromScalar a) s = execPmovsFromScalar a s := rfl
@[simp] theorem exec_fadd (o : FOp) (s : State) :
    exec (.fadd o) s = execFadd o s := rfl
@[simp] theorem exec_fsub (o : FOp) (s : State) :
    exec (.fsub o) s = execFsub o s := rfl
@[simp] theorem exec_fmul (o : FOp) (s : State) :
    exec (.fmul o) s = execFmul o s := rfl
@[simp] theorem exec_ffma (o : FOp) (s : State) :
    exec (.ffma o) s = execFfma o s := rfl
@[simp] theorem exec_fmin (o : FOp) (s : State) :
    exec (.fmin o) s = execFmin o s := rfl
@[simp] theorem exec_fmax (o : FOp) (s : State) :
    exec (.fmax o) s = execFmax o s := rfl
@[simp] theorem exec_fcmp (o : FOp) (s : State) :
    exec (.fcmp o) s = execFcmp o s := rfl
@[simp] theorem exec_fcvt (o : FOp) (s : State) :
    exec (.fcvt o) s = execFcvt o s := rfl
@[simp] theorem exec_ld (o : MOp) (s : State) :
    exec (.ld o) s = execLd o s := rfl
@[simp] theorem exec_st (o : MOp) (s : State) :
    exec (.st o) s = execSt o s := rfl
@[simp] theorem exec_lds (o : MOp) (s : State) :
    exec (.lds o) s = execLds o s := rfl
@[simp] theorem exec_chk (o : MOp) (s : State) :
    exec (.chk o) s = execChk o s := rfl
@[simp] theorem exec_signal (v a : BitVec 6) (off : BitVec 24) (s : State) :
    exec (.signal v a off) s = execSignal v a off s := rfl
@[simp] theorem exec_hld (h : BitVec 4) (a : BitVec 6) (off : BitVec 24) (s : State) :
    exec (.hld h a off) s = execHld h a off s := rfl
@[simp] theorem exec_hst (h : BitVec 4) (a : BitVec 6) (off : BitVec 24) (s : State) :
    exec (.hst h a off) s = execHst h a off s := rfl
@[simp] theorem exec_hset (hd ha : BitVec 4) (b : BitVec 6) (field : BitVec 5) (s : State) :
    exec (.hset hd ha b field) s = execHset hd ha b field s := rfl
@[simp] theorem exec_hget (d : BitVec 6) (ha : BitVec 4) (field : BitVec 5) (s : State) :
    exec (.hget d ha field) s = execHget d ha field s := rfl
@[simp] theorem exec_hmov (hd ha : BitVec 4) (s : State) :
    exec (.hmov hd ha) s = execHmov hd ha s := rfl
@[simp] theorem exec_vadd (bays : Bays) (o : VOp) (s : State) :
    exec (.vadd bays o) s = execVadd bays o s := rfl
@[simp] theorem exec_vsub (bays : Bays) (o : VOp) (s : State) :
    exec (.vsub bays o) s = execVsub bays o s := rfl
@[simp] theorem exec_vmin (bays : Bays) (o : VOp) (s : State) :
    exec (.vmin bays o) s = execVmin bays o s := rfl
@[simp] theorem exec_vmax (bays : Bays) (o : VOp) (s : State) :
    exec (.vmax bays o) s = execVmax bays o s := rfl
@[simp] theorem exec_vabs (bays : Bays) (o : VOp) (s : State) :
    exec (.vabs bays o) s = execVabs bays o s := rfl
@[simp] theorem exec_vneg (bays : Bays) (o : VOp) (s : State) :
    exec (.vneg bays o) s = execVneg bays o s := rfl
@[simp] theorem exec_vand (bays : Bays) (o : VOp) (s : State) :
    exec (.vand bays o) s = execVand bays o s := rfl
@[simp] theorem exec_vor (bays : Bays) (o : VOp) (s : State) :
    exec (.vor bays o) s = execVor bays o s := rfl
@[simp] theorem exec_vxor (bays : Bays) (o : VOp) (s : State) :
    exec (.vxor bays o) s = execVxor bays o s := rfl
@[simp] theorem exec_vandn (bays : Bays) (o : VOp) (s : State) :
    exec (.vandn bays o) s = execVandn bays o s := rfl
@[simp] theorem exec_vshl (bays : Bays) (o : VOp) (s : State) :
    exec (.vshl bays o) s = execVshl bays o s := rfl
@[simp] theorem exec_vshr (bays : Bays) (o : VOp) (s : State) :
    exec (.vshr bays o) s = execVshr bays o s := rfl
@[simp] theorem exec_vsar (bays : Bays) (o : VOp) (s : State) :
    exec (.vsar bays o) s = execVsar bays o s := rfl
@[simp] theorem exec_vmov (bays : Bays) (o : VOp) (s : State) :
    exec (.vmov bays o) s = execVmov bays o s := rfl
@[simp] theorem exec_vsel (bays : Bays) (o : VOp) (s : State) :
    exec (.vsel bays o) s = execVsel bays o s := rfl
@[simp] theorem exec_vcmpEq (bays : Bays) (o : VOp) (s : State) :
    exec (.vcmpEq bays o) s = execVcmpEq bays o s := rfl
@[simp] theorem exec_vcmpNe (bays : Bays) (o : VOp) (s : State) :
    exec (.vcmpNe bays o) s = execVcmpNe bays o s := rfl
@[simp] theorem exec_vcmpLt (bays : Bays) (o : VOp) (s : State) :
    exec (.vcmpLt bays o) s = execVcmpLt bays o s := rfl
@[simp] theorem exec_vcmpLe (bays : Bays) (o : VOp) (s : State) :
    exec (.vcmpLe bays o) s = execVcmpLe bays o s := rfl
@[simp] theorem exec_vcmpUn (bays : Bays) (o : VOp) (s : State) :
    exec (.vcmpUn bays o) s = execVcmpUn bays o s := rfl
@[simp] theorem exec_vmand (bays : Bays) (d a b : BitVec 3) (s : State) :
    exec (.vmand bays d a b) s = execVmand bays d a b s := rfl
@[simp] theorem exec_vmor (bays : Bays) (d a b : BitVec 3) (s : State) :
    exec (.vmor bays d a b) s = execVmor bays d a b s := rfl
@[simp] theorem exec_vmxor (bays : Bays) (d a b : BitVec 3) (s : State) :
    exec (.vmxor bays d a b) s = execVmxor bays d a b s := rfl
@[simp] theorem exec_vmandn (bays : Bays) (d a b : BitVec 3) (s : State) :
    exec (.vmandn bays d a b) s = execVmandn bays d a b s := rfl
@[simp] theorem exec_vmset (bays : Bays) (d : BitVec 3) (n : BitVec 8) (s : State) :
    exec (.vmset bays d n) s = execVmset bays d n s := rfl
@[simp] theorem exec_vmul (bays : Bays) (o : VOp) (s : State) :
    exec (.vmul bays o) s = execVmul bays o s := rfl
@[simp] theorem exec_vfma (bays : Bays) (o : VOp) (s : State) :
    exec (.vfma bays o) s = execVfma bays o s := rfl
@[simp] theorem exec_vfms (bays : Bays) (o : VOp) (s : State) :
    exec (.vfms bays o) s = execVfms bays o s := rfl
@[simp] theorem exec_vfnma (bays : Bays) (o : VOp) (s : State) :
    exec (.vfnma bays o) s = execVfnma bays o s := rfl
@[simp] theorem exec_vexp2 (bays : Bays) (o : VOp) (s : State) :
    exec (.vexp2 bays o) s = execVexp2 bays o s := rfl
@[simp] theorem exec_vlog2 (bays : Bays) (o : VOp) (s : State) :
    exec (.vlog2 bays o) s = execVlog2 bays o s := rfl
@[simp] theorem exec_vrcp (bays : Bays) (o : VOp) (s : State) :
    exec (.vrcp bays o) s = execVrcp bays o s := rfl
@[simp] theorem exec_vrsqrt (bays : Bays) (o : VOp) (s : State) :
    exec (.vrsqrt bays o) s = execVrsqrt bays o s := rfl
@[simp] theorem exec_vsqrt (bays : Bays) (o : VOp) (s : State) :
    exec (.vsqrt bays o) s = execVsqrt bays o s := rfl
@[simp] theorem exec_vtanh (bays : Bays) (o : VOp) (s : State) :
    exec (.vtanh bays o) s = execVtanh bays o s := rfl
@[simp] theorem exec_vsigm (bays : Bays) (o : VOp) (s : State) :
    exec (.vsigm bays o) s = execVsigm bays o s := rfl
@[simp] theorem exec_vcvt (bays : Bays) (o : CvOp) (s : State) :
    exec (.vcvt bays o) s = execVcvt bays o s := rfl
@[simp] theorem exec_vrint (bays : Bays) (o : CvOp) (s : State) :
    exec (.vrint bays o) s = execVrint bays o s := rfl
@[simp] theorem exec_vpack (bays : Bays) (o : CvOp) (s : State) :
    exec (.vpack bays o) s = execVpack bays o s := rfl
@[simp] theorem exec_vunpk (bays : Bays) (o : CvOp) (s : State) :
    exec (.vunpk bays o) s = execVunpk bays o s := rfl
@[simp] theorem exec_scanPsum (bays : Bays) (o : ScOp) (s : State) :
    exec (.scanPsum bays o) s = execScanPsum bays o s := rfl
@[simp] theorem exec_scanPmax (bays : Bays) (o : ScOp) (s : State) :
    exec (.scanPmax bays o) s = execScanPmax bays o s := rfl
@[simp] theorem exec_scanPmin (bays : Bays) (o : ScOp) (s : State) :
    exec (.scanPmin bays o) s = execScanPmin bays o s := rfl
@[simp] theorem exec_scanSpsum (bays : Bays) (o : ScOp) (s : State) :
    exec (.scanSpsum bays o) s = execScanSpsum bays o s := rfl
@[simp] theorem exec_scanRsum (bays : Bays) (o : ScOp) (s : State) :
    exec (.scanRsum bays o) s = execScanRsum bays o s := rfl
@[simp] theorem exec_scanRmax (bays : Bays) (o : ScOp) (s : State) :
    exec (.scanRmax bays o) s = execScanRmax bays o s := rfl
@[simp] theorem exec_scanRmin (bays : Bays) (o : ScOp) (s : State) :
    exec (.scanRmin bays o) s = execScanRmin bays o s := rfl
@[simp] theorem exec_scanAmax (bays : Bays) (o : ScOp) (s : State) :
    exec (.scanAmax bays o) s = execScanAmax bays o s := rfl
@[simp] theorem exec_scanCmpct (bays : Bays) (o : ScOp) (s : State) :
    exec (.scanCmpct bays o) s = execScanCmpct bays o s := rfl
@[simp] theorem exec_scanArgmax (bays : Bays) (o : ScOp) (s : State) :
    exec (.scanArgmax bays o) s = execScanArgmax bays o s := rfl
@[simp] theorem exec_scanTopk (bays : Bays) (o : ScOp) (s : State) :
    exec (.scanTopk bays o) s = execScanTopk bays o s := rfl
@[simp] theorem exec_scanRank (bays : Bays) (o : ScOp) (s : State) :
    exec (.scanRank bays o) s = execScanRank bays o s := rfl
@[simp] theorem exec_mxPush (bays : Bays) (la lb : Bool) (qa qb : BitVec 5) (s : State) :
    exec (.mxPush bays la lb qa qb) s = execMxPush bays la lb qa qb s := rfl
@[simp] theorem exec_mxAcc (bays : Bays) (sa sb : Bool) (qa qb : BitVec 5) (tsel : BitVec 2) (s : State) :
    exec (.mxAcc bays sa sb qa qb tsel) s = execMxAcc bays sa sb qa qb tsel s := rfl
@[simp] theorem exec_mxShift (bays : Bays) (sh : BitVec 8) (sb : Bool) (qb : BitVec 5) (tsel : BitVec 2) (s : State) :
    exec (.mxShift bays sh sb qb tsel) s = execMxShift bays sh sb qb tsel s := rfl
@[simp] theorem exec_mxHold (bays : Bays) (n : BitVec 6) (s : State) :
    exec (.mxHold bays n) s = execMxHold bays n s := rfl
@[simp] theorem exec_mxDrain (bays : Bays) (qd : BitVec 5) (bank clr auto : Bool) (sr : BitVec 6) (row : BitVec 8) (s : State) :
    exec (.mxDrain bays qd bank clr auto sr row) s = execMxDrain bays qd bank clr auto sr row s := rfl
@[simp] theorem exec_mxZero (bays : Bays) (za zb zp : Bool) (s : State) :
    exec (.mxZero bays za zb zp) s = execMxZero bays za zb zp s := rfl
@[simp] theorem exec_mxMode (bays : Bays) (fa fb : BitVec 4) (s : State) :
    exec (.mxMode bays fa fb) s = execMxMode bays fa fb s := rfl
@[simp] theorem exec_mxScale (bays : Bays) (qsa qsb : BitVec 5) (s : State) :
    exec (.mxScale bays qsa qsb) s = execMxScale bays qsa qsb s := rfl
@[simp] theorem exec_mxSnap (bays : Bays) (fromB : Bool) (s : State) :
    exec (.mxSnap bays fromB) s = execMxSnap bays fromB s := rfl
@[simp] theorem exec_mxSwap (bays : Bays) (s : State) :
    exec (.mxSwap bays) s = execMxSwap bays s := rfl
@[simp] theorem exec_qBind (bays : Bays) (q : BitVec 5) (port : BitVec 4) (h : BitVec 4) (a : BitVec 6) (depth : BitVec 3) (wrap feed : Bool) (s : State) :
    exec (.qBind bays q port h a depth wrap feed) s = execQBind bays q port h a depth wrap feed s := rfl
@[simp] theorem exec_qUnbind (bays : Bays) (q : BitVec 5) (s : State) :
    exec (.qUnbind bays q) s = execQUnbind bays q s := rfl
@[simp] theorem exec_qSkip (bays : Bays) (q : BitVec 5) (n : BitVec 8) (s : State) :
    exec (.qSkip bays q n) s = execQSkip bays q n s := rfl
@[simp] theorem exec_qRmask (bays : Bays) (q : BitVec 5) (d : BitVec 3) (s : State) :
    exec (.qRmask bays q d) s = execQRmask bays q d s := rfl
@[simp] theorem exec_qXfer (bays : Bays) (qd qs : BitVec 5) (rot : BitVec 3) (s : State) :
    exec (.qXfer bays qd qs rot) s = execQXfer bays qd qs rot s := rfl
@[simp] theorem exec_qXferLand (bays : Bays) (qs : BitVec 5) (s : State) :
    exec (.qXferLand bays qs) s = execQXferLand bays qs s := rfl
@[simp] theorem exec_qDrain (bays : Bays) (q : BitVec 5) (s : State) :
    exec (.qDrain bays q) s = execQDrain bays q s := rfl
@[simp] theorem exec_stnLd (bays : Bays) (dir : Bool) (slot : BitVec 7) (a : BitVec 6) (s : State) :
    exec (.stnLd bays dir slot a) s = execStnLd bays dir slot a s := rfl
@[simp] theorem exec_stnCut (bay : BitVec 3) (dir : Bool) (slot : BitVec 7) (a c : BitVec 6) (pass : BitVec 4) (strict : Bool) (s : State) :
    exec (.stnCut bay dir slot a c pass strict) s = execStnCut bay dir slot a c pass strict s := rfl
@[simp] theorem exec_stnWait (bay : BitVec 3) (d : BitVec 6) (s : State) :
    exec (.stnWait bay d) s = execStnWait bay d s := rfl
@[simp] theorem exec_stnPasses (bay : BitVec 3) (d : BitVec 6) (s : State) :
    exec (.stnPasses bay d) s = execStnPasses bay d s := rfl
@[simp] theorem exec_probe (bay : BitVec 3) (pd : BitVec 4) (d a v : BitVec 6) (s : State) :
    exec (.probe bay pd d a v) s = execProbe bay pd d a v s := rfl
@[simp] theorem exec_probeInv (bay : BitVec 3) (a : BitVec 6) (s : State) :
    exec (.probeInv bay a) s = execProbeInv bay a s := rfl
@[simp] theorem exec_probeTag (bay : BitVec 3) (a : BitVec 6) (s : State) :
    exec (.probeTag bay a) s = execProbeTag bay a s := rfl
@[simp] theorem exec_copy (bay : BitVec 3) (b a n c v : BitVec 6) (s : State) :
    exec (.copy bay b a n c v) s = execCopy bay b a n c v s := rfl
@[simp] theorem exec_copySt (bay : BitVec 3) (b a n c v : BitVec 6) (s : State) :
    exec (.copySt bay b a n c v) s = execCopySt bay b a n c v s := rfl
@[simp] theorem exec_pageReq (bay : BitVec 3) (h : BitVec 4) (a c v : BitVec 6) (s : State) :
    exec (.pageReq bay h a c v) s = execPageReq bay h a c v s := rfl
@[simp] theorem exec_sumpAdd (bays : Bays) (qi qv : BitVec 5) (fmt : BitVec 4) (s : State) :
    exec (.sumpAdd bays qi qv fmt) s = execSumpAdd bays qi qv fmt s := rfl
@[simp] theorem exec_sumpMax (bays : Bays) (qi qv : BitVec 5) (fmt : BitVec 4) (s : State) :
    exec (.sumpMax bays qi qv fmt) s = execSumpMax bays qi qv fmt s := rfl
@[simp] theorem exec_sumpMin (bays : Bays) (qi qv : BitVec 5) (fmt : BitVec 4) (s : State) :
    exec (.sumpMin bays qi qv fmt) s = execSumpMin bays qi qv fmt s := rfl
@[simp] theorem exec_sumpCnt (bays : Bays) (qi : BitVec 5) (s : State) :
    exec (.sumpCnt bays qi) s = execSumpCnt bays qi s := rfl
@[simp] theorem exec_sumpSnap (a c v : BitVec 6) (s : State) :
    exec (.sumpSnap a c v) s = execSumpSnap a c v s := rfl
@[simp] theorem exec_sumpRd (q : BitVec 5) (row : BitVec 4) (s : State) :
    exec (.sumpRd q row) s = execSumpRd q row s := rfl
@[simp] theorem exec_pumpLd (a b : BitVec 6) (s : State) :
    exec (.pumpLd a b) s = execPumpLd a b s := rfl
@[simp] theorem exec_pumpGo (a : BitVec 6) (s : State) :
    exec (.pumpGo a) s = execPumpGo a s := rfl
@[simp] theorem exec_pumpIdle (a b : BitVec 6) (s : State) :
    exec (.pumpIdle a b) s = execPumpIdle a b s := rfl
@[simp] theorem exec_pumpDead (h : BitVec 4) (a : BitVec 6) (s : State) :
    exec (.pumpDead h a) s = execPumpDead h a s := rfl
@[simp] theorem exec_pumpStat (d : BitVec 6) (s : State) :
    exec (.pumpStat d) s = execPumpStat d s := rfl
@[simp] theorem exec_pumpActr (d a : BitVec 6) (clr : Bool) (s : State) :
    exec (.pumpActr d a clr) s = execPumpActr d a clr s := rfl
@[simp] theorem exec_nmFence (d : BitVec 6) (s : State) :
    exec (.nmFence d) s = execNmFence d s := rfl
@[simp] theorem exec_nmStat (d : BitVec 6) (sel : BitVec 2) (s : State) :
    exec (.nmStat d sel) s = execNmStat d sel s := rfl
@[simp] theorem exec_waitA (d a v : BitVec 6) (cond : BitVec 2) (s : State) :
    exec (.waitA d a v cond) s = execWaitA d a v cond s := rfl
@[simp] theorem exec_fence (ld st eng tl : Bool) (s : State) :
    exec (.fence ld st eng tl) s = execFence ld st eng tl s := rfl
@[simp] theorem exec_fenceRc (d : BitVec 6) (s : State) :
    exec (.fenceRc d) s = execFenceRc d s := rfl
@[simp] theorem exec_publish (d a : BitVec 6) (s : State) :
    exec (.publish d a) s = execPublish d a s := rfl
@[simp] theorem exec_shadow (d a n : BitVec 6) (s : State) :
    exec (.shadow d a n) s = execShadow d a n s := rfl
@[simp] theorem exec_shadowFree (a : BitVec 6) (s : State) :
    exec (.shadowFree a) s = execShadowFree a s := rfl
@[simp] theorem exec_qwait (d : BitVec 6) (n : BitVec 4) (s : State) :
    exec (.qwait d n) s = execQwait d n s := rfl
@[simp] theorem exec_bar (a : BitVec 6) (s : State) :
    exec (.bar a) s = execBar a s := rfl
@[simp] theorem exec_realign (d : BitVec 6) (s : State) :
    exec (.realign d) s = execRealign d s := rfl
@[simp] theorem exec_rdgtc (d : BitVec 6) (s : State) :
    exec (.rdgtc d) s = execRdgtc d s := rfl
@[simp] theorem exec_goWait (d : BitVec 6) (s : State) :
    exec (.goWait d) s = execGoWait d s := rfl
@[simp] theorem exec_csrr (d : BitVec 6) (csr : BitVec 12) (s : State) :
    exec (.csrr d csr) s = execCsrr d csr s := rfl
@[simp] theorem exec_csrw (d a : BitVec 6) (csr : BitVec 12) (s : State) :
    exec (.csrw d a csr) s = execCsrw d a csr s := rfl
@[simp] theorem exec_csrs (d a : BitVec 6) (csr : BitVec 12) (s : State) :
    exec (.csrs d a csr) s = execCsrs d a csr s := rfl
@[simp] theorem exec_csrc (d a : BitVec 6) (csr : BitVec 12) (s : State) :
    exec (.csrc d a csr) s = execCsrc d a csr s := rfl
@[simp] theorem exec_trap (code : BitVec 16) (s : State) :
    exec (.trap code) s = execTrap code s := rfl
@[simp] theorem exec_tlbSync (a : BitVec 6) (s : State) :
    exec (.tlbSync a) s = execTlbSync a s := rfl
@[simp] theorem exec_domsw (a : BitVec 6) (s : State) :
    exec (.domsw a) s = execDomsw a s := rfl
@[simp] theorem exec_dbrk (code : BitVec 16) (s : State) :
    exec (.dbrk code) s = execDbrk code s := rfl
@[simp] theorem exec_ucieLaneError (port : Nat) (lane : Option Nat) (s : State) :
    exec (.ucieLaneError port lane) s = execUcieLaneError port lane s := rfl
@[simp] theorem exec_uciePortFailure (die : DieIx) (s : State) :
    exec (.uciePortFailure die) s = execUciePortFailure die s := rfl
@[simp] theorem exec_pageRequestRefusal (n : Nat) (s : State) :
    exec (.pageRequestRefusal n) s = execPageRequestRefusal n s := rfl
@[simp] theorem exec_bundleIssue (s : State) :
    exec .bundleIssue s = execBundleIssue s := rfl
@[simp] theorem exec_holdCycle (s : State) :
    exec .holdCycle s = execHoldCycle s := rfl
@[simp] theorem exec_stallCycle (s : State) :
    exec .stallCycle s = execStallCycle s := rfl
@[simp] theorem exec_freezeCycle (s : State) :
    exec .freezeCycle s = execFreezeCycle s := rfl
@[simp] theorem exec_pumpRdPresent (s : State) :
    exec .pumpRdPresent s = execPumpRdPresent s := rfl
@[simp] theorem exec_pumpWrSend (s : State) :
    exec .pumpWrSend s = execPumpWrSend s := rfl
@[simp] theorem exec_queuedLoadPerform (s : State) :
    exec .queuedLoadPerform s = execQueuedLoadPerform s := rfl
@[simp] theorem exec_queuedStorePerform (s : State) :
    exec .queuedStorePerform s = execQueuedStorePerform s := rfl
@[simp] theorem exec_getVerbArrival (s : State) :
    exec .getVerbArrival s = execGetVerbArrival s := rfl
@[simp] theorem exec_remoteStoreVerbArrival (s : State) :
    exec .remoteStoreVerbArrival s = execRemoteStoreVerbArrival s := rfl
@[simp] theorem exec_signalVerbArrival (s : State) :
    exec .signalVerbArrival s = execSignalVerbArrival s := rfl
@[simp] theorem exec_atomicVerbArrival (s : State) :
    exec .atomicVerbArrival s = execAtomicVerbArrival s := rfl
@[simp] theorem exec_getResponse (s : State) :
    exec .getResponse s = execGetResponse s := rfl
@[simp] theorem exec_dieCommitAck (s : State) :
    exec .dieCommitAck s = execDieCommitAck s := rfl
@[simp] theorem exec_quantumBoundary (s : State) :
    exec .quantumBoundary s = execQuantumBoundary s := rfl
@[simp] theorem exec_quantumChange (s : State) :
    exec .quantumChange s = execQuantumChange s := rfl
@[simp] theorem exec_commitBufferOverflow (s : State) :
    exec .commitBufferOverflow s = execCommitBufferOverflow s := rfl
@[simp] theorem exec_flitSend (s : State) :
    exec .flitSend s = execFlitSend s := rfl
@[simp] theorem exec_bulkFlitReceive (s : State) :
    exec .bulkFlitReceive s = execBulkFlitReceive s := rfl
@[simp] theorem exec_atomFlitReceive (s : State) :
    exec .atomFlitReceive s = execAtomFlitReceive s := rfl
@[simp] theorem exec_commitAcknowledgement (s : State) :
    exec .commitAcknowledgement s = execCommitAcknowledgement s := rfl
@[simp] theorem exec_refusalReport (s : State) :
    exec .refusalReport s = execRefusalReport s := rfl
@[simp] theorem exec_pathEpochFlit (s : State) :
    exec .pathEpochFlit s = execPathEpochFlit s := rfl
@[simp] theorem exec_timeExchangeFlit (s : State) :
    exec .timeExchangeFlit s = execTimeExchangeFlit s := rfl
@[simp] theorem exec_flitLossTimeout (s : State) :
    exec .flitLossTimeout s = execFlitLossTimeout s := rfl
@[simp] theorem exec_pathDisconnect (s : State) :
    exec .pathDisconnect s = execPathDisconnect s := rfl
@[simp] theorem exec_pathReconnect (s : State) :
    exec .pathReconnect s = execPathReconnect s := rfl
@[simp] theorem exec_fabricManagerCommand (s : State) :
    exec .fabricManagerCommand s = execFabricManagerCommand s := rfl
@[simp] theorem exec_unsyncTimeout (s : State) :
    exec .unsyncTimeout s = execUnsyncTimeout s := rfl
@[simp] theorem exec_copyCompletion (s : State) :
    exec .copyCompletion s = execCopyCompletion s := rfl
@[simp] theorem exec_probeFillCompletion (s : State) :
    exec .probeFillCompletion s = execProbeFillCompletion s := rfl
@[simp] theorem exec_stnCutCompletion (s : State) :
    exec .stnCutCompletion s = execStnCutCompletion s := rfl
@[simp] theorem exec_stnLdCompletion (s : State) :
    exec .stnLdCompletion s = execStnLdCompletion s := rfl
@[simp] theorem exec_sumpGroupApply (s : State) :
    exec .sumpGroupApply s = execSumpGroupApply s := rfl
@[simp] theorem exec_sumpSnapWrite (s : State) :
    exec .sumpSnapWrite s = execSumpSnapWrite s := rfl
@[simp] theorem exec_pumpStageComplete (s : State) :
    exec .pumpStageComplete s = execPumpStageComplete s := rfl
@[simp] theorem exec_pumpSkip (s : State) :
    exec .pumpSkip s = execPumpSkip s := rfl
@[simp] theorem exec_nmcCompletion (s : State) :
    exec .nmcCompletion s = execNmcCompletion s := rfl
@[simp] theorem exec_idleSequenceEntry (s : State) :
    exec .idleSequenceEntry s = execIdleSequenceEntry s := rfl
@[simp] theorem exec_idleRowIssue (s : State) :
    exec .idleRowIssue s = execIdleRowIssue s := rfl
@[simp] theorem exec_idleRunEnd (s : State) :
    exec .idleRunEnd s = execIdleRunEnd s := rfl
@[simp] theorem exec_tableResume (s : State) :
    exec .tableResume s = execTableResume s := rfl
@[simp] theorem exec_refreshDebtAccrual (s : State) :
    exec .refreshDebtAccrual s = execRefreshDebtAccrual s := rfl
@[simp] theorem exec_servicePathSequence (s : State) :
    exec .servicePathSequence s = execServicePathSequence s := rfl
@[simp] theorem exec_migrationComplete (s : State) :
    exec .migrationComplete s = execMigrationComplete s := rfl
@[simp] theorem exec_bankRebuildWord (s : State) :
    exec .bankRebuildWord s = execBankRebuildWord s := rfl
@[simp] theorem exec_bankRebuildComplete (s : State) :
    exec .bankRebuildComplete s = execBankRebuildComplete s := rfl
@[simp] theorem exec_heartbeatPoll (s : State) :
    exec .heartbeatPoll s = execHeartbeatPoll s := rfl
@[simp] theorem exec_dieLossNotice (s : State) :
    exec .dieLossNotice s = execDieLossNotice s := rfl
@[simp] theorem exec_doorbellPoll (s : State) :
    exec .doorbellPoll s = execDoorbellPoll s := rfl
@[simp] theorem exec_preemptionRequest (s : State) :
    exec .preemptionRequest s = execPreemptionRequest s := rfl
@[simp] theorem exec_preemptionHalt (s : State) :
    exec .preemptionHalt s = execPreemptionHalt s := rfl
@[simp] theorem exec_kernelEnd (s : State) :
    exec .kernelEnd s = execKernelEnd s := rfl
@[simp] theorem exec_walkerKernelNode (s : State) :
    exec .walkerKernelNode s = execWalkerKernelNode s := rfl
@[simp] theorem exec_walkerConditionalNode (s : State) :
    exec .walkerConditionalNode s = execWalkerConditionalNode s := rfl
@[simp] theorem exec_walkerWhileNode (s : State) :
    exec .walkerWhileNode s = execWalkerWhileNode s := rfl
@[simp] theorem exec_walkerJoinNode (s : State) :
    exec .walkerJoinNode s = execWalkerJoinNode s := rfl
@[simp] theorem exec_gangPrepare (s : State) :
    exec .gangPrepare s = execGangPrepare s := rfl
@[simp] theorem exec_gangReady (s : State) :
    exec .gangReady s = execGangReady s := rfl
@[simp] theorem exec_gangReadyDeadline (s : State) :
    exec .gangReadyDeadline s = execGangReadyDeadline s := rfl
@[simp] theorem exec_goToken (s : State) :
    exec .goToken s = execGoToken s := rfl
@[simp] theorem exec_gangCancel (s : State) :
    exec .gangCancel s = execGangCancel s := rfl
@[simp] theorem exec_gangStart (s : State) :
    exec .gangStart s = execGangStart s := rfl
@[simp] theorem exec_gangStarted (s : State) :
    exec .gangStarted s = execGangStarted s := rfl
@[simp] theorem exec_gangAckDeadline (s : State) :
    exec .gangAckDeadline s = execGangAckDeadline s := rfl
@[simp] theorem exec_gangConfirm (s : State) :
    exec .gangConfirm s = execGangConfirm s := rfl
@[simp] theorem exec_gangAbort (s : State) :
    exec .gangAbort s = execGangAbort s := rfl
@[simp] theorem exec_hostReservoirRead (s : State) :
    exec .hostReservoirRead s = execHostReservoirRead s := rfl
@[simp] theorem exec_hostReservoirWrite (s : State) :
    exec .hostReservoirWrite s = execHostReservoirWrite s := rfl
@[simp] theorem exec_nop (s : State) :
    exec .nop s = execNop s := rfl
@[simp] theorem exec_jnext (s : State) :
    exec .jnext s = execJnext s := rfl
@[simp] theorem exec_mark (s : State) :
    exec .mark s = execMark s := rfl
@[simp] theorem exec_sumpClr (s : State) :
    exec .sumpClr s = execSumpClr s := rfl
@[simp] theorem exec_rdDataReturn (s : State) :
    exec .rdDataReturn s = execRdDataReturn s := rfl
@[simp] theorem exec_debuggerWrite (s : State) :
    exec .debuggerWrite s = execDebuggerWrite s := rfl
@[simp] theorem exec_hostRegisterWrite (s : State) :
    exec .hostRegisterWrite s = execHostRegisterWrite s := rfl
@[simp] theorem exec_unansweringPackageLost (s : State) :
    exec .unansweringPackageLost s = execUnansweringPackageLost s := rfl

end Sys2Proof.Machine
end

