-- ==== Sys2Proof/Laws/Slots.lean ====
section
/-!
SUPPORT. What a slot of the bays can do at its issue: it schedules results, consumes heads of streams and reserves entries,
and changes nothing else.
-/

namespace Sys2Proof.Machine

namespace OnlyStreams

variable {s t u : State}

theorem refl (s : State) : OnlyStreams s s :=
  ⟨rfl, rfl, ⟨fun _ => rfl, fun _ => rfl, fun _ => rfl⟩, by simp [SameSpecial], ⟨fun _ => rfl, fun _ => rfl, fun _ => rfl, fun _ => rfl⟩,
    fun _ _ => rfl, fun _ h => h, fun _ => rfl⟩

theorem trans (h : OnlyStreams s t) (h' : OnlyStreams t u) : OnlyStreams s u := by
  obtain ⟨a1, a2, ⟨b1, b2, b3⟩, c, ⟨d1, d2, d3, d4⟩, e, f, g⟩ := h
  obtain ⟨a1', a2', ⟨b1', b2', b3'⟩, c', ⟨d1', d2', d3', d4'⟩, e', f', g'⟩ := h'
  refine ⟨a1'.trans a1, a2'.trans a2, ⟨fun r => (b1' r).trans (b1 r), fun r => (b2' r).trans (b2 r),
    fun r => (b3' r).trans (b3 r)⟩, ?_, ⟨fun r => (d1' r).trans (d1 r), fun r => (d2' r).trans (d2 r),
    fun r => (d3' r).trans (d3 r), fun r => (d4' r).trans (d4 r)⟩, fun i hi => (e' i (a1 ▸ hi)).trans (e i hi),
    fun x hx => f' x (f x hx), fun b => ?_⟩
  · simp only [SameSpecial] at c c' ⊢
    simp only [c, c', and_self]
  · rw [← g b]
    conv_rhs => rw [← g' b]

theorem of_later (s : State) (lat : Nat) (r : Result) (p : Nat) : OnlyStreams s (s.later lat r p) := by
  have h := s.later_only lat r p
  refine ⟨h.cur, ?_, h.sameRegs, h.sameSpecial, h.sameMem, h.sameOtherDies, fun x hx => ?_, fun b => ?_⟩
  · simp [State.later, State.pendAt]
  · simp [State.later, State.pendAt, mem_insertPend, hx]
  · simp [State.later, State.pendAt, State.bayAt, Ctx.bayAt]

/-- A change of one stream. -/
theorem of_modStr (s : State) (b : BayIx) (q : Nat) (f : Stream → Stream) : OnlyStreams s (s.modStr b q f) := by
  refine ⟨rfl, ?_, ?_, ?_, ⟨fun _ => rfl, fun _ => rfl, fun _ => rfl, fun _ => rfl⟩, fun i hi => ?_, fun x hx => ?_,
    fun b' => ?_⟩
  · simp [State.modStr, State.modBay, Ctx.setBay]
  · simp [SameRegs, State.modStr, State.modBay, Ctx.setBay, Ctx.rs, Ctx.rp, Ctx.rh]
  · simp [SameSpecial, State.modStr, State.modBay, Ctx.setBay]
  · exact State.modCtx_dieAt_ne s _ hi
  · simpa [State.modStr, State.modBay, Ctx.setBay] using hx
  · by_cases hb : b' = b
    · subst hb
      simp [State.modStr, Bay.setStr]
    · simp [State.modStr, State.bayAt_modBay_ne _ _ hb]

theorem of_foldl {α : Type} (l : List α) {f : State → α → State} (s : State) (hf : ∀ s a, OnlyStreams s (f s a)) :
    OnlyStreams s (l.foldl f s) := by
  induction l generalizing s with
  | nil => exact .refl s
  | cons a l ih => exact (hf s a).trans (ih _)

/-- Consuming the heads of streams. -/
theorem of_eatAll (s : State) (n : Names) : OnlyStreams s (s.eatAll n) :=
  of_foldl _ s fun s b => of_foldl _ s fun s e => of_modStr s b e.1 _

/-- Reserving an entry of a stream. -/
theorem of_reserve (s : State) (b : BayIx) (q : Nat) : OnlyStreams s (s.reserve b q).1 := of_modStr s b q _

end OnlyStreams

theorem baysOf_mem {m : Bays} {b : BayIx} : b ∈ baysOf m ↔ m.getLsbD b.val = true := by
  simp [baysOf]

theorem State.later_tl (s : State) (lat : Nat) (r : Result) (p : Nat) : (s.later lat r p).ctx.tl = s.ctx.tl := by
  simp [State.later, State.pendAt]

theorem State.later_sameBays (s : State) (lat : Nat) (r : Result) (p : Nat) : SameBays s (s.later lat r p) :=
  (s.later_only lat r p).sameBays

/-! ### Streams -/

theorem State.bayAt_later (s : State) (lat : Nat) (r : Result) (p : Nat) (b : BayIx) :
    (s.later lat r p).bayAt b = s.bayAt b := by
  have h := s.later_sameBays lat r p
  simp only [SameBays] at h
  simp [State.bayAt, Ctx.bayAt, h]

theorem State.pend_modStr (s : State) (b : BayIx) (q : Nat) (f : Stream → Stream) : (s.modStr b q f).ctx.pend = s.ctx.pend := by
  simp [State.modStr, State.modBay, Ctx.setBay]

theorem State.str_modStr (s : State) (b b' : BayIx) (q q' : Nat) (f : Stream → Stream) (hq : q < 32) (hq' : q' < 32) :
    ((s.modStr b q f).bayAt b').str q' =
      if b' = b ∧ q' = q then f ((s.bayAt b).str q) else (s.bayAt b').str q' := by
  by_cases hb : b' = b
  · subst hb
    by_cases h : q' = q
    · subst h
      simp [State.modStr]
    · have h2 : q' % 32 ≠ q % 32 := by omega
      simp [State.modStr, h, Bay.str_setStr_ne _ _ h2]
  · simp [State.modStr, State.bayAt_modBay_ne _ _ hb, hb]

/-! ### Doing something in each bay of a slot -/

/-- In each bay a slot does something that only schedules and moves streams, and adds its steps. -/
theorem bays_give {f : State → BayIx → State} {g : BayIx → List (Nat × Instr)} (l : List BayIx) (s : State)
    (hf : ∀ s b, OnlyStreams s (f s b)) (hr : ∀ u b, u.ctx.tl = s.ctx.tl → Schedules u (f u b) (g b)) :
    OnlyStreams s (l.foldl f s) ∧ Schedules s (l.foldl f s) (l.flatMap g) := by
  refine ⟨OnlyStreams.of_foldl l s hf, ?_⟩
  have key : ∀ (l : List BayIx) (u : State), u.ctx.tl = s.ctx.tl → Schedules u (l.foldl f u) (l.flatMap g) := by
    intro l
    induction l with
    | nil => exact fun u _ => Schedules.refl rfl
    | cons a l ih =>
      intro u hu
      have ha := (hf u a).2.1
      exact (hr u a hu).trans (ih (f u a) (ha.trans hu)) ha
  exact key l s rfl

theorem bays_same {f : State → BayIx → State} (l : List BayIx) (s : State) (hf : ∀ s b, SameBays s (f s b)) :
    SameBays s (l.foldl f s) := by
  induction l generalizing s with
  | nil => rfl
  | cons a l ih => exact (ih _).trans (hf s a)

/-- A slot that consumes nothing consumes nothing. -/
theorem State.eatAll_none (s : State) (n : Names) (h : n.eat = []) : s.eatAll n = s := by
  unfold State.eatAll
  rw [h]
  generalize baysOf n.bays = l
  induction l with
  | nil => rfl
  | cons b l ih => simp

/-- Consuming heads leaves the steps in flight. -/
theorem State.eatAll_pend (s : State) (n : Names) : (s.eatAll n).ctx.pend = s.ctx.pend := by
  have h1 : ∀ (l : List (Nat × Nat)) (b : BayIx) (s : State),
      (l.foldl (fun s e => s.eatHead b e.1) s).ctx.pend = s.ctx.pend := by
    intro l b
    induction l with
    | nil => exact fun _ => rfl
    | cons e l ih => exact fun s => (ih _).trans (s.pend_modStr b e.1 _)
  unfold State.eatAll
  generalize baysOf n.bays = l
  induction l generalizing s with
  | nil => rfl
  | cons b l ih => exact (ih _).trans (h1 _ _ _)

/-- A step of a bay's vector result schedules it, and presents a stream destination a cycle later as its next entry. -/
theorem State.vecLand_gives (s : State) (b : BayIx) (u : VUnit) (lat : Nat) (d : BitVec 8) (en : BitVec 128)
    (l : List (Word32 × Flags)) (hl : 1 ≤ lat) :
    OnlyStreams s (s.vecLand b u lat d en l) ∧
      Schedules s (s.vecLand b u lat d en l) (match fieldStream d with
        | none => [landing (lat - 1) (.vec b u (vecDst d) (l.map Prod.fst) en (laneFlags en l))]
        | some q =>
          let x := (s.bayAt b).str q
          [landing (lat - 1) (.vec b u (vecDst d) (l.map Prod.fst) en {}),
            landing lat (.present b 0 (lanes32 (l.map Prod.fst)) (pairValid en) (some ⟨b, q, x.bank0, x.nbk, x.word⟩)
              (laneFlags en l))]) ∧
      (fieldStream d = none → SameBays s (s.vecLand b u lat d en l)) := by
  cases hq : fieldStream d with
  | none =>
    simp only [State.vecLand, hq]
    exact ⟨.of_later .., s.later_schedules lat _ _ hl, fun _ => s.later_sameBays ..⟩
  | some q =>
    simp only [State.vecLand, hq]
    have h1 := OnlyStreams.of_later s lat (.vec b u (vecDst d) (l.map Prod.fst) en noFlags) prioReg
    have h3 := s.later_schedules lat (.vec b u (vecDst d) (l.map Prod.fst) en noFlags) prioReg hl
    have hb := s.bayAt_later lat (.vec b u (vecDst d) (l.map Prod.fst) en noFlags) prioReg b
    have ht := s.later_tl lat (.vec b u (vecDst d) (l.map Prod.fst) en noFlags) prioReg
    have hm := (s.later lat (.vec b u (vecDst d) (l.map Prod.fst) en noFlags)).pend_modStr b q Stream.advance
    have h2 := OnlyStreams.of_reserve (s.later lat (.vec b u (vecDst d) (l.map Prod.fst) en noFlags)) b q
    have h4 := ((Schedules.refl hm).trans (((s.later lat (.vec b u (vecDst d) (l.map Prod.fst) en noFlags)).reserve b q).1.later_schedules
      (lat + 1) (.present b 0 (lanes32 (l.map Prod.fst)) (pairValid en)
        (some ((s.later lat (.vec b u (vecDst d) (l.map Prod.fst) en noFlags)).reserve b q).2) (laneFlags en l)) prioReg
        (by omega)) h2.2.1)
    refine ⟨(h1.trans h2).trans (.of_later ..), ?_, fun h => by simp at h⟩
    have h5 := h3.trans h4 ht
    simp only [State.reserve, hb] at h5
    rw [List.nil_append] at h5
    simp only [State.reserve, hb]
    exact h5

/-- What a vector slot of a bundle that issues gives: the steps that it adds, and that it changes nothing else but its
streams. -/
theorem vecSlot_gives {i : Instr} {s : State} {bays : Bays} {d : BitVec 8} {msel : BitVec 3} {u : VUnit} {lat : Nat}
    {src : List (BitVec 8)} {f : State → BayIx → List (List Word32) → List (Word32 × Flags)}
    {P : BayIx → List (Word32 × Flags) → Prop} (h : s.Issues) (hi : exec i s = vecSlot i bays d msel u lat src f s)
    (hd : fieldStream d = none) (hl : 1 ≤ lat) (hP : ∀ b, P b (f s b (src.map (s.vField b)))) :
    Completes i s fun t => OnlyStreams s t ∧ ((slotNames i).eat = [] → SameBays s t) ∧
      BaysSchedule s t bays (vecResult s u lat d msel src P) := by
  let g : State → BayIx → State := fun t b =>
    let t := t.vecLand b u lat d (s.enabled b msel) (f s b (src.map (s.vField b)))
    if lastReads src = 0 then t else t.later 1 (.freeO b (lastReads src)) prioFree
  let r : BayIx → List (Nat × Instr) := fun b =>
    [landing (lat - 1) (.vec b u (vecDst d) ((f s b (src.map (s.vField b))).map Prod.fst) (s.enabled b msel)
      (laneFlags (s.enabled b msel) (f s b (src.map (s.vField b)))))] ++ freed b src
  have he : exec i s = .next (((baysOf bays).foldl g s).eatAll (slotNames i)) := hi.trans (slotRun_issues h)
  have hg : ∀ t b, OnlyStreams t (g t b) ∧ Schedules t (g t b) (r b) := fun t b => by
    have h1 := t.vecLand_gives b u lat d (s.enabled b msel) (f s b (src.map (s.vField b))) hl
    have h2 := h1.2.1
    rw [hd] at h2
    simp only [g, r, freed]
    split
    · rw [List.append_nil]
      exact ⟨h1.1, h2⟩
    · exact ⟨h1.1.trans (.of_later ..), h2.trans (State.later_schedules _ 1 _ _ (by omega)) h1.1.2.1⟩
  have hb := bays_give (g := r) (baysOf bays) s (fun t b => (hg t b).1) fun t b _ => (hg t b).2
  have ha := OnlyStreams.of_eatAll ((baysOf bays).foldl g s) (slotNames i)
  refine ⟨_, he, hb.1.trans ha, fun h1 => ?_, r, fun b _ => ⟨_, hP b, ?_⟩, ?_⟩
  · rw [State.eatAll_none _ _ h1]
    refine bays_same _ s fun t b => ?_
    have h3 := (t.vecLand_gives b u lat d (s.enabled b msel) (f s b (src.map (s.vField b))) hl).2.2 hd
    simp only [g]
    split
    · exact h3
    · exact (State.later_sameBays ..).trans h3
  · simp only [r, hd]
  · have h4 := hb.2.trans (Schedules.refl (State.eatAll_pend _ (slotNames i))) hb.1.2.1
    rwa [List.append_nil] at h4

end Sys2Proof.Machine
end

