-- ==== Sys2Proof/Laws/Names.lean ====
section
/-!
SUPPORT. What each slot instruction names, without unfolding the table of all of them.
-/

namespace Sys2Proof.Machine

@[simp] theorem slotNames_br (x0 : BitVec 8) :
    slotNames (.br x0) = { ports := [.control] } := rfl
@[simp] theorem slotNames_brv (x0 : BitVec 8) (bset : BitVec 8) (m : BitVec 3) (e : BitVec 3) (x4 : Bool) :
    slotNames (.brv x0 bset m e x4) = { ports := [.control], rd := rm bset m ++ (if e = 0 then [] else rm bset e) } := rfl
@[simp] theorem slotNames_jnext :
    slotNames .jnext = { ports := [.control] } := rfl
@[simp] theorem slotNames_jseg (a : BitVec 6) (x1 : BitVec 8) :
    slotNames (.jseg a x1) = { ports := [.control], rd := [rS a] } := rfl
@[simp] theorem slotNames_loop (lvl : BitVec 3) (a : BitVec 6) (x2 : BitVec 8) (x3 : BitVec 2) (x4 : BitVec 21) :
    slotNames (.loop lvl a x2 x3 x4) = { ports := [.control], rd := [rS a], lvl := some (lvl.toNat, 31) } := rfl
@[simp] theorem slotNames_lbrk (lvl : BitVec 3) :
    slotNames (.lbrk lvl) = { ports := [.control], lvl := some (lvl.toNat, 16) } := rfl
@[simp] theorem slotNames_lcont (lvl : BitVec 3) :
    slotNames (.lcont lvl) = { ports := [.control], lvl := some (lvl.toNat, 29) } := rfl
@[simp] theorem slotNames_exit (x0 : BitVec 16) :
    slotNames (.exit x0) = { ports := [.control] } := rfl
@[simp] theorem slotNames_tret (x0 : Bool) (x1 : Bool) :
    slotNames (.tret x0 x1) = { ports := [.control], sys := 1 } := rfl
@[simp] theorem slotNames_add (d : BitVec 6) (a : BitVec 6) (b : BitVec 6) :
    slotNames (.add d a b) = { ports := [.alu], lat := 1, rd := [rS a, rS b], wr := [rS d] } := rfl
@[simp] theorem slotNames_sub (d : BitVec 6) (a : BitVec 6) (b : BitVec 6) :
    slotNames (.sub d a b) = { ports := [.alu], lat := 1, rd := [rS a, rS b], wr := [rS d] } := rfl
@[simp] theorem slotNames_and (d : BitVec 6) (a : BitVec 6) (b : BitVec 6) :
    slotNames (.and d a b) = { ports := [.alu], lat := 1, rd := [rS a, rS b], wr := [rS d] } := rfl
@[simp] theorem slotNames_or (d : BitVec 6) (a : BitVec 6) (b : BitVec 6) :
    slotNames (.or d a b) = { ports := [.alu], lat := 1, rd := [rS a, rS b], wr := [rS d] } := rfl
@[simp] theorem slotNames_xor (d : BitVec 6) (a : BitVec 6) (b : BitVec 6) :
    slotNames (.xor d a b) = { ports := [.alu], lat := 1, rd := [rS a, rS b], wr := [rS d] } := rfl
@[simp] theorem slotNames_andn (d : BitVec 6) (a : BitVec 6) (b : BitVec 6) :
    slotNames (.andn d a b) = { ports := [.alu], lat := 1, rd := [rS a, rS b], wr := [rS d] } := rfl
@[simp] theorem slotNames_shl (d : BitVec 6) (a : BitVec 6) (b : BitVec 6) :
    slotNames (.shl d a b) = { ports := [.alu], lat := 1, rd := [rS a, rS b], wr := [rS d] } := rfl
@[simp] theorem slotNames_shr (d : BitVec 6) (a : BitVec 6) (b : BitVec 6) :
    slotNames (.shr d a b) = { ports := [.alu], lat := 1, rd := [rS a, rS b], wr := [rS d] } := rfl
@[simp] theorem slotNames_sar (d : BitVec 6) (a : BitVec 6) (b : BitVec 6) :
    slotNames (.sar d a b) = { ports := [.alu], lat := 1, rd := [rS a, rS b], wr := [rS d] } := rfl
@[simp] theorem slotNames_min (d : BitVec 6) (a : BitVec 6) (b : BitVec 6) :
    slotNames (.min d a b) = { ports := [.alu], lat := 1, rd := [rS a, rS b], wr := [rS d] } := rfl
@[simp] theorem slotNames_max (d : BitVec 6) (a : BitVec 6) (b : BitVec 6) :
    slotNames (.max d a b) = { ports := [.alu], lat := 1, rd := [rS a, rS b], wr := [rS d] } := rfl
@[simp] theorem slotNames_minu (d : BitVec 6) (a : BitVec 6) (b : BitVec 6) :
    slotNames (.minu d a b) = { ports := [.alu], lat := 1, rd := [rS a, rS b], wr := [rS d] } := rfl
@[simp] theorem slotNames_maxu (d : BitVec 6) (a : BitVec 6) (b : BitVec 6) :
    slotNames (.maxu d a b) = { ports := [.alu], lat := 1, rd := [rS a, rS b], wr := [rS d] } := rfl
@[simp] theorem slotNames_clz (d : BitVec 6) (a : BitVec 6) :
    slotNames (.clz d a) = { ports := [.alu], lat := 1, rd := [rS a], wr := [rS d] } := rfl
@[simp] theorem slotNames_popc (d : BitVec 6) (a : BitVec 6) :
    slotNames (.popc d a) = { ports := [.alu], lat := 1, rd := [rS a], wr := [rS d] } := rfl
@[simp] theorem slotNames_sel (d : BitVec 6) (a : BitVec 6) (b : BitVec 6) (p : BitVec 4) :
    slotNames (.sel d a b p) = { ports := [.alu], lat := 1, rd := [rS a, rS b, rP p], wr := [rS d] } := rfl
@[simp] theorem slotNames_addi (d : BitVec 6) (a : BitVec 6) (x2 : BitVec 28) :
    slotNames (.addi d a x2) = { ports := [.alu], lat := 1, rd := [rS a], wr := [rS d] } := rfl
@[simp] theorem slotNames_andi (d : BitVec 6) (a : BitVec 6) (x2 : BitVec 28) :
    slotNames (.andi d a x2) = { ports := [.alu], lat := 1, rd := [rS a], wr := [rS d] } := rfl
@[simp] theorem slotNames_ori (d : BitVec 6) (a : BitVec 6) (x2 : BitVec 28) :
    slotNames (.ori d a x2) = { ports := [.alu], lat := 1, rd := [rS a], wr := [rS d] } := rfl
@[simp] theorem slotNames_xori (d : BitVec 6) (a : BitVec 6) (x2 : BitVec 28) :
    slotNames (.xori d a x2) = { ports := [.alu], lat := 1, rd := [rS a], wr := [rS d] } := rfl
@[simp] theorem slotNames_shli (d : BitVec 6) (a : BitVec 6) (x2 : BitVec 6) :
    slotNames (.shli d a x2) = { ports := [.alu], lat := 1, rd := [rS a], wr := [rS d] } := rfl
@[simp] theorem slotNames_shri (d : BitVec 6) (a : BitVec 6) (x2 : BitVec 6) :
    slotNames (.shri d a x2) = { ports := [.alu], lat := 1, rd := [rS a], wr := [rS d] } := rfl
@[simp] theorem slotNames_sari (d : BitVec 6) (a : BitVec 6) (x2 : BitVec 6) :
    slotNames (.sari d a x2) = { ports := [.alu], lat := 1, rd := [rS a], wr := [rS d] } := rfl
@[simp] theorem slotNames_movi (d : BitVec 6) (x1 : BitVec 28) :
    slotNames (.movi d x1) = { ports := [.alu], lat := 1, wr := [rS d] } := rfl
@[simp] theorem slotNames_movhi (d : BitVec 6) (a : BitVec 6) (x2 : BitVec 2) (x3 : BitVec 16) :
    slotNames (.movhi d a x2 x3) = { ports := [.alu], lat := 1, rd := [rS a], wr := [rS d] } := rfl
@[simp] theorem slotNames_mul (d : BitVec 6) (a : BitVec 6) (b : BitVec 6) :
    slotNames (.mul d a b) = { ports := [.mul], lat := 3, rd := [rS a, rS b], wr := [rS d] } := rfl
@[simp] theorem slotNames_mulh (d : BitVec 6) (a : BitVec 6) (b : BitVec 6) :
    slotNames (.mulh d a b) = { ports := [.mul], lat := 3, rd := [rS a, rS b], wr := [rS d] } := rfl
@[simp] theorem slotNames_mulhu (d : BitVec 6) (a : BitVec 6) (b : BitVec 6) :
    slotNames (.mulhu d a b) = { ports := [.mul], lat := 3, rd := [rS a, rS b], wr := [rS d] } := rfl
@[simp] theorem slotNames_cmpEq (pd : BitVec 4) (a : BitVec 6) (b : BitVec 6) (pn : BitVec 4) :
    slotNames (.cmpEq pd a b pn) = { ports := [.alu], lat := 1, rd := [rS a, rS b], wr := [rP pd, rP pn] } := rfl
@[simp] theorem slotNames_cmpNe (pd : BitVec 4) (a : BitVec 6) (b : BitVec 6) (pn : BitVec 4) :
    slotNames (.cmpNe pd a b pn) = { ports := [.alu], lat := 1, rd := [rS a, rS b], wr := [rP pd, rP pn] } := rfl
@[simp] theorem slotNames_cmpLt (pd : BitVec 4) (a : BitVec 6) (b : BitVec 6) (pn : BitVec 4) :
    slotNames (.cmpLt pd a b pn) = { ports := [.alu], lat := 1, rd := [rS a, rS b], wr := [rP pd, rP pn] } := rfl
@[simp] theorem slotNames_cmpLtu (pd : BitVec 4) (a : BitVec 6) (b : BitVec 6) (pn : BitVec 4) :
    slotNames (.cmpLtu pd a b pn) = { ports := [.alu], lat := 1, rd := [rS a, rS b], wr := [rP pd, rP pn] } := rfl
@[simp] theorem slotNames_cmpLe (pd : BitVec 4) (a : BitVec 6) (b : BitVec 6) (pn : BitVec 4) :
    slotNames (.cmpLe pd a b pn) = { ports := [.alu], lat := 1, rd := [rS a, rS b], wr := [rP pd, rP pn] } := rfl
@[simp] theorem slotNames_cmpLeu (pd : BitVec 4) (a : BitVec 6) (b : BitVec 6) (pn : BitVec 4) :
    slotNames (.cmpLeu pd a b pn) = { ports := [.alu], lat := 1, rd := [rS a, rS b], wr := [rP pd, rP pn] } := rfl
@[simp] theorem slotNames_cmpiEq (pd : BitVec 4) (a : BitVec 6) (pn : BitVec 4) (x3 : BitVec 24) :
    slotNames (.cmpiEq pd a pn x3) = { ports := [.alu], lat := 1, rd := [rS a], wr := [rP pd, rP pn] } := rfl
@[simp] theorem slotNames_cmpiLt (pd : BitVec 4) (a : BitVec 6) (pn : BitVec 4) (x3 : BitVec 24) :
    slotNames (.cmpiLt pd a pn x3) = { ports := [.alu], lat := 1, rd := [rS a], wr := [rP pd, rP pn] } := rfl
@[simp] theorem slotNames_pand (o : POp) :
    slotNames (.pand o) = { ports := [.alu], lat := 1, rd := [rP o.pa, rP o.pb], wr := [rP o.pd] } := rfl
@[simp] theorem slotNames_por (o : POp) :
    slotNames (.por o) = { ports := [.alu], lat := 1, rd := [rP o.pa, rP o.pb], wr := [rP o.pd] } := rfl
@[simp] theorem slotNames_pxor (o : POp) :
    slotNames (.pxor o) = { ports := [.alu], lat := 1, rd := [rP o.pa, rP o.pb], wr := [rP o.pd] } := rfl
@[simp] theorem slotNames_pandn (o : POp) :
    slotNames (.pandn o) = { ports := [.alu], lat := 1, rd := [rP o.pa, rP o.pb], wr := [rP o.pd] } := rfl
@[simp] theorem slotNames_pmovsToScalar (d : BitVec 6) :
    slotNames (.pmovsToScalar d) = { ports := [.alu], lat := 1, rd := allPreds, wr := [rS d] } := rfl
@[simp] theorem slotNames_pmovsFromScalar (a : BitVec 6) :
    slotNames (.pmovsFromScalar a) = { ports := [.alu], lat := 1, rd := [rS a], wr := allPreds } := rfl
@[simp] theorem slotNames_fadd (o : FOp) :
    slotNames (.fadd o) = { ports := [.fp], lat := 4, rd := [rS o.a, rS o.b], wr := [rS o.d] } := rfl
@[simp] theorem slotNames_fsub (o : FOp) :
    slotNames (.fsub o) = { ports := [.fp], lat := 4, rd := [rS o.a, rS o.b], wr := [rS o.d] } := rfl
@[simp] theorem slotNames_fmul (o : FOp) :
    slotNames (.fmul o) = { ports := [.fp], lat := 4, rd := [rS o.a, rS o.b], wr := [rS o.d] } := rfl
@[simp] theorem slotNames_fmin (o : FOp) :
    slotNames (.fmin o) = { ports := [.fp], lat := 4, rd := [rS o.a, rS o.b], wr := [rS o.d] } := rfl
@[simp] theorem slotNames_fmax (o : FOp) :
    slotNames (.fmax o) = { ports := [.fp], lat := 4, rd := [rS o.a, rS o.b], wr := [rS o.d] } := rfl
@[simp] theorem slotNames_ffma (o : FOp) :
    slotNames (.ffma o) = { ports := [.fp], lat := 4, rd := [rS o.a, rS o.b, rS o.c], wr := [rS o.d] } := rfl
@[simp] theorem slotNames_fcmp (o : FOp) :
    slotNames (.fcmp o) = { ports := [.fp], lat := 2, rd := [rS o.a, rS o.b], wr := [rP (o.d.setWidth 4)] } := rfl
@[simp] theorem slotNames_fcvt (o : FOp) :
    slotNames (.fcvt o) = { ports := [.fp], lat := 4, rd := [rS o.a], wr := [rS o.d] } := rfl
@[simp] theorem slotNames_ld (o : MOp) :
    slotNames (.ld o) = { ports := [.load], rd := [rS o.a], wr := [rS o.d] } := rfl
@[simp] theorem slotNames_lds (o : MOp) :
    slotNames (.lds o) = { ports := [.load], rd := [rS o.a], wr := [rS o.d] } := rfl
@[simp] theorem slotNames_chk (o : MOp) :
    slotNames (.chk o) = { ports := [.load], rd := [rS o.a], wr := [rS o.d] } := rfl
@[simp] theorem slotNames_st (o : MOp) :
    slotNames (.st o) = { ports := [.store], rd := [rS o.d, rS o.a] } := rfl
@[simp] theorem slotNames_signal (v : BitVec 6) (a : BitVec 6) (x2 : BitVec 24) :
    slotNames (.signal v a x2) = { ports := [.store], rd := [rS v, rS a] } := rfl
@[simp] theorem slotNames_mark :
    slotNames .mark = { ports := [.load, .store] } := rfl
@[simp] theorem slotNames_hld (h : BitVec 4) (a : BitVec 6) (x2 : BitVec 24) :
    slotNames (.hld h a x2) = { ports := [.load], rd := [rS a], wr := [rH h] } := rfl
@[simp] theorem slotNames_hst (h : BitVec 4) (a : BitVec 6) (x2 : BitVec 24) :
    slotNames (.hst h a x2) = { ports := [.store], rd := [rH h, rS a] } := rfl
@[simp] theorem slotNames_hset (hd : BitVec 4) (ha : BitVec 4) (b : BitVec 6) (x3 : BitVec 5) :
    slotNames (.hset hd ha b x3) = { ports := [.handle], lat := 1, rd := [rH ha, rS b], wr := [rH hd] } := rfl
@[simp] theorem slotNames_hget (d : BitVec 6) (ha : BitVec 4) (x2 : BitVec 5) :
    slotNames (.hget d ha x2) = { ports := [.handle], lat := 1, rd := [rH ha], wr := [rS d] } := rfl
@[simp] theorem slotNames_hmov (hd : BitVec 4) (ha : BitVec 4) :
    slotNames (.hmov hd ha) = { ports := [.handle], lat := 1, rd := [rH ha], wr := [rH hd] } := rfl
@[simp] theorem slotNames_vadd (bays : Bays) (o : VOp) :
    slotNames (.vadd bays o) = vNames bays o .vAlu 2 0 [o.a, o.b] := rfl
@[simp] theorem slotNames_vsub (bays : Bays) (o : VOp) :
    slotNames (.vsub bays o) = vNames bays o .vAlu 2 0 [o.a, o.b] := rfl
@[simp] theorem slotNames_vmin (bays : Bays) (o : VOp) :
    slotNames (.vmin bays o) = vNames bays o .vAlu 2 0 [o.a, o.b] := rfl
@[simp] theorem slotNames_vmax (bays : Bays) (o : VOp) :
    slotNames (.vmax bays o) = vNames bays o .vAlu 2 0 [o.a, o.b] := rfl
@[simp] theorem slotNames_vand (bays : Bays) (o : VOp) :
    slotNames (.vand bays o) = vNames bays o .vAlu 2 0 [o.a, o.b] := rfl
@[simp] theorem slotNames_vor (bays : Bays) (o : VOp) :
    slotNames (.vor bays o) = vNames bays o .vAlu 2 0 [o.a, o.b] := rfl
@[simp] theorem slotNames_vxor (bays : Bays) (o : VOp) :
    slotNames (.vxor bays o) = vNames bays o .vAlu 2 0 [o.a, o.b] := rfl
@[simp] theorem slotNames_vandn (bays : Bays) (o : VOp) :
    slotNames (.vandn bays o) = vNames bays o .vAlu 2 0 [o.a, o.b] := rfl
@[simp] theorem slotNames_vshl (bays : Bays) (o : VOp) :
    slotNames (.vshl bays o) = vNames bays o .vAlu 2 0 [o.a, o.b] := rfl
@[simp] theorem slotNames_vshr (bays : Bays) (o : VOp) :
    slotNames (.vshr bays o) = vNames bays o .vAlu 2 0 [o.a, o.b] := rfl
@[simp] theorem slotNames_vsar (bays : Bays) (o : VOp) :
    slotNames (.vsar bays o) = vNames bays o .vAlu 2 0 [o.a, o.b] := rfl
@[simp] theorem slotNames_vabs (bays : Bays) (o : VOp) :
    slotNames (.vabs bays o) = vNames bays o .vAlu 2 0 [o.a] := rfl
@[simp] theorem slotNames_vneg (bays : Bays) (o : VOp) :
    slotNames (.vneg bays o) = vNames bays o .vAlu 2 0 [o.a] := rfl
@[simp] theorem slotNames_vmov (bays : Bays) (o : VOp) :
    slotNames (.vmov bays o) = vNames bays o .vAlu 2 0 [o.a] := rfl
@[simp] theorem slotNames_vsel (bays : Bays) (o : VOp) :
    slotNames (.vsel bays o) = let n := vNames bays o .vAlu 2 0 [o.a, o.b]; { n with rd := n.rd ++ rm bays (o.c.setWidth 3) } := rfl
@[simp] theorem slotNames_vcmpEq (bays : Bays) (o : VOp) :
    slotNames (.vcmpEq bays o) = vcmpNames bays o := rfl
@[simp] theorem slotNames_vcmpNe (bays : Bays) (o : VOp) :
    slotNames (.vcmpNe bays o) = vcmpNames bays o := rfl
@[simp] theorem slotNames_vcmpLt (bays : Bays) (o : VOp) :
    slotNames (.vcmpLt bays o) = vcmpNames bays o := rfl
@[simp] theorem slotNames_vcmpLe (bays : Bays) (o : VOp) :
    slotNames (.vcmpLe bays o) = vcmpNames bays o := rfl
@[simp] theorem slotNames_vcmpUn (bays : Bays) (o : VOp) :
    slotNames (.vcmpUn bays o) = vcmpNames bays o := rfl
@[simp] theorem slotNames_vmand (bays : Bays) (d : BitVec 3) (a : BitVec 3) (b : BitVec 3) :
    slotNames (.vmand bays d a b) = { ports := [.vAlu], bays := bays, lat := 2, rd := rm bays a ++ rm bays b, wr := rm bays d } := rfl
@[simp] theorem slotNames_vmor (bays : Bays) (d : BitVec 3) (a : BitVec 3) (b : BitVec 3) :
    slotNames (.vmor bays d a b) = { ports := [.vAlu], bays := bays, lat := 2, rd := rm bays a ++ rm bays b, wr := rm bays d } := rfl
@[simp] theorem slotNames_vmxor (bays : Bays) (d : BitVec 3) (a : BitVec 3) (b : BitVec 3) :
    slotNames (.vmxor bays d a b) = { ports := [.vAlu], bays := bays, lat := 2, rd := rm bays a ++ rm bays b, wr := rm bays d } := rfl
@[simp] theorem slotNames_vmandn (bays : Bays) (d : BitVec 3) (a : BitVec 3) (b : BitVec 3) :
    slotNames (.vmandn bays d a b) = { ports := [.vAlu], bays := bays, lat := 2, rd := rm bays a ++ rm bays b, wr := rm bays d } := rfl
@[simp] theorem slotNames_vmset (bays : Bays) (d : BitVec 3) (x2 : BitVec 8) :
    slotNames (.vmset bays d x2) = { ports := [.vAlu], bays := bays, lat := 2, wr := rm bays d } := rfl
@[simp] theorem slotNames_vmul (bays : Bays) (o : VOp) :
    slotNames (.vmul bays o) = vNames bays o .vFma 4 1 [o.a, o.b] := rfl
@[simp] theorem slotNames_vfma (bays : Bays) (o : VOp) :
    slotNames (.vfma bays o) = vNames bays o .vFma 4 1 [o.a, o.b, o.c] := rfl
@[simp] theorem slotNames_vfms (bays : Bays) (o : VOp) :
    slotNames (.vfms bays o) = vNames bays o .vFma 4 1 [o.a, o.b, o.c] := rfl
@[simp] theorem slotNames_vfnma (bays : Bays) (o : VOp) :
    slotNames (.vfnma bays o) = vNames bays o .vFma 4 1 [o.a, o.b, o.c] := rfl
@[simp] theorem slotNames_vexp2 (bays : Bays) (o : VOp) :
    slotNames (.vexp2 bays o) = vNames bays o .vTrans 8 2 [o.a] := rfl
@[simp] theorem slotNames_vlog2 (bays : Bays) (o : VOp) :
    slotNames (.vlog2 bays o) = vNames bays o .vTrans 8 2 [o.a] := rfl
@[simp] theorem slotNames_vrcp (bays : Bays) (o : VOp) :
    slotNames (.vrcp bays o) = vNames bays o .vTrans 8 2 [o.a] := rfl
@[simp] theorem slotNames_vrsqrt (bays : Bays) (o : VOp) :
    slotNames (.vrsqrt bays o) = vNames bays o .vTrans 8 2 [o.a] := rfl
@[simp] theorem slotNames_vsqrt (bays : Bays) (o : VOp) :
    slotNames (.vsqrt bays o) = vNames bays o .vTrans 8 2 [o.a] := rfl
@[simp] theorem slotNames_vtanh (bays : Bays) (o : VOp) :
    slotNames (.vtanh bays o) = vNames bays o .vTrans 8 2 [o.a] := rfl
@[simp] theorem slotNames_vsigm (bays : Bays) (o : VOp) :
    slotNames (.vsigm bays o) = vNames bays o .vTrans 8 2 [o.a] := rfl
@[simp] theorem slotNames_vcvt (bays : Bays) (o : CvOp) :
    slotNames (.vcvt bays o) = cvNames bays o [o.a] := rfl
@[simp] theorem slotNames_vrint (bays : Bays) (o : CvOp) :
    slotNames (.vrint bays o) = cvNames bays o [o.a] := rfl
@[simp] theorem slotNames_vunpk (bays : Bays) (o : CvOp) :
    slotNames (.vunpk bays o) = cvNames bays o [o.a] := rfl
@[simp] theorem slotNames_vpack (bays : Bays) (o : CvOp) :
    slotNames (.vpack bays o) = cvNames bays o [o.a, o.b] := rfl
@[simp] theorem slotNames_scanPsum (bays : Bays) (o : ScOp) :
    slotNames (.scanPsum bays o) = scanNames bays o false := rfl
@[simp] theorem slotNames_scanPmax (bays : Bays) (o : ScOp) :
    slotNames (.scanPmax bays o) = scanNames bays o false := rfl
@[simp] theorem slotNames_scanPmin (bays : Bays) (o : ScOp) :
    slotNames (.scanPmin bays o) = scanNames bays o false := rfl
@[simp] theorem slotNames_scanRsum (bays : Bays) (o : ScOp) :
    slotNames (.scanRsum bays o) = scanNames bays o false := rfl
@[simp] theorem slotNames_scanRmax (bays : Bays) (o : ScOp) :
    slotNames (.scanRmax bays o) = scanNames bays o false := rfl
@[simp] theorem slotNames_scanRmin (bays : Bays) (o : ScOp) :
    slotNames (.scanRmin bays o) = scanNames bays o false := rfl
@[simp] theorem slotNames_scanAmax (bays : Bays) (o : ScOp) :
    slotNames (.scanAmax bays o) = scanNames bays o false := rfl
@[simp] theorem slotNames_scanArgmax (bays : Bays) (o : ScOp) :
    slotNames (.scanArgmax bays o) = scanNames bays o false := rfl
@[simp] theorem slotNames_scanTopk (bays : Bays) (o : ScOp) :
    slotNames (.scanTopk bays o) = scanNames bays o false := rfl
@[simp] theorem slotNames_scanRank (bays : Bays) (o : ScOp) :
    slotNames (.scanRank bays o) = scanNames bays o false := rfl
@[simp] theorem slotNames_scanSpsum (bays : Bays) (o : ScOp) :
    slotNames (.scanSpsum bays o) = scanNames bays o true := rfl
@[simp] theorem slotNames_scanCmpct (bays : Bays) (o : ScOp) :
    slotNames (.scanCmpct bays o) = scanNames bays o true := rfl
@[simp] theorem slotNames_mxPush (bays : Bays) (la : Bool) (lb : Bool) (qa : BitVec 5) (qb : BitVec 5) :
    slotNames (.mxPush bays la lb qa qb) = { ports := [.beat], bays := bays, eat := eatIf la qa 1 ++ eatIf lb qb 2 } := rfl
@[simp] theorem slotNames_mxAcc (bays : Bays) (sa : Bool) (sb : Bool) (qa : BitVec 5) (qb : BitVec 5) (x5 : BitVec 2) :
    slotNames (.mxAcc bays sa sb qa qb x5) = { ports := [.beat], bays := bays, eat := eatIf sa qa 1 ++ eatIf sb qb 2 } := rfl
@[simp] theorem slotNames_mxShift (bays : Bays) (x1 : BitVec 8) (sb : Bool) (qb : BitVec 5) (x4 : BitVec 2) :
    slotNames (.mxShift bays x1 sb qb x4) = { ports := [.beat], bays := bays, eat := eatIf sb qb 2 } := rfl
@[simp] theorem slotNames_mxHold (bays : Bays) (x1 : BitVec 6) :
    slotNames (.mxHold bays x1) = { ports := [.beat], bays := bays } := rfl
@[simp] theorem slotNames_mxDrain (bays : Bays) (qd : BitVec 5) (x2 : Bool) (x3 : Bool) (auto : Bool) (sr : BitVec 6) (x6 : BitVec 8) :
    slotNames (.mxDrain bays qd x2 x3 auto sr x6) = { ports := [.mctl], bays := bays, rd := (if auto then [] else [rS sr]), make := [(bays, qd.toNat, 9)] } := rfl
@[simp] theorem slotNames_mxZero (bays : Bays) (x1 : Bool) (x2 : Bool) (x3 : Bool) :
    slotNames (.mxZero bays x1 x2 x3) = { ports := [.mctl], bays := bays } := rfl
@[simp] theorem slotNames_mxMode (bays : Bays) (x1 : BitVec 4) (x2 : BitVec 4) :
    slotNames (.mxMode bays x1 x2) = { ports := [.mctl], bays := bays } := rfl
@[simp] theorem slotNames_mxScale (bays : Bays) (qsa : BitVec 5) (qsb : BitVec 5) :
    slotNames (.mxScale bays qsa qsb) = { ports := [.mctl], bays := bays, eat := [(qsa.toNat, 1), (qsb.toNat, 2)] } := rfl
@[simp] theorem slotNames_mxSnap (bays : Bays) (x1 : Bool) :
    slotNames (.mxSnap bays x1) = { ports := [.mctl], bays := bays } := rfl
@[simp] theorem slotNames_mxSwap (bays : Bays) :
    slotNames (.mxSwap bays) = { ports := [.mctl], bays := bays } := rfl
@[simp] theorem slotNames_qBind (bays : Bays) (q : BitVec 5) (x2 : BitVec 4) (h : BitVec 4) (a : BitVec 6) (x5 : BitVec 3) (x6 : Bool) (x7 : Bool) :
    slotNames (.qBind bays q x2 h a x5 x6 x7) = { ports := [.stream], bays := bays, rd := [rH h, rS a, rS (a + 1)], binds := [q.toNat] } := rfl
@[simp] theorem slotNames_qUnbind (bays : Bays) (q : BitVec 5) :
    slotNames (.qUnbind bays q) = { ports := [.stream], bays := bays, binds := [q.toNat] } := rfl
@[simp] theorem slotNames_qSkip (bays : Bays) (q : BitVec 5) (x2 : BitVec 8) :
    slotNames (.qSkip bays q x2) = { ports := [.stream], bays := bays, binds := [q.toNat], names := [(q.toNat, anyPort)] } := rfl
@[simp] theorem slotNames_qDrain (bays : Bays) (q : BitVec 5) :
    slotNames (.qDrain bays q) = { ports := [.stream], bays := bays, binds := [q.toNat], names := [(q.toNat, drawPort)] } := rfl
@[simp] theorem slotNames_qRmask (bays : Bays) (q : BitVec 5) (d : BitVec 3) :
    slotNames (.qRmask bays q d) = { ports := [.stream], bays := bays, lat := 2, wr := rm bays d, peek := [(q.toNat, drawPort)] } := rfl
@[simp] theorem slotNames_qXfer (bays : Bays) (qd : BitVec 5) (qs : BitVec 5) (rot : BitVec 3) :
    slotNames (.qXfer bays qd qs rot) = { ports := [.stream], bays := bays, eat := [(qs.toNat, drawPort)], xfer := some (qd.toNat, rot.toNat) } := rfl
@[simp] theorem slotNames_qXferLand (bays : Bays) (qs : BitVec 5) :
    slotNames (.qXferLand bays qs) = { ports := [.stream], bays := bays, make := [(bays, qs.toNat, 13)] } := rfl
@[simp] theorem slotNames_stnLd (bays : Bays) (dir : Bool) (slot : BitVec 7) (a : BitVec 6) :
    slotNames (.stnLd bays dir slot a) = { ports := [.stencil], bays := bays, rd := [rS a], stn := some (128 * b2n dir + slot.toNat) } := rfl
@[simp] theorem slotNames_stnCut (bay : BitVec 3) (dir : Bool) (slot : BitVec 7) (a : BitVec 6) (c : BitVec 6) (x5 : BitVec 4) (x6 : Bool) :
    slotNames (.stnCut bay dir slot a c x5 x6) = { ports := [.stencil], bays := bit8 bay, rd := [rS a, rS c], stn := some (128 * b2n dir + slot.toNat) } := rfl
@[simp] theorem slotNames_stnWait (bay : BitVec 3) (d : BitVec 6) :
    slotNames (.stnWait bay d) = { ports := [.stencil], bays := bit8 bay, lat := 1, wr := [rS d] } := rfl
@[simp] theorem slotNames_stnPasses (bay : BitVec 3) (d : BitVec 6) :
    slotNames (.stnPasses bay d) = { ports := [.stencil], bays := bit8 bay, lat := 1, wr := [rS d] } := rfl
@[simp] theorem slotNames_probe (bay : BitVec 3) (pd : BitVec 4) (d : BitVec 6) (a : BitVec 6) (v : BitVec 6) :
    slotNames (.probe bay pd d a v) = { ports := [.probe], bays := bit8 bay, lat := 2, rd := [rS a, rS v], wr := [rP pd, rS d] } := rfl
@[simp] theorem slotNames_probeInv (bay : BitVec 3) (a : BitVec 6) :
    slotNames (.probeInv bay a) = { ports := [.probe], bays := bit8 bay, rd := [rS a] } := rfl
@[simp] theorem slotNames_probeTag (bay : BitVec 3) (a : BitVec 6) :
    slotNames (.probeTag bay a) = { ports := [.probe], bays := bit8 bay, rd := [rS a] } := rfl
@[simp] theorem slotNames_copy (bay : BitVec 3) (b : BitVec 6) (a : BitVec 6) (n : BitVec 6) (c : BitVec 6) (v : BitVec 6) :
    slotNames (.copy bay b a n c v) = { ports := [.engine], bays := bit8 bay, rd := [rS b, rS a, rS n, rS c, rS v] } := rfl
@[simp] theorem slotNames_copySt (bay : BitVec 3) (b : BitVec 6) (a : BitVec 6) (n : BitVec 6) (c : BitVec 6) (v : BitVec 6) :
    slotNames (.copySt bay b a n c v) = { ports := [.engine], bays := bit8 bay, rd := [rS b, rS a, rS n, rS c, rS v] } := rfl
@[simp] theorem slotNames_pageReq (bay : BitVec 3) (h : BitVec 4) (a : BitVec 6) (c : BitVec 6) (v : BitVec 6) :
    slotNames (.pageReq bay h a c v) = { ports := [.engine], bays := bit8 bay, rd := [rH h, rS a, rS c, rS v] } := rfl
@[simp] theorem slotNames_sumpAdd (bays : Bays) (qi : BitVec 5) (qv : BitVec 5) (x3 : BitVec 4) :
    slotNames (.sumpAdd bays qi qv x3) = { ports := [.sump], bays := bays, eat := [(qi.toNat, 4), (qv.toNat, 4)] } := rfl
@[simp] theorem slotNames_sumpMax (bays : Bays) (qi : BitVec 5) (qv : BitVec 5) (x3 : BitVec 4) :
    slotNames (.sumpMax bays qi qv x3) = { ports := [.sump], bays := bays, eat := [(qi.toNat, 4), (qv.toNat, 4)] } := rfl
@[simp] theorem slotNames_sumpMin (bays : Bays) (qi : BitVec 5) (qv : BitVec 5) (x3 : BitVec 4) :
    slotNames (.sumpMin bays qi qv x3) = { ports := [.sump], bays := bays, eat := [(qi.toNat, 4), (qv.toNat, 4)] } := rfl
@[simp] theorem slotNames_sumpCnt (bays : Bays) (qi : BitVec 5) :
    slotNames (.sumpCnt bays qi) = { ports := [.sump], bays := bays, eat := [(qi.toNat, 4)] } := rfl
@[simp] theorem slotNames_sumpSnap (a : BitVec 6) (c : BitVec 6) (v : BitVec 6) :
    slotNames (.sumpSnap a c v) = { ports := [.sump], bays := 0xFF, rd := [rS a, rS c, rS v] } := rfl
@[simp] theorem slotNames_sumpRd (q : BitVec 5) (x1 : BitVec 4) :
    slotNames (.sumpRd q x1) = { ports := [.sump], bays := 0xFF, rdMake := some q.toNat } := rfl
@[simp] theorem slotNames_sumpClr :
    slotNames .sumpClr = { ports := [.sump], bays := 0xFF } := rfl
@[simp] theorem slotNames_pumpLd (a : BitVec 6) (b : BitVec 6) :
    slotNames (.pumpLd a b) = { ports := [.pump], rd := [rS a, rS b] } := rfl
@[simp] theorem slotNames_pumpIdle (a : BitVec 6) (b : BitVec 6) :
    slotNames (.pumpIdle a b) = { ports := [.pump], rd := [rS a, rS b] } := rfl
@[simp] theorem slotNames_pumpGo (a : BitVec 6) :
    slotNames (.pumpGo a) = { ports := [.pump], rd := [rS a] } := rfl
@[simp] theorem slotNames_pumpDead (h : BitVec 4) (a : BitVec 6) :
    slotNames (.pumpDead h a) = { ports := [.pump], rd := [rH h, rS a] } := rfl
@[simp] theorem slotNames_pumpStat (d : BitVec 6) :
    slotNames (.pumpStat d) = { ports := [.pump], lat := 1, wr := [rS d] } := rfl
@[simp] theorem slotNames_pumpActr (d : BitVec 6) (a : BitVec 6) (x2 : Bool) :
    slotNames (.pumpActr d a x2) = { ports := [.pump], sys := 1, lat := 1, rd := [rS a], wr := [rS d] } := rfl
@[simp] theorem slotNames_nmFence (d : BitVec 6) :
    slotNames (.nmFence d) = { ports := [.pump], lat := 1, wr := [rS d] } := rfl
@[simp] theorem slotNames_nmStat (d : BitVec 6) (x1 : BitVec 2) :
    slotNames (.nmStat d x1) = { ports := [.pump], lat := 1, wr := [rS d] } := rfl
@[simp] theorem slotNames_waitA (d : BitVec 6) (a : BitVec 6) (v : BitVec 6) (x3 : BitVec 2) :
    slotNames (.waitA d a v x3) = { ports := [.sync], lat := 1, rd := [rS a, rS v], wr := [rS d] } := rfl
@[simp] theorem slotNames_fence (x0 : Bool) (x1 : Bool) (x2 : Bool) (x3 : Bool) :
    slotNames (.fence x0 x1 x2 x3) = { ports := [.sync] } := rfl
@[simp] theorem slotNames_fenceRc (d : BitVec 6) :
    slotNames (.fenceRc d) = { ports := [.sync], lat := 1, wr := [rS d] } := rfl
@[simp] theorem slotNames_publish (d : BitVec 6) (a : BitVec 6) :
    slotNames (.publish d a) = { ports := [.sync], lat := 1, rd := [rS a], wr := [rS d] } := rfl
@[simp] theorem slotNames_shadow (d : BitVec 6) (a : BitVec 6) (n : BitVec 6) :
    slotNames (.shadow d a n) = { ports := [.sync], lat := 1, rd := [rS a, rS n], wr := [rS d] } := rfl
@[simp] theorem slotNames_shadowFree (a : BitVec 6) :
    slotNames (.shadowFree a) = { ports := [.sync], rd := [rS a] } := rfl
@[simp] theorem slotNames_qwait (d : BitVec 6) (x1 : BitVec 4) :
    slotNames (.qwait d x1) = { ports := [.sync], lat := 1, wr := [rS d] } := rfl
@[simp] theorem slotNames_bar (a : BitVec 6) :
    slotNames (.bar a) = { ports := [.sync], rd := [rS a] } := rfl
@[simp] theorem slotNames_realign (d : BitVec 6) :
    slotNames (.realign d) = { ports := [.sync], sys := 1, lat := 1, wr := [rS d] } := rfl
@[simp] theorem slotNames_rdgtc (d : BitVec 6) :
    slotNames (.rdgtc d) = { ports := [.sync], lat := 1, wr := [rS d] } := rfl
@[simp] theorem slotNames_goWait (d : BitVec 6) :
    slotNames (.goWait d) = { ports := [.sync], lat := 1, wr := [rS d] } := rfl
@[simp] theorem slotNames_csrr (d : BitVec 6) (csr : BitVec 12) :
    slotNames (.csrr d csr) = { ports := [.sync], sys := csrLevel csr.toNat, lat := 1, wr := [rS d] } := rfl
@[simp] theorem slotNames_csrw (d : BitVec 6) (a : BitVec 6) (csr : BitVec 12) :
    slotNames (.csrw d a csr) = { ports := [.sync], sys := csrLevel csr.toNat, lat := 1, rd := [rS a], wr := [rS d], csr := some csr.toNat } := rfl
@[simp] theorem slotNames_csrs (d : BitVec 6) (a : BitVec 6) (csr : BitVec 12) :
    slotNames (.csrs d a csr) = { ports := [.sync], sys := csrLevel csr.toNat, lat := 1, rd := [rS a], wr := [rS d], csr := some csr.toNat } := rfl
@[simp] theorem slotNames_csrc (d : BitVec 6) (a : BitVec 6) (csr : BitVec 12) :
    slotNames (.csrc d a csr) = { ports := [.sync], sys := csrLevel csr.toNat, lat := 1, rd := [rS a], wr := [rS d], csr := some csr.toNat } := rfl
@[simp] theorem slotNames_trap (x0 : BitVec 16) :
    slotNames (.trap x0) = { ports := [.sync] } := rfl
@[simp] theorem slotNames_tlbSync (a : BitVec 6) :
    slotNames (.tlbSync a) = { ports := [.sync], sys := 1, rd := [rS a] } := rfl
@[simp] theorem slotNames_domsw (a : BitVec 6) :
    slotNames (.domsw a) = { ports := [.sync], sys := 1, rd := [rS a] } := rfl
@[simp] theorem slotNames_dbrk (x0 : BitVec 16) :
    slotNames (.dbrk x0) = { ports := [.sync] } := rfl

theorem vNames_make {bays : Bays} {o : VOp} {p : UPort} {lat k : Nat} {src : List (BitVec 8)}
    (h : (vNames bays o p lat k src).make = []) : fieldStream o.d = none := by
  cases hd : fieldStream o.d with
  | none => rfl
  | some q => simp [vNames, hd] at h

end Sys2Proof.Machine
end

