-- ==== Sys2Proof/Laws/PerInstr.lean ====
section
/-!
SUPPORT. Per instruction: an instruction is coded in one space of words at most, as a slot word, as a pump word, or as a
command of the host (R55, R222, R414).
-/

namespace Sys2Proof.Laws.OneSpace

/-- Of the three encoders two at least give the instruction no word. -/
def Statement (i : Instr) : Prop :=
  (encodeSlot i = none ∨ encodePump i = none) ∧ (encodeSlot i = none ∨ encodeCommand i = none) ∧
    (encodePump i = none ∨ encodeCommand i = none)

theorem segmentExpansionDone (x0) : Statement (.segmentExpansionDone x0) := ⟨.inr rfl, .inr rfl, .inl rfl⟩
theorem timelineResultLanding (x0) : Statement (.timelineResultLanding x0) := ⟨.inr rfl, .inr rfl, .inl rfl⟩
theorem streamEntryArrival (x0 x1 x2) : Statement (.streamEntryArrival x0 x1 x2) := ⟨.inr rfl, .inr rfl, .inl rfl⟩
theorem pourBankWrite (x0) : Statement (.pourBankWrite x0) := ⟨.inr rfl, .inr rfl, .inl rfl⟩
theorem mxStepLanding (x0) : Statement (.mxStepLanding x0) := ⟨.inr rfl, .inr rfl, .inl rfl⟩
theorem mxModePartialClear (x0 x1 x2) : Statement (.mxModePartialClear x0 x1 x2) := ⟨.inr rfl, .inr rfl, .inl rfl⟩
theorem mxDrainPresent (x0 x1 x2) : Statement (.mxDrainPresent x0 x1 x2) := ⟨.inr rfl, .inr rfl, .inl rfl⟩
theorem mxSnapTargetWrite (x0 x1 x2 x3) : Statement (.mxSnapTargetWrite x0 x1 x2 x3) := ⟨.inr rfl, .inr rfl, .inl rfl⟩
theorem xferDelivery (x0 x1 x2) : Statement (.xferDelivery x0 x1 x2) := ⟨.inr rfl, .inr rfl, .inl rfl⟩
theorem routingCounterUpdate (x0) : Statement (.routingCounterUpdate x0) := ⟨.inr rfl, .inr rfl, .inl rfl⟩
theorem combiningEntryClose (x0) : Statement (.combiningEntryClose x0) := ⟨.inr rfl, .inr rfl, .inl rfl⟩
theorem ringLock (x0 x1) : Statement (.ringLock x0 x1) := ⟨.inr rfl, .inr rfl, .inl rfl⟩
theorem rotaSlotStart (x0) : Statement (.rotaSlotStart x0) := ⟨.inr rfl, .inr rfl, .inl rfl⟩
theorem laserRemoval (x0) : Statement (.laserRemoval x0) := ⟨.inr rfl, .inr rfl, .inl rfl⟩
theorem laserInsertion (x0) : Statement (.laserInsertion x0) := ⟨.inr rfl, .inr rfl, .inl rfl⟩
theorem portGateWrite (x0 x1) : Statement (.portGateWrite x0 x1) := ⟨.inr rfl, .inr rfl, .inl rfl⟩
theorem portGated (x0) : Statement (.portGated x0) := ⟨.inr rfl, .inr rfl, .inl rfl⟩
theorem fabctlModeWrite (x0) : Statement (.fabctlModeWrite x0) := ⟨.inr rfl, .inr rfl, .inl rfl⟩
theorem loopLevelWrite (x0 x1) : Statement (.loopLevelWrite x0 x1) := ⟨.inr rfl, .inr rfl, .inl rfl⟩
theorem registerWrite (x0 x1 x2) : Statement (.registerWrite x0 x1 x2) := ⟨.inr rfl, .inr rfl, .inl rfl⟩
theorem spanSlot (x0) : Statement (.spanSlot x0) := ⟨.inr rfl, .inr rfl, .inl rfl⟩
theorem spanEntryArrival (x0 x1) : Statement (.spanEntryArrival x0 x1) := ⟨.inr rfl, .inr rfl, .inl rfl⟩
theorem spanSlip (x0 x1 x2) : Statement (.spanSlip x0 x1 x2) := ⟨.inr rfl, .inr rfl, .inl rfl⟩
theorem act (x0 x1) : Statement (.act x0 x1) := ⟨.inl rfl, .inl rfl, .inr rfl⟩
theorem rd (x0 x1 x2) : Statement (.rd x0 x1 x2) := ⟨.inl rfl, .inl rfl, .inr rfl⟩
theorem wr (x0 x1 x2) : Statement (.wr x0 x1 x2) := ⟨.inl rfl, .inl rfl, .inr rfl⟩
theorem pre (x0) : Statement (.pre x0) := ⟨.inl rfl, .inl rfl, .inr rfl⟩
theorem prea (x0) : Statement (.prea x0) := ⟨.inl rfl, .inl rfl, .inr rfl⟩
theorem refr (x0 x1) : Statement (.refr x0 x1) := ⟨.inl rfl, .inl rfl, .inr rfl⟩
theorem nmcFade (x0) : Statement (.nmcFade x0) := ⟨.inl rfl, .inl rfl, .inr rfl⟩
theorem nmcAxpy (x0) : Statement (.nmcAxpy x0) := ⟨.inl rfl, .inl rfl, .inr rfl⟩
theorem nmcAdd (x0) : Statement (.nmcAdd x0) := ⟨.inl rfl, .inl rfl, .inr rfl⟩
theorem nmcScale (x0) : Statement (.nmcScale x0) := ⟨.inl rfl, .inl rfl, .inr rfl⟩
theorem nmcFill (x0) : Statement (.nmcFill x0) := ⟨.inl rfl, .inl rfl, .inr rfl⟩
theorem scrubRead (x0) : Statement (.scrubRead x0) := ⟨.inr rfl, .inr rfl, .inl rfl⟩
theorem laneReplacementDone (x0) : Statement (.laneReplacementDone x0) := ⟨.inr rfl, .inr rfl, .inl rfl⟩
theorem islandFailure (x0) : Statement (.islandFailure x0) := ⟨.inr rfl, .inr rfl, .inl rfl⟩
theorem hostDoorbellWrite (x0 x1) : Statement (.hostDoorbellWrite x0 x1) := ⟨.inr rfl, .inr rfl, .inl rfl⟩
theorem sliceEnd (x0) : Statement (.sliceEnd x0) := ⟨.inr rfl, .inr rfl, .inl rfl⟩
theorem contextSaveComplete (x0) : Statement (.contextSaveComplete x0) := ⟨.inr rfl, .inr rfl, .inl rfl⟩
theorem contextRestore (x0) : Statement (.contextRestore x0) := ⟨.inr rfl, .inr rfl, .inl rfl⟩
theorem powerOn (x0) : Statement (.powerOn x0) := ⟨.inr rfl, .inr rfl, .inl rfl⟩
theorem qset (x0 x1 x2 x3) : Statement (.qset x0 x1 x2 x3) := ⟨.inl rfl, .inl rfl, .inl rfl⟩
theorem ctxset (x0 x1) : Statement (.ctxset x0 x1) := ⟨.inl rfl, .inl rfl, .inl rfl⟩
theorem region (x0 x1 x2 x3) : Statement (.region x0 x1 x2 x3) := ⟨.inl rfl, .inl rfl, .inl rfl⟩
theorem tier (x0 x1) : Statement (.tier x0 x1) := ⟨.inl rfl, .inl rfl, .inl rfl⟩
theorem tierMigration (x0 x1 x2 x3) : Statement (.tierMigration x0 x1 x2 x3) := ⟨.inl rfl, .inl rfl, .inl rfl⟩
theorem recover (x0 x1) : Statement (.recover x0 x1) := ⟨.inl rfl, .inl rfl, .inl rfl⟩
theorem faults (x0 x1) : Statement (.faults x0 x1) := ⟨.inl rfl, .inl rfl, .inl rfl⟩
theorem resync (x0) : Statement (.resync x0) := ⟨.inl rfl, .inl rfl, .inl rfl⟩
theorem retireDie (x0) : Statement (.retireDie x0) := ⟨.inl rfl, .inl rfl, .inl rfl⟩
theorem retireBank (x0 x1 x2) : Statement (.retireBank x0 x1 x2) := ⟨.inl rfl, .inl rfl, .inl rfl⟩
theorem fwload (x0 x1) : Statement (.fwload x0 x1) := ⟨.inl rfl, .inl rfl, .inl rfl⟩
theorem attest (x0 x1 x2 x3 x4) : Statement (.attest x0 x1 x2 x3 x4) := ⟨.inl rfl, .inl rfl, .inl rfl⟩
theorem domainJoin (x0) : Statement (.domainJoin x0) := ⟨.inl rfl, .inl rfl, .inl rfl⟩
theorem domainLeave (x0) : Statement (.domainLeave x0) := ⟨.inl rfl, .inl rfl, .inl rfl⟩
theorem pcap (x0) : Statement (.pcap x0) := ⟨.inl rfl, .inl rfl, .inl rfl⟩
theorem br (x0) : Statement (.br x0) := ⟨.inr rfl, .inr rfl, .inl rfl⟩
theorem brv (x0 x1 x2 x3 x4) : Statement (.brv x0 x1 x2 x3 x4) := ⟨.inr rfl, .inr rfl, .inl rfl⟩
theorem jseg (x0 x1) : Statement (.jseg x0 x1) := ⟨.inr rfl, .inr rfl, .inl rfl⟩
theorem loop (x0 x1 x2 x3 x4) : Statement (.loop x0 x1 x2 x3 x4) := ⟨.inr rfl, .inr rfl, .inl rfl⟩
theorem lbrk (x0) : Statement (.lbrk x0) := ⟨.inr rfl, .inr rfl, .inl rfl⟩
theorem lcont (x0) : Statement (.lcont x0) := ⟨.inr rfl, .inr rfl, .inl rfl⟩
theorem exit (x0) : Statement (.exit x0) := ⟨.inr rfl, .inr rfl, .inl rfl⟩
theorem tret (x0 x1) : Statement (.tret x0 x1) := ⟨.inr rfl, .inr rfl, .inl rfl⟩
theorem add (x0 x1 x2) : Statement (.add x0 x1 x2) := ⟨.inr rfl, .inr rfl, .inl rfl⟩
theorem sub (x0 x1 x2) : Statement (.sub x0 x1 x2) := ⟨.inr rfl, .inr rfl, .inl rfl⟩
theorem and (x0 x1 x2) : Statement (.and x0 x1 x2) := ⟨.inr rfl, .inr rfl, .inl rfl⟩
theorem or (x0 x1 x2) : Statement (.or x0 x1 x2) := ⟨.inr rfl, .inr rfl, .inl rfl⟩
theorem xor (x0 x1 x2) : Statement (.xor x0 x1 x2) := ⟨.inr rfl, .inr rfl, .inl rfl⟩
theorem andn (x0 x1 x2) : Statement (.andn x0 x1 x2) := ⟨.inr rfl, .inr rfl, .inl rfl⟩
theorem shl (x0 x1 x2) : Statement (.shl x0 x1 x2) := ⟨.inr rfl, .inr rfl, .inl rfl⟩
theorem shr (x0 x1 x2) : Statement (.shr x0 x1 x2) := ⟨.inr rfl, .inr rfl, .inl rfl⟩
theorem sar (x0 x1 x2) : Statement (.sar x0 x1 x2) := ⟨.inr rfl, .inr rfl, .inl rfl⟩
theorem min (x0 x1 x2) : Statement (.min x0 x1 x2) := ⟨.inr rfl, .inr rfl, .inl rfl⟩
theorem max (x0 x1 x2) : Statement (.max x0 x1 x2) := ⟨.inr rfl, .inr rfl, .inl rfl⟩
theorem minu (x0 x1 x2) : Statement (.minu x0 x1 x2) := ⟨.inr rfl, .inr rfl, .inl rfl⟩
theorem maxu (x0 x1 x2) : Statement (.maxu x0 x1 x2) := ⟨.inr rfl, .inr rfl, .inl rfl⟩
theorem clz (x0 x1) : Statement (.clz x0 x1) := ⟨.inr rfl, .inr rfl, .inl rfl⟩
theorem popc (x0 x1) : Statement (.popc x0 x1) := ⟨.inr rfl, .inr rfl, .inl rfl⟩
theorem sel (x0 x1 x2 x3) : Statement (.sel x0 x1 x2 x3) := ⟨.inr rfl, .inr rfl, .inl rfl⟩
theorem addi (x0 x1 x2) : Statement (.addi x0 x1 x2) := ⟨.inr rfl, .inr rfl, .inl rfl⟩
theorem andi (x0 x1 x2) : Statement (.andi x0 x1 x2) := ⟨.inr rfl, .inr rfl, .inl rfl⟩
theorem ori (x0 x1 x2) : Statement (.ori x0 x1 x2) := ⟨.inr rfl, .inr rfl, .inl rfl⟩
theorem xori (x0 x1 x2) : Statement (.xori x0 x1 x2) := ⟨.inr rfl, .inr rfl, .inl rfl⟩
theorem shli (x0 x1 x2) : Statement (.shli x0 x1 x2) := ⟨.inr rfl, .inr rfl, .inl rfl⟩
theorem shri (x0 x1 x2) : Statement (.shri x0 x1 x2) := ⟨.inr rfl, .inr rfl, .inl rfl⟩
theorem sari (x0 x1 x2) : Statement (.sari x0 x1 x2) := ⟨.inr rfl, .inr rfl, .inl rfl⟩
theorem movi (x0 x1) : Statement (.movi x0 x1) := ⟨.inr rfl, .inr rfl, .inl rfl⟩
theorem movhi (x0 x1 x2 x3) : Statement (.movhi x0 x1 x2 x3) := ⟨.inr rfl, .inr rfl, .inl rfl⟩
theorem mul (x0 x1 x2) : Statement (.mul x0 x1 x2) := ⟨.inr rfl, .inr rfl, .inl rfl⟩
theorem mulh (x0 x1 x2) : Statement (.mulh x0 x1 x2) := ⟨.inr rfl, .inr rfl, .inl rfl⟩
theorem mulhu (x0 x1 x2) : Statement (.mulhu x0 x1 x2) := ⟨.inr rfl, .inr rfl, .inl rfl⟩
theorem cmpEq (x0 x1 x2 x3) : Statement (.cmpEq x0 x1 x2 x3) := ⟨.inr rfl, .inr rfl, .inl rfl⟩
theorem cmpNe (x0 x1 x2 x3) : Statement (.cmpNe x0 x1 x2 x3) := ⟨.inr rfl, .inr rfl, .inl rfl⟩
theorem cmpLt (x0 x1 x2 x3) : Statement (.cmpLt x0 x1 x2 x3) := ⟨.inr rfl, .inr rfl, .inl rfl⟩
theorem cmpLtu (x0 x1 x2 x3) : Statement (.cmpLtu x0 x1 x2 x3) := ⟨.inr rfl, .inr rfl, .inl rfl⟩
theorem cmpLe (x0 x1 x2 x3) : Statement (.cmpLe x0 x1 x2 x3) := ⟨.inr rfl, .inr rfl, .inl rfl⟩
theorem cmpLeu (x0 x1 x2 x3) : Statement (.cmpLeu x0 x1 x2 x3) := ⟨.inr rfl, .inr rfl, .inl rfl⟩
theorem cmpiEq (x0 x1 x2 x3) : Statement (.cmpiEq x0 x1 x2 x3) := ⟨.inr rfl, .inr rfl, .inl rfl⟩
theorem cmpiLt (x0 x1 x2 x3) : Statement (.cmpiLt x0 x1 x2 x3) := ⟨.inr rfl, .inr rfl, .inl rfl⟩
theorem pand (x0) : Statement (.pand x0) := ⟨.inr rfl, .inr rfl, .inl rfl⟩
theorem por (x0) : Statement (.por x0) := ⟨.inr rfl, .inr rfl, .inl rfl⟩
theorem pxor (x0) : Statement (.pxor x0) := ⟨.inr rfl, .inr rfl, .inl rfl⟩
theorem pandn (x0) : Statement (.pandn x0) := ⟨.inr rfl, .inr rfl, .inl rfl⟩
theorem pmovsToScalar (x0) : Statement (.pmovsToScalar x0) := ⟨.inr rfl, .inr rfl, .inl rfl⟩
theorem pmovsFromScalar (x0) : Statement (.pmovsFromScalar x0) := ⟨.inr rfl, .inr rfl, .inl rfl⟩
theorem fadd (x0) : Statement (.fadd x0) := ⟨.inr rfl, .inr rfl, .inl rfl⟩
theorem fsub (x0) : Statement (.fsub x0) := ⟨.inr rfl, .inr rfl, .inl rfl⟩
theorem fmul (x0) : Statement (.fmul x0) := ⟨.inr rfl, .inr rfl, .inl rfl⟩
theorem ffma (x0) : Statement (.ffma x0) := ⟨.inr rfl, .inr rfl, .inl rfl⟩
theorem fmin (x0) : Statement (.fmin x0) := ⟨.inr rfl, .inr rfl, .inl rfl⟩
theorem fmax (x0) : Statement (.fmax x0) := ⟨.inr rfl, .inr rfl, .inl rfl⟩
theorem fcmp (x0) : Statement (.fcmp x0) := ⟨.inr rfl, .inr rfl, .inl rfl⟩
theorem fcvt (x0) : Statement (.fcvt x0) := ⟨.inr rfl, .inr rfl, .inl rfl⟩
theorem ld (x0) : Statement (.ld x0) := ⟨.inr rfl, .inr rfl, .inl rfl⟩
theorem st (x0) : Statement (.st x0) := ⟨.inr rfl, .inr rfl, .inl rfl⟩
theorem lds (x0) : Statement (.lds x0) := ⟨.inr rfl, .inr rfl, .inl rfl⟩
theorem chk (x0) : Statement (.chk x0) := ⟨.inr rfl, .inr rfl, .inl rfl⟩
theorem signal (x0 x1 x2) : Statement (.signal x0 x1 x2) := ⟨.inr rfl, .inr rfl, .inl rfl⟩
theorem hld (x0 x1 x2) : Statement (.hld x0 x1 x2) := ⟨.inr rfl, .inr rfl, .inl rfl⟩
theorem hst (x0 x1 x2) : Statement (.hst x0 x1 x2) := ⟨.inr rfl, .inr rfl, .inl rfl⟩
theorem hset (x0 x1 x2 x3) : Statement (.hset x0 x1 x2 x3) := ⟨.inr rfl, .inr rfl, .inl rfl⟩
theorem hget (x0 x1 x2) : Statement (.hget x0 x1 x2) := ⟨.inr rfl, .inr rfl, .inl rfl⟩
theorem hmov (x0 x1) : Statement (.hmov x0 x1) := ⟨.inr rfl, .inr rfl, .inl rfl⟩
theorem vadd (x0 x1) : Statement (.vadd x0 x1) := ⟨.inr rfl, .inr rfl, .inl rfl⟩
theorem vsub (x0 x1) : Statement (.vsub x0 x1) := ⟨.inr rfl, .inr rfl, .inl rfl⟩
theorem vmin (x0 x1) : Statement (.vmin x0 x1) := ⟨.inr rfl, .inr rfl, .inl rfl⟩
theorem vmax (x0 x1) : Statement (.vmax x0 x1) := ⟨.inr rfl, .inr rfl, .inl rfl⟩
theorem vabs (x0 x1) : Statement (.vabs x0 x1) := ⟨.inr rfl, .inr rfl, .inl rfl⟩
theorem vneg (x0 x1) : Statement (.vneg x0 x1) := ⟨.inr rfl, .inr rfl, .inl rfl⟩
theorem vand (x0 x1) : Statement (.vand x0 x1) := ⟨.inr rfl, .inr rfl, .inl rfl⟩
theorem vor (x0 x1) : Statement (.vor x0 x1) := ⟨.inr rfl, .inr rfl, .inl rfl⟩
theorem vxor (x0 x1) : Statement (.vxor x0 x1) := ⟨.inr rfl, .inr rfl, .inl rfl⟩
theorem vandn (x0 x1) : Statement (.vandn x0 x1) := ⟨.inr rfl, .inr rfl, .inl rfl⟩
theorem vshl (x0 x1) : Statement (.vshl x0 x1) := ⟨.inr rfl, .inr rfl, .inl rfl⟩
theorem vshr (x0 x1) : Statement (.vshr x0 x1) := ⟨.inr rfl, .inr rfl, .inl rfl⟩
theorem vsar (x0 x1) : Statement (.vsar x0 x1) := ⟨.inr rfl, .inr rfl, .inl rfl⟩
theorem vmov (x0 x1) : Statement (.vmov x0 x1) := ⟨.inr rfl, .inr rfl, .inl rfl⟩
theorem vsel (x0 x1) : Statement (.vsel x0 x1) := ⟨.inr rfl, .inr rfl, .inl rfl⟩
theorem vcmpEq (x0 x1) : Statement (.vcmpEq x0 x1) := ⟨.inr rfl, .inr rfl, .inl rfl⟩
theorem vcmpNe (x0 x1) : Statement (.vcmpNe x0 x1) := ⟨.inr rfl, .inr rfl, .inl rfl⟩
theorem vcmpLt (x0 x1) : Statement (.vcmpLt x0 x1) := ⟨.inr rfl, .inr rfl, .inl rfl⟩
theorem vcmpLe (x0 x1) : Statement (.vcmpLe x0 x1) := ⟨.inr rfl, .inr rfl, .inl rfl⟩
theorem vcmpUn (x0 x1) : Statement (.vcmpUn x0 x1) := ⟨.inr rfl, .inr rfl, .inl rfl⟩
theorem vmand (x0 x1 x2 x3) : Statement (.vmand x0 x1 x2 x3) := ⟨.inr rfl, .inr rfl, .inl rfl⟩
theorem vmor (x0 x1 x2 x3) : Statement (.vmor x0 x1 x2 x3) := ⟨.inr rfl, .inr rfl, .inl rfl⟩
theorem vmxor (x0 x1 x2 x3) : Statement (.vmxor x0 x1 x2 x3) := ⟨.inr rfl, .inr rfl, .inl rfl⟩
theorem vmandn (x0 x1 x2 x3) : Statement (.vmandn x0 x1 x2 x3) := ⟨.inr rfl, .inr rfl, .inl rfl⟩
theorem vmset (x0 x1 x2) : Statement (.vmset x0 x1 x2) := ⟨.inr rfl, .inr rfl, .inl rfl⟩
theorem vmul (x0 x1) : Statement (.vmul x0 x1) := ⟨.inr rfl, .inr rfl, .inl rfl⟩
theorem vfma (x0 x1) : Statement (.vfma x0 x1) := ⟨.inr rfl, .inr rfl, .inl rfl⟩
theorem vfms (x0 x1) : Statement (.vfms x0 x1) := ⟨.inr rfl, .inr rfl, .inl rfl⟩
theorem vfnma (x0 x1) : Statement (.vfnma x0 x1) := ⟨.inr rfl, .inr rfl, .inl rfl⟩
theorem vexp2 (x0 x1) : Statement (.vexp2 x0 x1) := ⟨.inr rfl, .inr rfl, .inl rfl⟩
theorem vlog2 (x0 x1) : Statement (.vlog2 x0 x1) := ⟨.inr rfl, .inr rfl, .inl rfl⟩
theorem vrcp (x0 x1) : Statement (.vrcp x0 x1) := ⟨.inr rfl, .inr rfl, .inl rfl⟩
theorem vrsqrt (x0 x1) : Statement (.vrsqrt x0 x1) := ⟨.inr rfl, .inr rfl, .inl rfl⟩
theorem vsqrt (x0 x1) : Statement (.vsqrt x0 x1) := ⟨.inr rfl, .inr rfl, .inl rfl⟩
theorem vtanh (x0 x1) : Statement (.vtanh x0 x1) := ⟨.inr rfl, .inr rfl, .inl rfl⟩
theorem vsigm (x0 x1) : Statement (.vsigm x0 x1) := ⟨.inr rfl, .inr rfl, .inl rfl⟩
theorem vcvt (x0 x1) : Statement (.vcvt x0 x1) := ⟨.inr rfl, .inr rfl, .inl rfl⟩
theorem vrint (x0 x1) : Statement (.vrint x0 x1) := ⟨.inr rfl, .inr rfl, .inl rfl⟩
theorem vpack (x0 x1) : Statement (.vpack x0 x1) := ⟨.inr rfl, .inr rfl, .inl rfl⟩
theorem vunpk (x0 x1) : Statement (.vunpk x0 x1) := ⟨.inr rfl, .inr rfl, .inl rfl⟩
theorem scanPsum (x0 x1) : Statement (.scanPsum x0 x1) := ⟨.inr rfl, .inr rfl, .inl rfl⟩
theorem scanPmax (x0 x1) : Statement (.scanPmax x0 x1) := ⟨.inr rfl, .inr rfl, .inl rfl⟩
theorem scanPmin (x0 x1) : Statement (.scanPmin x0 x1) := ⟨.inr rfl, .inr rfl, .inl rfl⟩
theorem scanSpsum (x0 x1) : Statement (.scanSpsum x0 x1) := ⟨.inr rfl, .inr rfl, .inl rfl⟩
theorem scanRsum (x0 x1) : Statement (.scanRsum x0 x1) := ⟨.inr rfl, .inr rfl, .inl rfl⟩
theorem scanRmax (x0 x1) : Statement (.scanRmax x0 x1) := ⟨.inr rfl, .inr rfl, .inl rfl⟩
theorem scanRmin (x0 x1) : Statement (.scanRmin x0 x1) := ⟨.inr rfl, .inr rfl, .inl rfl⟩
theorem scanAmax (x0 x1) : Statement (.scanAmax x0 x1) := ⟨.inr rfl, .inr rfl, .inl rfl⟩
theorem scanCmpct (x0 x1) : Statement (.scanCmpct x0 x1) := ⟨.inr rfl, .inr rfl, .inl rfl⟩
theorem scanArgmax (x0 x1) : Statement (.scanArgmax x0 x1) := ⟨.inr rfl, .inr rfl, .inl rfl⟩
theorem scanTopk (x0 x1) : Statement (.scanTopk x0 x1) := ⟨.inr rfl, .inr rfl, .inl rfl⟩
theorem scanRank (x0 x1) : Statement (.scanRank x0 x1) := ⟨.inr rfl, .inr rfl, .inl rfl⟩
theorem mxPush (x0 x1 x2 x3 x4) : Statement (.mxPush x0 x1 x2 x3 x4) := ⟨.inr rfl, .inr rfl, .inl rfl⟩
theorem mxAcc (x0 x1 x2 x3 x4 x5) : Statement (.mxAcc x0 x1 x2 x3 x4 x5) := ⟨.inr rfl, .inr rfl, .inl rfl⟩
theorem mxShift (x0 x1 x2 x3 x4) : Statement (.mxShift x0 x1 x2 x3 x4) := ⟨.inr rfl, .inr rfl, .inl rfl⟩
theorem mxHold (x0 x1) : Statement (.mxHold x0 x1) := ⟨.inr rfl, .inr rfl, .inl rfl⟩
theorem mxDrain (x0 x1 x2 x3 x4 x5 x6) : Statement (.mxDrain x0 x1 x2 x3 x4 x5 x6) := ⟨.inr rfl, .inr rfl, .inl rfl⟩
theorem mxZero (x0 x1 x2 x3) : Statement (.mxZero x0 x1 x2 x3) := ⟨.inr rfl, .inr rfl, .inl rfl⟩
theorem mxMode (x0 x1 x2) : Statement (.mxMode x0 x1 x2) := ⟨.inr rfl, .inr rfl, .inl rfl⟩
theorem mxScale (x0 x1 x2) : Statement (.mxScale x0 x1 x2) := ⟨.inr rfl, .inr rfl, .inl rfl⟩
theorem mxSnap (x0 x1) : Statement (.mxSnap x0 x1) := ⟨.inr rfl, .inr rfl, .inl rfl⟩
theorem mxSwap (x0) : Statement (.mxSwap x0) := ⟨.inr rfl, .inr rfl, .inl rfl⟩
theorem qBind (x0 x1 x2 x3 x4 x5 x6 x7) : Statement (.qBind x0 x1 x2 x3 x4 x5 x6 x7) := ⟨.inr rfl, .inr rfl, .inl rfl⟩
theorem qUnbind (x0 x1) : Statement (.qUnbind x0 x1) := ⟨.inr rfl, .inr rfl, .inl rfl⟩
theorem qSkip (x0 x1 x2) : Statement (.qSkip x0 x1 x2) := ⟨.inr rfl, .inr rfl, .inl rfl⟩
theorem qRmask (x0 x1 x2) : Statement (.qRmask x0 x1 x2) := ⟨.inr rfl, .inr rfl, .inl rfl⟩
theorem qXfer (x0 x1 x2 x3) : Statement (.qXfer x0 x1 x2 x3) := ⟨.inr rfl, .inr rfl, .inl rfl⟩
theorem qXferLand (x0 x1) : Statement (.qXferLand x0 x1) := ⟨.inr rfl, .inr rfl, .inl rfl⟩
theorem qDrain (x0 x1) : Statement (.qDrain x0 x1) := ⟨.inr rfl, .inr rfl, .inl rfl⟩
theorem stnLd (x0 x1 x2 x3) : Statement (.stnLd x0 x1 x2 x3) := ⟨.inr rfl, .inr rfl, .inl rfl⟩
theorem stnCut (x0 x1 x2 x3 x4 x5 x6) : Statement (.stnCut x0 x1 x2 x3 x4 x5 x6) := ⟨.inr rfl, .inr rfl, .inl rfl⟩
theorem stnWait (x0 x1) : Statement (.stnWait x0 x1) := ⟨.inr rfl, .inr rfl, .inl rfl⟩
theorem stnPasses (x0 x1) : Statement (.stnPasses x0 x1) := ⟨.inr rfl, .inr rfl, .inl rfl⟩
theorem probe (x0 x1 x2 x3 x4) : Statement (.probe x0 x1 x2 x3 x4) := ⟨.inr rfl, .inr rfl, .inl rfl⟩
theorem probeInv (x0 x1) : Statement (.probeInv x0 x1) := ⟨.inr rfl, .inr rfl, .inl rfl⟩
theorem probeTag (x0 x1) : Statement (.probeTag x0 x1) := ⟨.inr rfl, .inr rfl, .inl rfl⟩
theorem copy (x0 x1 x2 x3 x4 x5) : Statement (.copy x0 x1 x2 x3 x4 x5) := ⟨.inr rfl, .inr rfl, .inl rfl⟩
theorem copySt (x0 x1 x2 x3 x4 x5) : Statement (.copySt x0 x1 x2 x3 x4 x5) := ⟨.inr rfl, .inr rfl, .inl rfl⟩
theorem pageReq (x0 x1 x2 x3 x4) : Statement (.pageReq x0 x1 x2 x3 x4) := ⟨.inr rfl, .inr rfl, .inl rfl⟩
theorem sumpAdd (x0 x1 x2 x3) : Statement (.sumpAdd x0 x1 x2 x3) := ⟨.inr rfl, .inr rfl, .inl rfl⟩
theorem sumpMax (x0 x1 x2 x3) : Statement (.sumpMax x0 x1 x2 x3) := ⟨.inr rfl, .inr rfl, .inl rfl⟩
theorem sumpMin (x0 x1 x2 x3) : Statement (.sumpMin x0 x1 x2 x3) := ⟨.inr rfl, .inr rfl, .inl rfl⟩
theorem sumpCnt (x0 x1) : Statement (.sumpCnt x0 x1) := ⟨.inr rfl, .inr rfl, .inl rfl⟩
theorem sumpSnap (x0 x1 x2) : Statement (.sumpSnap x0 x1 x2) := ⟨.inr rfl, .inr rfl, .inl rfl⟩
theorem sumpRd (x0 x1) : Statement (.sumpRd x0 x1) := ⟨.inr rfl, .inr rfl, .inl rfl⟩
theorem pumpLd (x0 x1) : Statement (.pumpLd x0 x1) := ⟨.inr rfl, .inr rfl, .inl rfl⟩
theorem pumpGo (x0) : Statement (.pumpGo x0) := ⟨.inr rfl, .inr rfl, .inl rfl⟩
theorem pumpIdle (x0 x1) : Statement (.pumpIdle x0 x1) := ⟨.inr rfl, .inr rfl, .inl rfl⟩
theorem pumpDead (x0 x1) : Statement (.pumpDead x0 x1) := ⟨.inr rfl, .inr rfl, .inl rfl⟩
theorem pumpStat (x0) : Statement (.pumpStat x0) := ⟨.inr rfl, .inr rfl, .inl rfl⟩
theorem pumpActr (x0 x1 x2) : Statement (.pumpActr x0 x1 x2) := ⟨.inr rfl, .inr rfl, .inl rfl⟩
theorem nmFence (x0) : Statement (.nmFence x0) := ⟨.inr rfl, .inr rfl, .inl rfl⟩
theorem nmStat (x0 x1) : Statement (.nmStat x0 x1) := ⟨.inr rfl, .inr rfl, .inl rfl⟩
theorem waitA (x0 x1 x2 x3) : Statement (.waitA x0 x1 x2 x3) := ⟨.inr rfl, .inr rfl, .inl rfl⟩
theorem fence (x0 x1 x2 x3) : Statement (.fence x0 x1 x2 x3) := ⟨.inr rfl, .inr rfl, .inl rfl⟩
theorem fenceRc (x0) : Statement (.fenceRc x0) := ⟨.inr rfl, .inr rfl, .inl rfl⟩
theorem publish (x0 x1) : Statement (.publish x0 x1) := ⟨.inr rfl, .inr rfl, .inl rfl⟩
theorem shadow (x0 x1 x2) : Statement (.shadow x0 x1 x2) := ⟨.inr rfl, .inr rfl, .inl rfl⟩
theorem shadowFree (x0) : Statement (.shadowFree x0) := ⟨.inr rfl, .inr rfl, .inl rfl⟩
theorem qwait (x0 x1) : Statement (.qwait x0 x1) := ⟨.inr rfl, .inr rfl, .inl rfl⟩
theorem bar (x0) : Statement (.bar x0) := ⟨.inr rfl, .inr rfl, .inl rfl⟩
theorem realign (x0) : Statement (.realign x0) := ⟨.inr rfl, .inr rfl, .inl rfl⟩
theorem rdgtc (x0) : Statement (.rdgtc x0) := ⟨.inr rfl, .inr rfl, .inl rfl⟩
theorem goWait (x0) : Statement (.goWait x0) := ⟨.inr rfl, .inr rfl, .inl rfl⟩
theorem csrr (x0 x1) : Statement (.csrr x0 x1) := ⟨.inr rfl, .inr rfl, .inl rfl⟩
theorem csrw (x0 x1 x2) : Statement (.csrw x0 x1 x2) := ⟨.inr rfl, .inr rfl, .inl rfl⟩
theorem csrs (x0 x1 x2) : Statement (.csrs x0 x1 x2) := ⟨.inr rfl, .inr rfl, .inl rfl⟩
theorem csrc (x0 x1 x2) : Statement (.csrc x0 x1 x2) := ⟨.inr rfl, .inr rfl, .inl rfl⟩
theorem trap (x0) : Statement (.trap x0) := ⟨.inr rfl, .inr rfl, .inl rfl⟩
theorem tlbSync (x0) : Statement (.tlbSync x0) := ⟨.inr rfl, .inr rfl, .inl rfl⟩
theorem domsw (x0) : Statement (.domsw x0) := ⟨.inr rfl, .inr rfl, .inl rfl⟩
theorem dbrk (x0) : Statement (.dbrk x0) := ⟨.inr rfl, .inr rfl, .inl rfl⟩
theorem ucieLaneError (x0 x1) : Statement (.ucieLaneError x0 x1) := ⟨.inr rfl, .inr rfl, .inl rfl⟩
theorem uciePortFailure (x0) : Statement (.uciePortFailure x0) := ⟨.inr rfl, .inr rfl, .inl rfl⟩
theorem pageRequestRefusal (x0) : Statement (.pageRequestRefusal x0) := ⟨.inr rfl, .inr rfl, .inl rfl⟩
theorem bundleIssue : Statement .bundleIssue := ⟨.inr rfl, .inr rfl, .inl rfl⟩
theorem holdCycle : Statement .holdCycle := ⟨.inr rfl, .inr rfl, .inl rfl⟩
theorem stallCycle : Statement .stallCycle := ⟨.inr rfl, .inr rfl, .inl rfl⟩
theorem freezeCycle : Statement .freezeCycle := ⟨.inr rfl, .inr rfl, .inl rfl⟩
theorem pumpRdPresent : Statement .pumpRdPresent := ⟨.inr rfl, .inr rfl, .inl rfl⟩
theorem pumpWrSend : Statement .pumpWrSend := ⟨.inr rfl, .inr rfl, .inl rfl⟩
theorem queuedLoadPerform : Statement .queuedLoadPerform := ⟨.inr rfl, .inr rfl, .inl rfl⟩
theorem queuedStorePerform : Statement .queuedStorePerform := ⟨.inr rfl, .inr rfl, .inl rfl⟩
theorem getVerbArrival : Statement .getVerbArrival := ⟨.inr rfl, .inr rfl, .inl rfl⟩
theorem remoteStoreVerbArrival : Statement .remoteStoreVerbArrival := ⟨.inr rfl, .inr rfl, .inl rfl⟩
theorem signalVerbArrival : Statement .signalVerbArrival := ⟨.inr rfl, .inr rfl, .inl rfl⟩
theorem atomicVerbArrival : Statement .atomicVerbArrival := ⟨.inr rfl, .inr rfl, .inl rfl⟩
theorem getResponse : Statement .getResponse := ⟨.inr rfl, .inr rfl, .inl rfl⟩
theorem dieCommitAck : Statement .dieCommitAck := ⟨.inr rfl, .inr rfl, .inl rfl⟩
theorem quantumBoundary : Statement .quantumBoundary := ⟨.inr rfl, .inr rfl, .inl rfl⟩
theorem quantumChange : Statement .quantumChange := ⟨.inr rfl, .inr rfl, .inl rfl⟩
theorem commitBufferOverflow : Statement .commitBufferOverflow := ⟨.inr rfl, .inr rfl, .inl rfl⟩
theorem flitSend : Statement .flitSend := ⟨.inr rfl, .inr rfl, .inl rfl⟩
theorem bulkFlitReceive : Statement .bulkFlitReceive := ⟨.inr rfl, .inr rfl, .inl rfl⟩
theorem atomFlitReceive : Statement .atomFlitReceive := ⟨.inr rfl, .inr rfl, .inl rfl⟩
theorem commitAcknowledgement : Statement .commitAcknowledgement := ⟨.inr rfl, .inr rfl, .inl rfl⟩
theorem refusalReport : Statement .refusalReport := ⟨.inr rfl, .inr rfl, .inl rfl⟩
theorem pathEpochFlit : Statement .pathEpochFlit := ⟨.inr rfl, .inr rfl, .inl rfl⟩
theorem timeExchangeFlit : Statement .timeExchangeFlit := ⟨.inr rfl, .inr rfl, .inl rfl⟩
theorem flitLossTimeout : Statement .flitLossTimeout := ⟨.inr rfl, .inr rfl, .inl rfl⟩
theorem pathDisconnect : Statement .pathDisconnect := ⟨.inr rfl, .inr rfl, .inl rfl⟩
theorem pathReconnect : Statement .pathReconnect := ⟨.inr rfl, .inr rfl, .inl rfl⟩
theorem fabricManagerCommand : Statement .fabricManagerCommand := ⟨.inr rfl, .inr rfl, .inl rfl⟩
theorem unsyncTimeout : Statement .unsyncTimeout := ⟨.inr rfl, .inr rfl, .inl rfl⟩
theorem copyCompletion : Statement .copyCompletion := ⟨.inr rfl, .inr rfl, .inl rfl⟩
theorem probeFillCompletion : Statement .probeFillCompletion := ⟨.inr rfl, .inr rfl, .inl rfl⟩
theorem stnCutCompletion : Statement .stnCutCompletion := ⟨.inr rfl, .inr rfl, .inl rfl⟩
theorem stnLdCompletion : Statement .stnLdCompletion := ⟨.inr rfl, .inr rfl, .inl rfl⟩
theorem sumpGroupApply : Statement .sumpGroupApply := ⟨.inr rfl, .inr rfl, .inl rfl⟩
theorem sumpSnapWrite : Statement .sumpSnapWrite := ⟨.inr rfl, .inr rfl, .inl rfl⟩
theorem pumpStageComplete : Statement .pumpStageComplete := ⟨.inr rfl, .inr rfl, .inl rfl⟩
theorem pumpSkip : Statement .pumpSkip := ⟨.inl rfl, .inl rfl, .inr rfl⟩
theorem nmcCompletion : Statement .nmcCompletion := ⟨.inr rfl, .inr rfl, .inl rfl⟩
theorem idleSequenceEntry : Statement .idleSequenceEntry := ⟨.inr rfl, .inr rfl, .inl rfl⟩
theorem idleRowIssue : Statement .idleRowIssue := ⟨.inr rfl, .inr rfl, .inl rfl⟩
theorem idleRunEnd : Statement .idleRunEnd := ⟨.inr rfl, .inr rfl, .inl rfl⟩
theorem tableResume : Statement .tableResume := ⟨.inr rfl, .inr rfl, .inl rfl⟩
theorem refreshDebtAccrual : Statement .refreshDebtAccrual := ⟨.inr rfl, .inr rfl, .inl rfl⟩
theorem servicePathSequence : Statement .servicePathSequence := ⟨.inr rfl, .inr rfl, .inl rfl⟩
theorem migrationComplete : Statement .migrationComplete := ⟨.inr rfl, .inr rfl, .inl rfl⟩
theorem bankRebuildWord : Statement .bankRebuildWord := ⟨.inr rfl, .inr rfl, .inl rfl⟩
theorem bankRebuildComplete : Statement .bankRebuildComplete := ⟨.inr rfl, .inr rfl, .inl rfl⟩
theorem heartbeatPoll : Statement .heartbeatPoll := ⟨.inr rfl, .inr rfl, .inl rfl⟩
theorem dieLossNotice : Statement .dieLossNotice := ⟨.inr rfl, .inr rfl, .inl rfl⟩
theorem doorbellPoll : Statement .doorbellPoll := ⟨.inr rfl, .inr rfl, .inl rfl⟩
theorem preemptionRequest : Statement .preemptionRequest := ⟨.inr rfl, .inr rfl, .inl rfl⟩
theorem preemptionHalt : Statement .preemptionHalt := ⟨.inr rfl, .inr rfl, .inl rfl⟩
theorem kernelEnd : Statement .kernelEnd := ⟨.inr rfl, .inr rfl, .inl rfl⟩
theorem walkerKernelNode : Statement .walkerKernelNode := ⟨.inr rfl, .inr rfl, .inl rfl⟩
theorem walkerConditionalNode : Statement .walkerConditionalNode := ⟨.inr rfl, .inr rfl, .inl rfl⟩
theorem walkerWhileNode : Statement .walkerWhileNode := ⟨.inr rfl, .inr rfl, .inl rfl⟩
theorem walkerJoinNode : Statement .walkerJoinNode := ⟨.inr rfl, .inr rfl, .inl rfl⟩
theorem gangPrepare : Statement .gangPrepare := ⟨.inr rfl, .inr rfl, .inl rfl⟩
theorem gangReady : Statement .gangReady := ⟨.inr rfl, .inr rfl, .inl rfl⟩
theorem gangReadyDeadline : Statement .gangReadyDeadline := ⟨.inr rfl, .inr rfl, .inl rfl⟩
theorem goToken : Statement .goToken := ⟨.inr rfl, .inr rfl, .inl rfl⟩
theorem gangCancel : Statement .gangCancel := ⟨.inr rfl, .inr rfl, .inl rfl⟩
theorem gangStart : Statement .gangStart := ⟨.inr rfl, .inr rfl, .inl rfl⟩
theorem gangStarted : Statement .gangStarted := ⟨.inr rfl, .inr rfl, .inl rfl⟩
theorem gangAckDeadline : Statement .gangAckDeadline := ⟨.inr rfl, .inr rfl, .inl rfl⟩
theorem gangConfirm : Statement .gangConfirm := ⟨.inr rfl, .inr rfl, .inl rfl⟩
theorem gangAbort : Statement .gangAbort := ⟨.inr rfl, .inr rfl, .inl rfl⟩
theorem hostReservoirRead : Statement .hostReservoirRead := ⟨.inr rfl, .inr rfl, .inl rfl⟩
theorem hostReservoirWrite : Statement .hostReservoirWrite := ⟨.inr rfl, .inr rfl, .inl rfl⟩
theorem nop : Statement .nop := ⟨.inr rfl, .inr rfl, .inl rfl⟩
theorem jnext : Statement .jnext := ⟨.inr rfl, .inr rfl, .inl rfl⟩
theorem mark : Statement .mark := ⟨.inr rfl, .inr rfl, .inl rfl⟩
theorem sumpClr : Statement .sumpClr := ⟨.inr rfl, .inr rfl, .inl rfl⟩
theorem rdDataReturn : Statement .rdDataReturn := ⟨.inr rfl, .inr rfl, .inl rfl⟩
theorem debuggerWrite : Statement .debuggerWrite := ⟨.inr rfl, .inr rfl, .inl rfl⟩
theorem hostRegisterWrite : Statement .hostRegisterWrite := ⟨.inr rfl, .inr rfl, .inl rfl⟩
theorem unansweringPackageLost : Statement .unansweringPackageLost := ⟨.inr rfl, .inr rfl, .inl rfl⟩

end Sys2Proof.Laws.OneSpace
end

