-- ==== Sys2Proof/Tests/Slice0.lean ====
section
/-!
SUPPORT. Tests and witnesses: ill-formed terms that the checks refuse, words written out from the spec's encoding tables
with what they decode to, the spec's worked examples, and for each statement with hypotheses a state that meets them.
-/

namespace Sys2Proof.Tests

open Sys2Proof Sys2Proof.Machine

/-! ### Ill-formed terms, one for each check, and beside each a neighbour that passes -/

/-- RND of 0b101 to 0b111 (R36, R61, R62). -/
theorem test_wf_rnd : wf (.fadd ⟨1, 2, 3, 0, true, 5, false, 0, 0, 0⟩) = false ∧
    wf (.fadd ⟨1, 2, 3, 0, true, 4, false, 0, 0, 0⟩) = true ∧ wf (.vadd 1 ⟨1, 2, 3, 0, 7, 0, 0⟩) = false ∧
    wf (.vadd 1 ⟨1, 2, 3, 0, 2, 3, 0⟩) = false ∧ wf (.vadd 1 ⟨1, 2, 3, 0, 4, 3, 0⟩) = true ∧
    wf (.vcvt 1 ⟨1, 2, 0, 1, 0, 6, false, 0⟩) = false ∧ wf (.scanPsum 1 ⟨0xC0, 0xC1, 0, 0, 0, false, 5, false, 0⟩) = false ∧
    wf (.fcvt ⟨1, 2, 0, 0, false, 7, false, 0, 0, 11⟩) = false ∧ wf (.vexp2 1 ⟨1, 2, 0, 0, 5, 0, 0⟩) = false := by decide

/-- RND where the operation does not round (R155, R156, R166). -/
theorem test_wf_rndUnused : wf (.vmin 1 ⟨1, 2, 3, 0, 1, 0, 0⟩) = false ∧ wf (.vabs 1 ⟨1, 2, 0, 0, 4, 0, 0⟩) = false ∧
    wf (.vabs 1 ⟨1, 2, 0, 0, 4, 3, 0⟩) = true ∧ wf (.vcmpEq 1 ⟨1, 2, 3, 0, 4, 3, 0⟩) = false ∧
    wf (.vand 1 ⟨1, 2, 3, 0, 1, 0, 0⟩) = false ∧ wf (.scanPmax 1 ⟨0xC0, 0xC1, 0, 0, 0, false, 1, false, 0⟩) = false ∧
    wf (.fmin ⟨1, 2, 3, 0, true, 1, false, 0, 0, 0⟩) = false := by decide

/-- Operand fields that name nothing, and destinations that may not be written (R59). -/
theorem test_wf_operands : wf (.vadd 1 ⟨1, 0x48, 3, 0, 0, 0, 0⟩) = false ∧ wf (.vadd 1 ⟨1, 0x84, 3, 0, 0, 0, 0⟩) = false ∧
    wf (.vadd 1 ⟨0x80, 2, 3, 0, 0, 0, 0⟩) = false ∧ wf (.vadd 1 ⟨0xE0, 2, 3, 0, 0, 0, 0⟩) = false ∧
    wf (.vadd 1 ⟨0x60, 2, 3, 0, 0, 0, 0⟩) = false ∧ wf (.vadd 1 ⟨0x47, 0x67, 0x83, 0, 0, 0, 0⟩) = true ∧
    wf (.vadd 1 ⟨1, 2, 3, 4, 0, 0, 0⟩) = false ∧ wf (.vneg 1 ⟨1, 2, 3, 0, 0, 0, 0⟩) = false ∧
    wf (.vfma 1 ⟨1, 2, 3, 0x50, 0, 0, 0⟩) = false ∧ wf (.vsel 1 ⟨1, 2, 3, 8, 0, 0, 0⟩) = false ∧
    wf (.vcmpLt 1 ⟨8, 2, 3, 0, 0, 0, 0⟩) = false ∧ wf (.vpack 1 ⟨1, 2, 0x90, 1, 0, 0, false, 0⟩) = false := by decide

/-- A slot of scope B names a bay (R56). -/
theorem test_wf_bays : wf (.vadd 0 ⟨1, 2, 3, 0, 0, 0, 0⟩) = false ∧ wf (.vmand 0 1 2 3) = false ∧ wf (.mxSwap 0) = false ∧
    wf (.mxHold 0 3) = false ∧ wf (.mxSnap 0 true) = false ∧ wf (.mxScale 0 1 2) = false ∧ wf (.qUnbind 0 3) = false ∧
    wf (.qSkip 0 3 1) = false ∧ wf (.qRmask 0 3 1) = false ∧ wf (.qXferLand 0 3) = false ∧ wf (.qDrain 0 3) = false ∧
    wf (.sumpCnt 0 3) = false ∧ wf (.stnLd 0 false 1 2) = false ∧ wf (.brv 1 0 0 0 false) = false ∧
    wf (.scanRsum 0 ⟨0xC0, 0xC1, 0, 0, 0, false, 0, false, 0⟩) = false := by decide

/-- Element types that an operation does not take, and mask lengths beyond 128 (R155 to R159). -/
theorem test_wf_types : wf (.vshl 1 ⟨1, 2, 3, 0, 0, 0, 0⟩) = false ∧ wf (.vsar 1 ⟨1, 2, 3, 0, 0, 3, 0⟩) = true ∧
    wf (.vcmpEq 1 ⟨1, 2, 3, 0, 0, 1, 0⟩) = false ∧ wf (.vcmpUn 1 ⟨1, 2, 3, 0, 0, 3, 0⟩) = false ∧
    wf (.vlog2 1 ⟨1, 2, 0, 0, 0, 3, 0⟩) = false ∧ wf (.vmset 1 0 129) = false ∧ wf (.vmset 1 0 128) = true := by decide

/-- Formats of the convert port (R160 to R162). -/
theorem test_wf_convert : wf (.vcvt 1 ⟨1, 2, 0, 11, 0, 0, false, 0⟩) = false ∧
    wf (.vcvt 1 ⟨1, 2, 0, 0, 13, 0, false, 0⟩) = false ∧ wf (.vcvt 1 ⟨1, 2, 3, 1, 0, 0, false, 0⟩) = false ∧
    wf (.vrint 1 ⟨1, 2, 0, 0, 1, 0, false, 0⟩) = false ∧ wf (.vrint 1 ⟨1, 2, 0, 3, 3, 0, false, 0⟩) = false ∧
    wf (.vrint 1 ⟨1, 2, 0, 2, 2, 0, true, 0⟩) = false ∧ wf (.vpack 1 ⟨1, 2, 3, 0, 1, 0, false, 0⟩) = false ∧
    wf (.vunpk 1 ⟨1, 2, 2, 0, 1, 0, false, 0⟩) = false ∧ wf (.vunpk 1 ⟨1, 2, 1, 0, 1, 0, false, 0⟩) = true ∧
    wf (.vunpk 1 ⟨1, 2, 0, 1, 0, 0, false, 0⟩) = false := by decide

/-- Fields of the scan slots (R163, R166). -/
theorem test_wf_scan : wf (.scanPsum 1 ⟨0x06, 0xC1, 0, 0, 0, false, 0, false, 0⟩) = false ∧
    wf (.scanPsum 1 ⟨0xC6, 0xE1, 0, 0, 0, false, 0, false, 0⟩) = false ∧
    wf (.scanPsum 1 ⟨0xC6, 0xC1, 0xC2, 0, 0, false, 0, false, 0⟩) = false ∧
    wf (.scanSpsum 1 ⟨0xC6, 0xC1, 0, 0, 0, false, 0, false, 0⟩) = false ∧
    wf (.scanPsum 1 ⟨0xC6, 0xC1, 0, 3, 0, false, 0, false, 0⟩) = false ∧
    wf (.scanPsum 1 ⟨0xC6, 0xC1, 0, 0, 5, false, 0, false, 0⟩) = false ∧
    wf (.scanPsum 1 ⟨0xC6, 0xC1, 0, 1, 5, false, 0, false, 0⟩) = true ∧
    wf (.scanPsum 1 ⟨0xC6, 0xC1, 0, 1, 6, false, 0, false, 0⟩) = false ∧
    wf (.scanPsum 1 ⟨0xC6, 0xC1, 0, 1, 5, false, 0, false, 1⟩) = false ∧
    wf (.scanPmin 1 ⟨0xC6, 0xC1, 0, 9, 0, false, 0, true, 0⟩) = false ∧
    wf (.scanAmax 1 ⟨0xC6, 0xC1, 0, 0, 0, false, 0, true, 0⟩) = false ∧
    wf (.scanCmpct 1 ⟨0xC6, 0xC1, 0xC2, 0, 0, true, 0, false, 0⟩) = false ∧
    wf (.scanTopk 1 ⟨0xC6, 0xC1, 0, 0, 1, false, 0, false, 2⟩) = false ∧
    wf (.scanTopk 1 ⟨0xC6, 0xC1, 0, 0, 1, false, 0, false, 1⟩) = true := by decide

/-- Fields of the matrix slots (R178, R180, R186 to R188). -/
theorem test_wf_matrix : wf (.mxPush 1 false false 0 0) = false ∧ wf (.mxPush 1 true false 1 2) = false ∧
    wf (.mxPush 1 true true 3 3) = false ∧ wf (.mxAcc 1 false true 1 2 0) = false ∧ wf (.mxAcc 1 true true 5 5 0) = false ∧
    wf (.mxShift 1 0 false 0 0) = false ∧ wf (.mxShift 1 1 false 1 0) = false ∧ wf (.mxDrain 1 3 false false true 1 0) = false ∧
    wf (.mxDrain 1 3 false false true 0 1) = false ∧ wf (.mxZero 1 false false false) = false ∧ wf (.mxMode 1 1 2) = false ∧
    wf (.mxMode 1 3 4) = true ∧ wf (.mxMode 1 10 8) = false ∧ wf (.mxMode 1 5 3) = false := by decide

/-- Fields of the stream, stencil, sump, pump and near-memory slots (R118, R194, R197, R206, R216, R228). -/
theorem test_wf_stream : wf (.qBind 1 2 5 1 6 1 false false) = false ∧ wf (.qBind 1 2 15 1 6 0 false false) = false ∧
    wf (.qBind 1 2 0 1 7 1 false false) = false ∧ wf (.qBind 1 2 8 1 6 1 false false) = false ∧
    wf (.qBind 1 2 8 1 6 0 false true) = false ∧ wf (.qXfer 1 0 3 0) = false ∧ wf (.stnLd 1 true 0 4) = false ∧
    wf (.stnCut 3 false 0 4 5 0 false) = false ∧ wf (.sumpAdd 1 8 8 0) = false ∧ wf (.sumpMax 1 8 9 1) = false ∧
    wf (.sumpMin 0 8 9 9) = false ∧ wf (.pumpLd 0 1) = false ∧ wf (.pumpLd 0 0) = true ∧ wf (.pumpIdle 0 0) = false ∧
    wf (.nmStat 1 2) = false := by decide

/-- Fields of the scalar, control and sync slots (R129, R132, R133, R137, R148, R230, R243, R255). -/
theorem test_wf_scalar : wf (.cmpEq 3 1 2 3) = false ∧ wf (.cmpEq 0 1 2 0) = true ∧ wf (.cmpiLt 9 1 9 0) = false ∧
    wf (.fadd ⟨1, 2, 3, 4, true, 0, false, 0, 0, 0⟩) = false ∧ wf (.ffma ⟨1, 2, 3, 4, true, 0, true, 0, 0, 0⟩) = false ∧
    wf (.fcmp ⟨3, 2, 3, 0, true, 0, false, 4, 0, 0⟩) = false ∧ wf (.fcmp ⟨16, 2, 3, 0, true, 0, false, 3, 0, 0⟩) = false ∧
    wf (.fcvt ⟨3, 2, 0, 0, true, 0, false, 0, 0, 9⟩) = false ∧ wf (.fcvt ⟨3, 2, 0, 0, false, 0, false, 0, 1, 9⟩) = false ∧
    wf (.ld ⟨1, 2, 3, true, 0⟩) = false ∧ wf (.lds ⟨1, 2, 3, true, 0⟩) = false ∧ wf (.chk ⟨1, 2, 3, true, 0⟩) = false ∧
    wf (.st ⟨1, 2, 0, true, 0⟩) = false ∧ wf (.hset 1 2 3 20) = false ∧ wf (.hget 1 2 20) = false ∧ wf (.hget 1 2 19) = true ∧
    wf (.loop 6 1 2 0 4) = false ∧ wf (.loop 5 1 2 0 0) = false ∧ wf (.lbrk 7) = false ∧ wf (.lcont 6) = false ∧
    wf (.waitA 1 2 3 3) = false ∧ wf (.fence false false false false) = false ∧ wf (.csrr 1 0x148) = false ∧
    wf (.csrw 1 2 0x014) = false ∧ wf (.csrs 1 2 0x058) = false ∧ wf (.csrc 1 2 0x10D) = false ∧ wf (.csrr 1 0x14C) = true := by
  decide

/-- Fields of the pump's commands and of the host's (R223, R226, R415). -/
theorem test_wf_commands : wf (.rd ⟨3, 0, 1⟩ 5 0) = false ∧ wf (.wr ⟨3, 0, 1⟩ 31 0) = false ∧
    wf (.nmcFade ⟨⟨3, 0, 1⟩, 16, 16, 0, 0, 0⟩) = false ∧ wf (.nmcFade ⟨⟨3, 0, 1⟩, 15, 16, 0, 0, 1⟩) = true ∧
    wf (.nmcFade ⟨⟨3, 0, 1⟩, 0, 32, 0, 0, 0⟩) = false ∧ wf (.nmcAxpy ⟨⟨3, 0, 1⟩, 0, 0, 0, 0, 1⟩) = false ∧
    wf (.nmcAdd ⟨⟨3, 0, 1⟩, 0, 0, 0, 0, 1⟩) = false ∧ wf (.nmcScale ⟨⟨3, 0, 1⟩, 0, 0, 1, 0, 0⟩) = false ∧
    wf (.nmcFill ⟨⟨3, 0, 1⟩, 0, 0, 0, 0, 1⟩) = false ∧ wf (.qset 1 3 0 0) = false ∧ wf (.region 1 0 0 1025) = false ∧
    wf (.tier 13 0) = false ∧ wf (.pcap 999) = false ∧ wf (.pcap 5601) = false ∧ wf (.pcap 1000) = true := by decide

/-- Words that hold no instruction: a free opcode, a bay mask against its scope, a reserved bit (R56, R62, R77). -/
theorem test_decodeRefuses : decodeSlot 0x00000A0000000000 = .error (.opcode 0 0x0A) ∧
    decodeSlot 0x2000190000000000 = .error (.opcode 1 0x19) ∧ decodeSlot 0x4001440000000000 = .error (.opcode 2 0x44) ∧
    decodeSlot 0x60010C0000000000 = .error (.opcode 3 0x0C) ∧ decodeSlot 0x8001040000000000 = .error (.opcode 4 4) ∧
    decodeSlot 0xA001060000000000 = .error (.opcode 5 6) ∧ decodeSlot 0xC0FF070000000000 = .error (.opcode 6 7) ∧
    decodeSlot 0xE0000B0000000000 = .error (.opcode 7 0x0B) ∧ decodeSlot 0x2001000000000000 = .error .bays ∧
    decodeSlot 0xA003120000000000 = .error .bays ∧ decodeSlot 0xC0FE060000000000 = .error .bays ∧
    decodeSlot 0x2000000000000001 = .error .reserved ∧ decodeSlot 0x1000000000000000 = .error (.opcode 0 0) ∧
    decodePump 0x8000000000000000 none = .error (.opcode 8 8) ∧ decodePump 0x40C4000000000001 none = .error .reserved ∧
    decodePump 0x7000000000000000 none = .error .field :=
  ⟨rfl, rfl, rfl, rfl, rfl, rfl, rfl, rfl, rfl, rfl, rfl, rfl, rfl, rfl, rfl, rfl⟩

/-! ### Words of the encoding tables -/

/-- Words laid out by hand from the tables of R55, R57 and R230. -/
theorem test_decodeControl :
    decodeSlot 0x0000000000000000 = .ok (.nop) ∧
    decodeSlot 0x060001A500000000 = .ok (.br 0xA5) ∧
    decodeSlot 0x0000021781AA0000 = .ok (.brv 0x17 0x81 5 2 true) ∧
    decodeSlot 0x0000030000000000 = .ok (.jnext) ∧
    decodeSlot 0x000004A670000000 = .ok (.jseg 41 0x9C) ∧
    decodeSlot 0x0000056B63C12345 = .ok (.loop 3 22 0xC7 2 0x12345) ∧
    decodeSlot 0x1D0006A000000000 = .ok (.lbrk 5) ∧
    decodeSlot 0x0000074000000000 = .ok (.lcont 2) ∧
    decodeSlot 0x000008000000BEEF = .ok (.exit 0xBEEF) ∧
    decodeSlot 0x0000098000000000 = .ok (.tret true false) ∧
    decodeSlot 0x0000094000000000 = .ok (.tret false true) :=
  ⟨rfl, rfl, rfl, rfl, rfl, rfl, rfl, rfl, rfl, rfl, rfl⟩

/-- Words laid out by hand from the tables of R125 to R129. -/
theorem test_decodeInteger :
    decodeSlot 0x2000008721C00000 = .ok (.add 33 50 7) ∧
    decodeSlot 0x2000018B12000000 = .ok (.sub 34 49 8) ∧
    decodeSlot 0x2000028F02400000 = .ok (.and 35 48 9) ∧
    decodeSlot 0x20000392F2800000 = .ok (.or 36 47 10) ∧
    decodeSlot 0x20000496E2C00000 = .ok (.xor 37 46 11) ∧
    decodeSlot 0x2000059AD3000000 = .ok (.andn 38 45 12) ∧
    decodeSlot 0x2000069EC3400000 = .ok (.shl 39 44 13) ∧
    decodeSlot 0x200007A2B3800000 = .ok (.shr 40 43 14) ∧
    decodeSlot 0x200008A6A3C00000 = .ok (.sar 41 42 15) ∧
    decodeSlot 0x200009AA94000000 = .ok (.min 42 41 16) ∧
    decodeSlot 0x20000AAE84400000 = .ok (.max 43 40 17) ∧
    decodeSlot 0x20000BB274800000 = .ok (.minu 44 39 18) ∧
    decodeSlot 0x20000CB664C00000 = .ok (.maxu 45 38 19) ∧
    decodeSlot 0x20000DB230000000 = .ok (.clz 44 35) ∧
    decodeSlot 0x20000EB630000000 = .ok (.popc 45 35) ∧
    decodeSlot 0x20000F952B6C0000 = .ok (.sel 37 18 45 11) ∧
    decodeSlot 0x200010895FEDCBA9 = .ok (.addi 34 21 0xfedcba9) ∧
    decodeSlot 0x2000118D5FEDCBA8 = .ok (.andi 35 21 0xfedcba8) ∧
    decodeSlot 0x200012915FEDCBA7 = .ok (.ori 36 21 0xfedcba7) ∧
    decodeSlot 0x200013955FEDCBA6 = .ok (.xori 37 21 0xfedcba6) :=
  ⟨rfl, rfl, rfl, rfl, rfl, rfl, rfl, rfl, rfl, rfl, rfl, rfl, rfl, rfl, rfl, rfl, rfl, rfl, rfl, rfl⟩

/-- Words laid out by hand from the tables of R125 to R129. -/
theorem test_decodeInteger2 :
    decodeSlot 0x200014895000002B = .ok (.shli 34 21 43) ∧
    decodeSlot 0x2000158D5000002C = .ok (.shri 35 21 44) ∧
    decodeSlot 0x200016915000002D = .ok (.sari 36 21 45) ∧
    decodeSlot 0x2000179808000001 = .ok (.movi 38 0x8000001) ∧
    decodeSlot 0x2000189A7003CAFE = .ok (.movhi 38 39 3 0xCAFE) ∧
    decodeSlot 0x200020F09A000000 = .ok (.mul 60 9 40) ∧
    decodeSlot 0x200021EC9A400000 = .ok (.mulh 59 9 41) ∧
    decodeSlot 0x200022E89A800000 = .ok (.mulhu 58 9 42) ∧
    decodeSlot 0x2000300618BC0000 = .ok (.cmpEq 1 33 34 15) ∧
    decodeSlot 0x2000310A18F80000 = .ok (.cmpNe 2 33 35 14) ∧
    decodeSlot 0x2000320E19340000 = .ok (.cmpLt 3 33 36 13) ∧
    decodeSlot 0x2000331219700000 = .ok (.cmpLtu 4 33 37 12) ∧
    decodeSlot 0x2000341619AC0000 = .ok (.cmpLe 5 33 38 11) ∧
    decodeSlot 0x2000351A19E80000 = .ok (.cmpLeu 6 33 39 10) ∧
    decodeSlot 0x200036261C800003 = .ok (.cmpiEq 9 33 12 0x800003) ∧
    decodeSlot 0x200037261C800004 = .ok (.cmpiLt 9 33 12 0x800004) :=
  ⟨rfl, rfl, rfl, rfl, rfl, rfl, rfl, rfl, rfl, rfl, rfl, rfl, rfl, rfl, rfl, rfl⟩

/-- Words laid out by hand from the tables of R125 and R130. -/
theorem test_decodePredicate :
    decodeSlot 0x200040966C000000 = .ok (.pand ⟨9, 6, false, 13, true⟩) ∧
    decodeSlot 0x20004196E8000000 = .ok (.por ⟨9, 6, true, 13, false⟩) ∧
    decodeSlot 0x200042966C000000 = .ok (.pxor ⟨9, 6, false, 13, true⟩) ∧
    decodeSlot 0x20004396E8000000 = .ok (.pandn ⟨9, 6, true, 13, false⟩) ∧
    decodeSlot 0x200044A800000000 = .ok (.pmovsToScalar 42) ∧
    decodeSlot 0x200044A802000000 = .ok (.pmovsFromScalar 42) :=
  ⟨rfl, rfl, rfl, rfl, rfl, rfl⟩

/-- Words laid out by hand from the tables of R125, R131 to R133. -/
theorem test_decodeFloat :
    decodeSlot 0x200050852B00C000 = .ok (.fadd ⟨33, 18, 44, 0, true, 4, false, 0, 0, 0⟩) ∧
    decodeSlot 0x200051892B003000 = .ok (.fsub ⟨34, 18, 44, 0, false, 3, false, 0, 0, 0⟩) ∧
    decodeSlot 0x2000528D2B00A000 = .ok (.fmul ⟨35, 18, 44, 0, true, 2, false, 0, 0, 0⟩) ∧
    decodeSlot 0x200053912B371000 = .ok (.ffma ⟨36, 18, 44, 55, false, 1, false, 0, 0, 0⟩) ∧
    decodeSlot 0x200054952B008000 = .ok (.fmin ⟨37, 18, 44, 0, true, 0, false, 0, 0, 0⟩) ∧
    decodeSlot 0x200055992B000000 = .ok (.fmax ⟨38, 18, 44, 0, false, 0, false, 0, 0, 0⟩) ∧
    decodeSlot 0x200056352B008300 = .ok (.fcmp ⟨13, 18, 44, 0, true, 0, false, 3, 0, 0⟩) ∧
    decodeSlot 0x2000579D2000189B = .ok (.fcvt ⟨39, 18, 0, 0, false, 1, true, 0, 9, 11⟩) :=
  ⟨rfl, rfl, rfl, rfl, rfl, rfl, rfl, rfl⟩

/-- Words laid out by hand from the tables of R125, R137, R141, R142 and R148. -/
theorem test_decodeMemory :
    decodeSlot 0x200060C66AFEDCBA = .ok (.ld ⟨49, 38, 2, true, 0xfedcba⟩) ∧
    decodeSlot 0x200061CA64800001 = .ok (.st ⟨50, 38, 1, false, 0x800001⟩) ∧
    decodeSlot 0x200062CE6C000028 = .ok (.lds ⟨51, 38, 3, false, 0x28⟩) ∧
    decodeSlot 0x200063D262000007 = .ok (.chk ⟨52, 38, 0, true, 0x7⟩) ∧
    decodeSlot 0x2000640000000000 = .ok (.mark) ∧
    decodeSlot 0x200065D66CFFFFF8 = .ok (.signal 53 38 0xFFFFF8) ∧
    decodeSlot 0x200070D260800020 = .ok (.hld 13 38 0x800020) ∧
    decodeSlot 0x200071B250000040 = .ok (.hst 11 37 0x40) ∧
    decodeSlot 0x20007229A6600000 = .ok (.hset 2 9 41 19) ∧
    decodeSlot 0x200073AA62000000 = .ok (.hget 42 9 17) ∧
    decodeSlot 0x200074A500000000 = .ok (.hmov 10 5) :=
  ⟨rfl, rfl, rfl, rfl, rfl, rfl, rfl, rfl, rfl, rfl, rfl⟩

/-- Words laid out by hand from the tables of R61, R155 to R162. -/
theorem test_decodeVector :
    decodeSlot 0x4081002A15C3006D = .ok (.vadd 0x81 ⟨0x2a, 0x15, 0xc3, 0x0, 3, 1, 5⟩) ∧
    decodeSlot 0x404201DF40E5009E = .ok (.vsub 0x42 ⟨0xdf, 0x40, 0xe5, 0x0, 4, 3, 6⟩) ∧
    decodeSlot 0x4001022B65830011 = .ok (.vmin 0x1 ⟨0x2b, 0x65, 0x83, 0x0, 0, 2, 1⟩) ∧
    decodeSlot 0x400103433F800002 = .ok (.vmax 0x1 ⟨0x43, 0x3f, 0x80, 0x0, 0, 0, 2⟩) ∧
    decodeSlot 0x4001040405000098 = .ok (.vabs 0x1 ⟨0x4, 0x5, 0x0, 0x0, 4, 3, 0⟩) ∧
    decodeSlot 0x400105040500000F = .ok (.vneg 0x1 ⟨0x4, 0x5, 0x0, 0x0, 0, 1, 7⟩) ∧
    decodeSlot 0x40FF061020C00000 = .ok (.vand 0xff ⟨0x10, 0x20, 0xc0, 0x0, 0, 0, 0⟩) ∧
    decodeSlot 0x40FF071121C10008 = .ok (.vor 0xff ⟨0x11, 0x21, 0xc1, 0x0, 0, 1, 0⟩) ∧
    decodeSlot 0x40FF081222C20010 = .ok (.vxor 0xff ⟨0x12, 0x22, 0xc2, 0x0, 0, 2, 0⟩) ∧
    decodeSlot 0x40FF091323C30018 = .ok (.vandn 0xff ⟨0x13, 0x23, 0xc3, 0x0, 0, 3, 0⟩) ∧
    decodeSlot 0x40100A1020E00019 = .ok (.vshl 0x10 ⟨0x10, 0x20, 0xe0, 0x0, 0, 3, 1⟩) ∧
    decodeSlot 0x40100B1121E10019 = .ok (.vshr 0x10 ⟨0x11, 0x21, 0xe1, 0x0, 0, 3, 1⟩) ∧
    decodeSlot 0x40100C1222E20019 = .ok (.vsar 0x10 ⟨0x12, 0x22, 0xe2, 0x0, 0, 3, 1⟩) ∧
    decodeSlot 0x40010DCBCA000018 = .ok (.vmov 0x1 ⟨0xcb, 0xca, 0x0, 0x0, 0, 3, 0⟩) ∧
    decodeSlot 0x40010E0607080513 = .ok (.vsel 0x1 ⟨0x6, 0x7, 0x8, 0x5, 0, 2, 3⟩) ∧
    decodeSlot 0x4004100309E1001A = .ok (.vcmpEq 0x4 ⟨0x3, 0x9, 0xe1, 0x0, 0, 3, 2⟩) ∧
    decodeSlot 0x4004110409E1001A = .ok (.vcmpNe 0x4 ⟨0x4, 0x9, 0xe1, 0x0, 0, 3, 2⟩) ∧
    decodeSlot 0x4004120509E1001A = .ok (.vcmpLt 0x4 ⟨0x5, 0x9, 0xe1, 0x0, 0, 3, 2⟩) ∧
    decodeSlot 0x4004130609E1001A = .ok (.vcmpLe 0x4 ⟨0x6, 0x9, 0xe1, 0x0, 0, 3, 2⟩) ∧
    decodeSlot 0x4004140709E10002 = .ok (.vcmpUn 0x4 ⟨0x7, 0x9, 0xe1, 0x0, 0, 0, 2⟩) :=
  ⟨rfl, rfl, rfl, rfl, rfl, rfl, rfl, rfl, rfl, rfl, rfl, rfl, rfl, rfl, rfl, rfl, rfl, rfl, rfl, rfl⟩

/-- Words laid out by hand from the tables of R61, R155 to R162. -/
theorem test_decodeVector2 :
    decodeSlot 0x4021180700020000 = .ok (.vmand 0x21 7 0 2) ∧
    decodeSlot 0x4021190601030000 = .ok (.vmor 0x21 6 1 3) ∧
    decodeSlot 0x40211A0502040000 = .ok (.vmxor 0x21 5 2 4) ∧
    decodeSlot 0x40211B0403050000 = .ok (.vmandn 0x21 4 3 5) ∧
    decodeSlot 0x40211C0600800000 = .ok (.vmset 0x21 6 128) ∧
    decodeSlot 0x4001402A15E30054 = .ok (.vmul 0x1 ⟨0x2a, 0x15, 0xe3, 0x0, 2, 2, 4⟩) ∧
    decodeSlot 0x4001412A15C38320 = .ok (.vfma 0x1 ⟨0x2a, 0x15, 0xc3, 0x83, 1, 0, 0⟩) ∧
    decodeSlot 0x4001422A15C3C121 = .ok (.vfms 0x1 ⟨0x2a, 0x15, 0xc3, 0xc1, 1, 0, 1⟩) ∧
    decodeSlot 0x4001432A15C36122 = .ok (.vfnma 0x1 ⟨0x2a, 0x15, 0xc3, 0x61, 1, 0, 2⟩) ∧
    decodeSlot 0x4008602018000000 = .ok (.vexp2 0x8 ⟨0x20, 0x18, 0x0, 0x0, 0, 0, 0⟩) ∧
    decodeSlot 0x4008612119000029 = .ok (.vlog2 0x8 ⟨0x21, 0x19, 0x0, 0x0, 1, 1, 1⟩) ∧
    decodeSlot 0x400862221A000052 = .ok (.vrcp 0x8 ⟨0x22, 0x1a, 0x0, 0x0, 2, 2, 2⟩) ∧
    decodeSlot 0x400863231B000063 = .ok (.vrsqrt 0x8 ⟨0x23, 0x1b, 0x0, 0x0, 3, 0, 3⟩) ∧
    decodeSlot 0x400864241C00008C = .ok (.vsqrt 0x8 ⟨0x24, 0x1c, 0x0, 0x0, 4, 1, 4⟩) ∧
    decodeSlot 0x400865251D000015 = .ok (.vtanh 0x8 ⟨0x25, 0x1d, 0x0, 0x0, 0, 2, 5⟩) ∧
    decodeSlot 0x400866261E000026 = .ok (.vsigm 0x8 ⟨0x26, 0x1e, 0x0, 0x0, 1, 0, 6⟩) ∧
    decodeSlot 0x4601800908003012 = .ok (.vcvt 0x1 ⟨0x9, 0x8, 0x0, 3, 0, 0, true, 2⟩) ∧
    decodeSlot 0x4002810908002281 = .ok (.vrint 0x2 ⟨0x9, 0x8, 0x0, 2, 2, 4, false, 1⟩) ∧
    decodeSlot 0x4004820908C77961 = .ok (.vpack 0x4 ⟨0x9, 0x8, 0xc7, 7, 9, 3, false, 1⟩) ∧
    decodeSlot 0x4008830908070735 = .ok (.vunpk 0x8 ⟨0x9, 0x8, 0x7, 0, 7, 1, true, 5⟩) :=
  ⟨rfl, rfl, rfl, rfl, rfl, rfl, rfl, rfl, rfl, rfl, rfl, rfl, rfl, rfl, rfl, rfl, rfl, rfl, rfl, rfl⟩

/-- Words laid out by hand from the tables of R163 and R166. -/
theorem test_decodeScan :
    decodeSlot 0x601800C6DF002B90 = .ok (.scanPsum 0x18 ⟨0xc6, 0xdf, 0x0, 2, 5, true, 4, true, 0⟩) ∧
    decodeSlot 0x601801C6C4009900 = .ok (.scanPmax 0x18 ⟨0xc6, 0xc4, 0x0, 9, 4, true, 0, false, 0⟩) ∧
    decodeSlot 0x601802C7C4001000 = .ok (.scanPmin 0x18 ⟨0xc7, 0xc4, 0x0, 1, 0, false, 0, false, 0⟩) ∧
    decodeSlot 0x601803C6C4D50770 = .ok (.scanSpsum 0x18 ⟨0xc6, 0xc4, 0xd5, 0, 3, true, 3, true, 0⟩) ∧
    decodeSlot 0x601804C6C4009810 = .ok (.scanRsum 0x18 ⟨0xc6, 0xc4, 0x0, 9, 4, false, 0, true, 0⟩) ∧
    decodeSlot 0x601805C6C4002500 = .ok (.scanRmax 0x18 ⟨0xc6, 0xc4, 0x0, 2, 2, true, 0, false, 0⟩) ∧
    decodeSlot 0x601806C6C4001B00 = .ok (.scanRmin 0x18 ⟨0xc6, 0xc4, 0x0, 1, 5, true, 0, false, 0⟩) ∧
    decodeSlot 0x601807C6C4009310 = .ok (.scanAmax 0x18 ⟨0xc6, 0xc4, 0x0, 9, 1, true, 0, true, 0⟩) ∧
    decodeSlot 0x601808C6C4C12A00 = .ok (.scanCmpct 0x18 ⟨0xc6, 0xc4, 0xc1, 2, 5, false, 0, false, 0⟩) ∧
    decodeSlot 0x601809C6C4000800 = .ok (.scanArgmax 0x18 ⟨0xc6, 0xc4, 0x0, 0, 4, false, 0, false, 0⟩) ∧
    decodeSlot 0x60180AC6C400280F = .ok (.scanTopk 0x18 ⟨0xc6, 0xc4, 0x0, 2, 4, false, 0, false, 15⟩) ∧
    decodeSlot 0x60180BC6C4001750 = .ok (.scanRank 0x18 ⟨0xc6, 0xc4, 0x0, 1, 3, true, 2, true, 0⟩) :=
  ⟨rfl, rfl, rfl, rfl, rfl, rfl, rfl, rfl, rfl, rfl, rfl, rfl⟩

/-- Words laid out by hand from the tables of R178, R180 and the control port table before R186. -/
theorem test_decodeMatrix :
    decodeSlot 0x800300E3E0000000 = .ok (.mxPush 3 true true 17 30) ∧
    decodeSlot 0x80030041E0000000 = .ok (.mxPush 3 false true 0 30) ∧
    decodeSlot 0x800301AA08000000 = .ok (.mxAcc 3 true false 21 0 2) ∧
    decodeSlot 0x80030293CF000000 = .ok (.mxShift 3 0x93 true 19 3) ∧
    decodeSlot 0x800303FC00000000 = .ok (.mxHold 3 63) ∧
    decodeSlot 0x800308CC9B840000 = .ok (.mxDrain 3 25 true false false 38 0xE1) ∧
    decodeSlot 0x8003084B00000000 = .ok (.mxDrain 3 9 false true true 0 0) ∧
    decodeSlot 0x800309A000000000 = .ok (.mxZero 3 true false true) ∧
    decodeSlot 0x80030A8A00000000 = .ok (.mxMode 3 8 10) ∧
    decodeSlot 0x80030B9F00000000 = .ok (.mxScale 3 19 28) ∧
    decodeSlot 0x80030C8000000000 = .ok (.mxSnap 3 true) ∧
    decodeSlot 0x80030D0000000000 = .ok (.mxSwap 3) :=
  ⟨rfl, rfl, rfl, rfl, rfl, rfl, rfl, rfl, rfl, rfl, rfl, rfl⟩

/-- Words laid out by hand from the tables of R118 to R121, R197, R204 to R214. -/
theorem test_decodeStream :
    decodeSlot 0xA04100DB5D970000 = .ok (.qBind 0x41 27 6 11 44 5 true true) ∧
    decodeSlot 0xA041019800000000 = .ok (.qUnbind 0x41 19) ∧
    decodeSlot 0xA041029FF0000000 = .ok (.qSkip 0x41 19 0xFE) ∧
    decodeSlot 0xA041039D00000000 = .ok (.qRmask 0x41 19 5) ∧
    decodeSlot 0xA041049EB8000000 = .ok (.qXfer 0x41 19 26 7) ∧
    decodeSlot 0xA041040680000000 = .ok (.qXferLand 0x41 26) ∧
    decodeSlot 0xA04105F000000000 = .ok (.qDrain 0x41 30) ∧
    decodeSlot 0xA0C110FF8C000000 = .ok (.stnLd 0xC1 true 127 35) ∧
    decodeSlot 0xA02011CC8F498000 = .ok (.stnCut 5 true 76 35 52 9 true) ∧
    decodeSlot 0xA08012B800000000 = .ok (.stnWait 7 46) ∧
    decodeSlot 0xA00113B800000000 = .ok (.stnPasses 0 46) ∧
    decodeSlot 0xA00420DBA5C80000 = .ok (.probe 2 13 46 37 50) ∧
    decodeSlot 0xA01021B800000000 = .ok (.probeInv 4 46) ∧
    decodeSlot 0xA04022B800000000 = .ok (.probeTag 6 46) ∧
    decodeSlot 0xA00230421C89A000 = .ok (.copy 1 16 33 50 9 40) ∧
    decodeSlot 0xA00831421C89A000 = .ok (.copySt 3 16 33 50 9 40) ∧
    decodeSlot 0xA00232B872240000 = .ok (.pageReq 1 11 33 50 9) :=
  ⟨rfl, rfl, rfl, rfl, rfl, rfl, rfl, rfl, rfl, rfl, rfl, rfl, rfl, rfl, rfl, rfl, rfl⟩

/-- Words laid out by hand from the tables of R216, R221, R228. -/
theorem test_decodeSump :
    decodeSlot 0xC005009264000000 = .ok (.sumpAdd 5 18 9 9) ∧
    decodeSlot 0xC005019A40000000 = .ok (.sumpMax 5 19 9 0) ∧
    decodeSlot 0xC00502A264000000 = .ok (.sumpMin 5 20 9 9) ∧
    decodeSlot 0xC00503E800000000 = .ok (.sumpCnt 5 29) ∧
    decodeSlot 0xC0FF043AFC000000 = .ok (.sumpSnap 14 47 48) ∧
    decodeSlot 0xC0FF05AE80000000 = .ok (.sumpRd 21 13) ∧
    decodeSlot 0xC0FF060000000000 = .ok (.sumpClr) ∧
    decodeSlot 0xC0FF208520000000 = .ok (.pumpLd 33 18) ∧
    decodeSlot 0xC0FF218400000000 = .ok (.pumpGo 33) ∧
    decodeSlot 0xC0FF228D20000000 = .ok (.pumpIdle 35 18) ∧
    decodeSlot 0xC0FF23BC80000000 = .ok (.pumpDead 11 50) ∧
    decodeSlot 0xC0FF248400000000 = .ok (.pumpStat 33) ∧
    decodeSlot 0xC0FF258728000000 = .ok (.pumpActr 33 50 true) ∧
    decodeSlot 0xC0FF40A400000000 = .ok (.nmFence 41) ∧
    decodeSlot 0xC0FF41A500000000 = .ok (.nmStat 41 1) :=
  ⟨rfl, rfl, rfl, rfl, rfl, rfl, rfl, rfl, rfl, rfl, rfl, rfl, rfl, rfl, rfl⟩

/-- Words laid out by hand from the tables of R243. -/
theorem test_decodeSync :
    decodeSlot 0xE00000369CA00000 = .ok (.waitA 13 41 50 2) ∧
    decodeSlot 0xE00001A000000000 = .ok (.fence true false true false) ∧
    decodeSlot 0xE000015000000000 = .ok (.fence false true false true) ∧
    decodeSlot 0xE000028400000000 = .ok (.fenceRc 33) ∧
    decodeSlot 0xE000038520000000 = .ok (.publish 33 18) ∧
    decodeSlot 0xE00004852B400000 = .ok (.shadow 33 18 45) ∧
    decodeSlot 0xE000058800000000 = .ok (.shadowFree 34) ∧
    decodeSlot 0xE000068BC0000000 = .ok (.qwait 34 15) ∧
    decodeSlot 0xE000078C00000000 = .ok (.bar 35) ∧
    decodeSlot 0xE000089000000000 = .ok (.realign 36) ∧
    decodeSlot 0xE000099400000000 = .ok (.rdgtc 37) ∧
    decodeSlot 0xE0000A9800000000 = .ok (.goWait 38) ∧
    decodeSlot 0xE000108C014C0000 = .ok (.csrr 35 0x14C) ∧
    decodeSlot 0xE000118D20F10000 = .ok (.csrw 35 18 0x0F1) ∧
    decodeSlot 0xE000128D20F10000 = .ok (.csrs 35 18 0x0F1) ∧
    decodeSlot 0xE000138D20F10000 = .ok (.csrc 35 18 0x0F1) ∧
    decodeSlot 0xE000140000008001 = .ok (.trap 0x8001) ∧
    decodeSlot 0xE000158C00000000 = .ok (.tlbSync 35) ∧
    decodeSlot 0xE000169000000000 = .ok (.domsw 36) ∧
    decodeSlot 0xE000170000008002 = .ok (.dbrk 0x8002) :=
  ⟨rfl, rfl, rfl, rfl, rfl, rfl, rfl, rfl, rfl, rfl, rfl, rfl, rfl, rfl, rfl, rfl, rfl, rfl, rfl, rfl⟩

/-- Command words and near-memory halves laid out by hand from R222, R223 and R226. -/
theorem test_decodePump :
    decodePump 0x0000000000000000 none = .ok (.pumpSkip) ∧
    decodePump 0x1966A5C300000000 none = .ok (.act ⟨37, 2, 1⟩ 0x2A5C3) ∧
    decodePump 0x2964001E02D80070 none = .ok (.rd ⟨37, 2, 1⟩ 30 0x02D80070) ∧
    decodePump 0x34F8000403D80050 none = .ok (.wr ⟨19, 3, 2⟩ 4 0x03D80050) ∧
    decodePump 0x44F8000000000000 none = .ok (.pre ⟨19, 3, 2⟩) ∧
    decodePump 0x5A80000000000000 none = .ok (.prea 42) ∧
    decodePump 0x6A9D5A3C00000000 none = .ok (.refr ⟨42, 1, 3⟩ 0x15A3C) ∧
    decodePump 0x786E800B00140000 (some 0xBE0000003F000000) = .ok (.nmcFade ⟨⟨33, 2, 3⟩, 20, 11, 0x140000, 0xbe000000, 0x3f000000⟩) ∧
    decodePump 0x786E640C00140010 (some 0xBE00000100000000) = .ok (.nmcAxpy ⟨⟨33, 2, 3⟩, 19, 12, 0x140010, 0xbe000001, 0x0⟩) ∧
    decodePump 0x786E480D00140020 (some 0xBE00000200000000) = .ok (.nmcAdd ⟨⟨33, 2, 3⟩, 18, 13, 0x140020, 0xbe000002, 0x0⟩) ∧
    decodePump 0x786E2C0E00000000 (some 0xBE00000300000000) = .ok (.nmcScale ⟨⟨33, 2, 3⟩, 17, 14, 0x0, 0xbe000003, 0x0⟩) ∧
    decodePump 0x786E100F00000000 (some 0xBE00000400000000) = .ok (.nmcFill ⟨⟨33, 2, 3⟩, 16, 15, 0x0, 0xbe000004, 0x0⟩) :=
  ⟨rfl, rfl, rfl, rfl, rfl, rfl, rfl, rfl, rfl, rfl, rfl, rfl⟩

/-- Entries of the command ring laid out by hand from R414 and R415, with tag 0x5AA5. -/
theorem test_decodeCommand :
    decodeCommand [0x5aa50001, 0x21234, 0x55, 0xff0f, 0x0, 0x0, 0x0, 0x0] = .ok (.qset 0x1234 2 0x55 0xFF0F) ∧
    decodeCommand [0x5aa50002, 0x4321, 0x123456789a80, 0x0, 0x0, 0x0, 0x0, 0x0] = .ok (.ctxset 0x4321 0x123456789A80) ∧
    decodeCommand [0x5aa50003, 0x50102, 0x7000, 0x400, 0x0, 0x0, 0x0, 0x0] = .ok (.region 0x0102 5 0x7000 1024) ∧
    decodeCommand [0x5aa50004, 0xc, 0x1000, 0x0, 0x0, 0x0, 0x0, 0x0] = .ok (.tier 12 0x1000) ∧
    decodeCommand [0x5aa50004, 0x10, 0x7, 0x101, 0x202, 0x1, 0x0, 0x0] = .ok (.tierMigration 7 0x101 0x202 true) ∧
    decodeCommand [0x5aa50005, 0x203, 0x8040, 0x0, 0x0, 0x0, 0x0, 0x0] = .ok (.recover 0x0203 0x8040) ∧
    decodeCommand [0x5aa50006, 0x9000, 0x20, 0x0, 0x0, 0x0, 0x0, 0x0] = .ok (.faults 0x9000 32) ∧
    decodeCommand [0x5aa50007, 0xa000, 0x0, 0x0, 0x0, 0x0, 0x0, 0x0] = .ok (.resync 0xA000) ∧
    decodeCommand [0x5aa50008, 0x6, 0x0, 0x0, 0x0, 0x0, 0x0, 0x0] = .ok (.retireDie 6) ∧
    decodeCommand [0x5aa50008, 0x63b06, 0x0, 0x0, 0x0, 0x0, 0x0, 0x0] = .ok (.retireBank 6 5 0x63) ∧
    decodeCommand [0x5aa50009, 0xb000, 0x400, 0x0, 0x0, 0x0, 0x0, 0x0] = .ok (.fwload 0xB000 0x400) ∧
    decodeCommand [0x5aa5000a, 0x1, 0x2, 0x3, 0x4, 0xc000, 0x0, 0x0] = .ok (.attest 1 2 3 4 0xC000) ∧
    decodeCommand [0x5aa5000b, 0x115, 0x0, 0x0, 0x0, 0x0, 0x0, 0x0] = .ok (.domainJoin 0x15) ∧
    decodeCommand [0x5aa5000b, 0x15, 0x0, 0x0, 0x0, 0x0, 0x0, 0x0] = .ok (.domainLeave 0x15) ∧
    decodeCommand [0x5aa5000c, 0x15e0, 0x0, 0x0, 0x0, 0x0, 0x0, 0x0] = .ok (.pcap 5600) :=
  ⟨rfl, rfl, rfl, rfl, rfl, rfl, rfl, rfl, rfl, rfl, rfl, rfl, rfl, rfl, rfl⟩


/-! ### States for the witnesses -/

/-- The state after reset, with granule 0 of die 0 open to domain 0 (R310). -/
def base : State := State.reset.setGran 0 0 1

/-- As `base`, while a bundle issues. -/
def iss : State := base.modDie fun d => { d with issued := true }

/-- As `base`, with a message for the step that runs. -/
def msg (m : Msg) : State := { base with msg := m }

/-- A scalar access of `n` bytes at `ea`. -/
def acc (k : MemKind) (dst ea n : Nat) : MemOp :=
  { kind := k, dst := dst, ea := ea, size := n, uns := false, data := 0x1122334455667788, seq := 1, handler := false }

/-- A word has no stored error, no poison, and a bank that is not lost. -/
def sound (s : State) (w : Nat) : Bool :=
  !s.uncorr w && SMap.get .ok s.mem.ecc w == .ok && !SMap.get false s.mem.pz w

def loads (l : List MemOp) (s : State := base) : State := s.modCtx fun c => { c with ldq := l }

def stores (l : List MemOp) (s : State := base) : State := s.modCtx fun c => { c with stq := l }

/-! ### Each hypothesis of the statements is met -/

theorem witness_IntegerSlotsGiveTheirResult : iss.Issues := rfl
theorem witness_MultipliesGiveTheirProduct : iss.Issues ∧ (15 : BitVec 4) ≠ 0 := ⟨rfl, by decide⟩
theorem witness_ComparesGiveTheTestAndItsComplement : iss.Issues ∧ ((3 : BitVec 4) ≠ 15 ∨ (3 : BitVec 4) = 0) ∧
    (3 : BitVec 4) ≠ 0 := ⟨rfl, by decide⟩
theorem witness_PredicateAndHandleSlotsGiveTheirResult : iss.Issues ∧ (19 : BitVec 5).toNat ≤ 19 := ⟨rfl, by decide⟩
theorem witness_ScalarFloatSlotsGiveResultAndFlags : iss.Issues ∧
    (let o : FOp := ⟨4, 9, 0, 0, false, 0, false, 0, 0, 0⟩; o.sf = o.tf ∧ o.sf = 0) ∧
    (let o : FOp := ⟨4, 9, 0, 0, false, 0, false, 0, 11, 11⟩; o.sf = o.tf ∧ o.sf = 11) ∧
    (let o : FOp := ⟨4, 9, 0, 0, false, 0, false, 0, 9, 9⟩; o.sf = o.tf ∧ o.sf = 9) := ⟨rfl, by decide⟩
theorem witness_AccessesJoinTheirQueue : iss.Issues ∧
    (let o : MOp := ⟨7, 3, 3, false, 40⟩; Instr.ld o = .ld o ∨ Instr.ld o = .lds o ∨ Instr.ld o = .chk o) :=
  ⟨rfl, .inl rfl⟩

theorem witness_LocalLoadWritesItsDestination :
    (∀ o ∈ [acc .ld 7 8 8, acc .lds 63 15 1, acc .hld 15 0x1FE0 32, acc .chk 9 8 8], (loads [o]).ctx.ldq = [o] ∧
      (loads [o]).ctx.gets = [] ∧ (loads [o]).ctx.hoist = [] ∧
      (loads [o]).accessCause o false = none ∧ adDie o.ea = (loads [o]).cur ∧
      granMode ((loads [o]).mem.entryOf o.ea) ≠ 2 ∧ (loads [o]).sideDelay o.ready (opWords o) (opWords o) = none ∧
      ∀ w ∈ opWords o, sound (loads [o]) w = true) ∧
    (let o := acc .chk 9 0x28 8; let s := (loads [o]).modCtx fun c => { c with hoist := [⟨7, 0x20, 3⟩, ⟨9, 0x28, 3⟩] }
      s.ctx.ldq = [o] ∧ o.kind = .chk ∧ s.ctx.gets = [] ∧ (⟨9, 0x28, 3⟩ : Hoist) ∈ s.ctx.hoist ∧ 9 = o.dst ∧ 0x28 = o.ea ∧
      2 ^ 3 = o.size) ∧
    (let o := acc .chk 9 0x28 8; let s := (loads [o]).modCtx fun c => { c with gets := [acc .ld 7 (2 ^ 27) 8] }
      s.ctx.ldq = [o] ∧ o.kind = .chk ∧ s.ctx.gets ≠ []) := by decide +kernel

theorem witness_FailedAccessesHaveNoEffectButTheirReport :
    (∀ o ∈ [acc .ld 7 (2 ^ 30) 8, acc .ld 0 (2 ^ 31) 8, acc .lds 7 (2 ^ 30) 1, acc .hld 0 (2 ^ 30) 32],
      (loads [o]).ctx.ldq = [o] ∧ 2 ^ 30 ≤ o.ea ∧ (loads [o]).accessCause o false = some 0x0D) ∧
    (let o := acc .chk 7 (2 ^ 30) 8; (loads [o]).ctx.ldq = [o] ∧ (loads [o]).ctx.gets = [] ∧ (loads [o]).ctx.hoist = [] ∧
      (loads [o]).accessCause o false = some 0x0D) ∧
    (∀ o ∈ [acc .st 0 (2 ^ 30) 8, acc .hst 0 0x4000 32, acc .signal 0 0x4000 8],
      (stores [o]).ctx.stq = [o] ∧ (stores [o]).accessCause o true = some 0x0D ∧ (stores [o]).linkBusy = false) ∧
    (let s := base.modDisp fun p => { p with lostmap := 2 }; 2 ^ 27 < 2 ^ 30 ∧ s.disp.lostmap.getLsbD (adDie (2 ^ 27)).val = true) := by
  decide +kernel

theorem witness_LocalStoreWritesItsBytesAndNoOthers :
    (∀ o ∈ [acc .st 0 8 8, acc .st 0 0x1FFF 1, acc .st 0 0x1FFB 4, acc .hst 0 0x1FE0 32, acc .signal 0 0x40 8],
      (stores [o]).ctx.stq = [o] ∧ (stores [o]).linkBusy = false ∧
      o.size ∈ [1, 2, 4, 8, 32] ∧ adBank o.ea ≠ 127 ∧ (stores [o]).mem.wf = true ∧
      (stores [o]).accessCause o true = none ∧ adDie o.ea = (stores [o]).cur ∧
      granMode ((stores [o]).mem.entryOf o.ea) ≠ 2 ∧ granMode ((stores [o]).mem.entryOf o.ea) ≠ 6 ∧
      (stores [o]).sideDelay o.ready (opWords o) (opReads o) = none) := by decide +kernel

/-- A store verb of die 0 to die 1, with its commit-buffer entry. -/
def verb : Verb := { kind := .store, src := 0, seq := 3, stamp := 0, domid := 0, op := acc .st 0 (2 ^ 27) 8 }
def verbs (s : State := base) : State := s.modOrd fun o => { o with cb := [{ id := 3, verb := some verb, stamp := 0 }] }

theorem witness_CrossDieAccessesTravelAsVerbs :
    (∀ o ∈ [acc .ld 7 (2 ^ 27) 8, acc .lds 7 (2 ^ 27 + 8) 8, acc .hld 15 (2 ^ 27 + 32) 32, acc .chk 7 (2 ^ 27) 8],
      let s := loads [o] (State.reset.setGran 1 0 1); s.ctx.ldq = [o] ∧ s.ctx.gets = [] ∧ s.ctx.hoist = [] ∧
      s.accessCause o false = none ∧ adDie o.ea ≠ s.cur ∧ s.cbFreeFor ≠ 0) ∧
    (∀ o ∈ [acc .st 0 (2 ^ 27) 8, acc .hst 0 (2 ^ 27 + 32) 32, acc .signal 0 (2 ^ 27 + 8) 8],
      let s := stores [o] (State.reset.setGran 1 0 1); s.ctx.stq = [o] ∧ s.linkBusy = false ∧
      s.accessCause o true = none ∧ adDie o.ea ≠ s.cur ∧ s.cbFreeFor ≠ 0) ∧
    (let s : State := { verbs with msg := .verb verb, cur := 1 }; s.msg = .verb verb ∧ s.verbLive verb = true) ∧
    (∀ e ∈ [none, some (0x0B, 5)], let o := acc .ld 7 (2 ^ 27) 8
     let s := (msg (.response 1 5 e)).modCtx fun c => { c with gets := [{ o with data := 1 }] }
     s.msg = .response 1 5 e ∧ s.ctx.gets.find? (fun x => x.data == 1) = some { o with data := 1 }) := by decide +kernel

theorem witness_CombiningEntriesCloseAndCopiesCommit : (msg (.ack 3 0 true)).msg = .ack 3 0 true := rfl
theorem witness_VectorArithmeticIsLanewise : iss.Issues := rfl
theorem witness_VectorLogicIsLanewise : iss.Issues := rfl
theorem witness_VectorComparesAndMaskSlotsWriteMasks : iss.Issues := rfl
theorem witness_TranscendentalAndConvertSlotsAreLanewise : iss.Issues := rfl

theorem witness_ScanSlotsTakeTheirSourcesAndLand : iss.Issues ∧
    (let o : ScOp := ⟨0xC6, 0xDF, 0, 2, 5, false, 0, false, 0⟩; ∀ i ∈ [Instr.scanPsum 1 o, .scanPmax 1 o, .scanPmin 1 o,
      .scanRsum 1 o, .scanRmax 1 o, .scanRmin 1 o, .scanAmax 1 o, .scanArgmax 1 o, .scanTopk 1 o, .scanRank 1 o],
      wf i = true) ∧
    (let o : ScOp := ⟨0xC6, 0xDF, 0xC1, 9, 4, false, 0, false, 0⟩; ∀ i ∈ [Instr.scanSpsum 1 o, .scanCmpct 1 o],
      wf i = true) := ⟨rfl, by decide⟩

theorem witness_BeatSlotsIssueTheirSteps : iss.Issues := rfl
theorem witness_MatrixControlSlotsTakeEffect : iss.Issues := rfl

/-- A matrix step of bay 0 with given format codes. -/
def mxs (fa fb : Nat) : MxStep := { bay := 0, bank := false, fa := fa, fb := fb, tsel := 3, a := List.replicate 256 1, b := List.replicate 256 2 }

theorem witness_MatrixStepsLandInTheirBank : (mxs 1 1).fa ≠ 11 ∧
    (∃ (r : Resv) (lanes : List Lane), some r = (some ⟨0, 5, 0, 3, 7⟩ : Option Resv) ∧ lanes ≠ [] ∧ lanes[0]? = some 9) ∧
    (∀ l : List Lane, (some (List.replicate 256 3) : Option (List Lane)) = some l → l.length = 256) ∧
    SMap.wf 0 ((base.bayAt 7).mxu.acc true) = true ∧ SMap.wf 0 ((base.bayAt 7).mxu.acc (base.bayAt 7).mxu.act) = true ∧
    (List.replicate 256 (9 : Byte)).length = 256 ∧ SMap.wf 0 ([(65535, 5)] : SMap (BitVec 48)) = true ∧
    SMap.wf 0 ([] : SMap (BitVec 3)) = true := by
  refine ⟨by decide, ⟨⟨0, 5, 0, 3, 7⟩, [9], rfl, by decide, rfl⟩, ?_, ?_, ?_, ?_, ?_, ?_⟩
  · rintro l ⟨⟩; decide +kernel
  all_goals decide +kernel

theorem witness_MatrixStepUpdatesEveryCell : (∀ x ∈ [mxs 1 1, mxs 4 3, mxs 8 10, mxs 5 6, mxs 7 7], x.a.length = 256 ∧
      x.b.length = 256 ∧ x.hold = false ∧ (let m := (base.bayAt x.bay).mxu
        SMap.wf 0 (m.acc x.bank) = true ∧ SMap.wf 0 m.p = true ∧ SMap.wf 0 m.pf = true) ∧
      ((1 ≤ x.fa ∧ x.fa ≤ 4 ∧ 1 ≤ x.fb ∧ x.fb ≤ 4) ∨ (x.fa = 8 ∧ x.fb = 10 ∧ x.tsel ≤ 3) ∨
        (5 ≤ x.fa ∧ x.fa ≤ 7 ∧ 5 ≤ x.fb ∧ x.fb ≤ 7))) ∧ 65535 < 65536 := by decide +kernel

theorem witness_StreamSlotsAndArrivalsTakeEffect : iss.Issues ∧ 31 < 32 ∧
    ∃ i ∈ [Instr.streamEntryArrival 0 31 ⟨[], [], []⟩, .xferDelivery 0 31 ⟨[], [], []⟩], i ≠ .nop :=
  ⟨rfl, by decide, _, .head _, by decide⟩

theorem witness_StencilSlotsBeginTheirWork : iss.Issues ∧ iss.ctx.cut = none ∧ (iss.bayAt 7).cutPasses < 2 ^ 63 ∧
    (iss.modCtx fun c => { c with cut := some ⟨3, false, 12, 0, 0, 0, false, 0, [], none, []⟩ }).ctx.cut ≠ none :=
  ⟨rfl, by decide +kernel⟩

def ldJob (bad : Option (Bool × Nat)) : LdJob := ⟨2, true, 127, 0x100, 0, [1, 2, 3], bad⟩
def cutJob : CutJob := { bay := 3, dir := false, slot := 127, addr := 0, caddr := 0x40, pass := 0, strict := false, start := 0 }

theorem witness_StencilWorkCompletes :
    (∀ bad ∈ [none, some (true, 0x110)], (msg (.load (ldJob bad))).msg = .load (ldJob bad) ∧
      SMap.wf 0 ((msg (.load (ldJob bad))).bayAt 2).stn = true ∧ (ldJob bad).slot < 128 ∧ (ldJob bad).bad = bad) ∧
    (let s := msg (.cut cutJob); s.msg = .cut cutJob ∧ cutJob.slot < 128 ∧ SMap.wf 0 (s.bayAt 3).stn = true ∧
      cutJob.drop = [] ∧ s.mem.wf = true ∧ (s.dieAt (adDie 0x40)).shadowOf (granule 0x40) = none ∧
      s.engReads s.ctx.domid.toNat 0x40 = true ∧ s.engReads 7 0x40 = false) := by
  refine ⟨by decide +kernel, ?_⟩
  decide +kernel

theorem witness_EngineSlotsQueueTheirRequest : iss.Issues := rfl
theorem witness_ProbeSlotsUseTheTable : iss.Issues ∧ (let p := (iss.bayAt 0).probe; SMap.wf (0, 0) p.ent = true) :=
  ⟨rfl, by decide +kernel⟩

/-- A copy of one word from granule 0 to the reservoir, one back, and a fill of slot 5. -/
def copy1 : CopyReq :=
  { form := 1, die := 0, dst := 0x8000000000000010, srcA := 0x20, len := 1, caddr := 0, cval := 0, domid := 0, rbase := 0,
    rlen := 4096, bay := 0, slot := 0, gen := 0, id := 4 }
def copy0 : CopyReq := { copy1 with form := 0, dst := 0x20, srcA := 0x8000000000000010 }
def fill1 : CopyReq :=
  { form := 2, die := 0, dst := 0, srcA := 0x8000000000002000, len := 512, caddr := 0, cval := 0, domid := 0, rbase := 0,
    rlen := 2 ^ 20, bay := 3, slot := 5, gen := 0, id := 5 }
/-- A request as the engine has read a word of it. -/
def gotOf (r : CopyReq) : CopyReq := { r with got := some (List.replicate 16 7, false) }
def engine (m : CopyReq) (l : List CopyReq) : State := (msg (.copy m)).modDie fun d => { d with engine := l }
/-- Every address of a request may be used by an engine of its domain, and its completion word is in reach. -/
def plain (s : State) (a : Nat) : Bool := s.mem.wf && (s.dieAt (adDie a)).shadowOf (granule a) == none

theorem witness_EngineWorkCompletesInOrder :
    (∀ r ∈ [copy1, copy0, fill1], let s := engine r [r]; s.msg = .copy r ∧ s.die.engine = [r] ∧ s.mem.wf = true ∧ r.drop = [] ∧
      1 ≤ r.len ∧ r.len ≤ 2 ^ 20 ∧ resBad r = false ∧ r.got = none ∧ r.pos < r.len ∧ s.copyAllowed r r.pos = true ∧
      fromRes r = (r.form != 1) ∧ plain s (r.caddr / 16 * 16) = true ∧ s.sideTaken [r.caddr / 16] = false ∧
      s.completes r.domid r.caddr = true) ∧
    (let s := engine copy1 [copy1]; let w := seqWord copy1.srcA.toNat 0 / 16;
      s.sideDelay copy1.ready [w] [w] = none ∧ sound s w = true) ∧
    (∀ r ∈ [copy1, copy0, fill1], let r' := gotOf r; let s := engine r' [r']; s.die.engine = [r'] ∧
      r'.got = some (List.replicate 16 7, false) ∧ (List.replicate 16 (7 : Byte)).length = 16 ∧
      (r.form ≠ 1 → plain s (seqWord r.dst.toNat 0) = true ∧ s.sideDelay 0 [seqWord r.dst.toNat 0 / 16] [] = none)) ∧
    (∀ r ∈ [{ copy1 with pos := 1 }, { copy0 with pos := 1 }, { fill1 with pos := 512 }],
      let s := (engine r [r]).modBay 3 fun b => { b with probe := { b.probe with ent := [(5, (1, 2))] } };
      r.len ≤ r.pos ∧ r.got = none ∧ resBad r = false ∧ (r.form = 2 → (s.bayAt r.bay).probe.gen = r.gen ∧
        SMap.wf (0, 0) (s.bayAt r.bay).probe.ent = true ∧
        SMap.get (0, 0) (s.bayAt r.bay).probe.ent r.slot = (blockOf r.srcA, 2))) ∧
    (let r := { copy1 with rlen := 0 }; (engine r [r]).copyAllowed r 0 = false ∧ resBad r = false) ∧
    (let r := { copy1 with len := 0 }; ¬(1 ≤ r.len ∧ r.len ≤ 2 ^ 20 ∧ resBad r = false)) ∧
    (let s := engine copy1 [fill1, copy1]; s.msg = .copy copy1 ∧ s.die.engine = fill1 :: [copy1] ∧ fill1.id ≠ copy1.id) ∧
    (let s := base.modDie fun d => { d with pageq := [(7, 0, 1, 0)] }; s.die.pageq[0]? = some (7, 0, 1, 0) ∧ s.drop = [] ∧
      plain s 0 = true) := by
  refine ⟨?_, ?_, ?_, ?_, ?_, ?_, ?_, ?_⟩ <;> decide +kernel

theorem witness_SumpSlotsGroupTheirUpdates : iss.Issues ∧
    (let s := iss.modBay 4 fun b => { b with q := b.q.set 31 { bound := true, port := 11 } };
     ((s.bayAt 4).str 31).bound = true ∧ ((s.bayAt 4).str 31).port = 11) := ⟨rfl, by decide +kernel⟩

theorem witness_SumpUpdatesReachTheirTargets :
    (let g : SumpGroup := { bay := 0, sop := 0, fmt := 9, vals := [(8188, 0xFFFFFFFF), (8188, 2)], slots := 1 };
     let s := (msg (.group g)).modDie fun d => { d with groups := [g] };
     s.msg = .group g ∧ s.die.groups = [g] ∧ g.drop = [] ∧ 8188 % 4 = 0 ∧ adDie 8188 = s.cur ∧
      s.engMayWrite g.dom 8188 = true ∧ plain s 8188 = true ∧ sound s (8188 / 16) = true ∧
      s.sideDelay g.ready [8188 / 16] [8188 / 16] = none) ∧
    (let g : SumpGroup := { bay := 0, sop := 0, fmt := 9, vals := [(2 ^ 27, 1)], slots := 1 };
     let s := (msg (.group g)).modDie fun d => { d with groups := [g] };
     s.msg = .group g ∧ s.die.groups = [g] ∧ adDie (2 ^ 27) ≠ s.cur ∧ s.cbFreeFor ≠ 0) ∧
    SMap.wf 0 base.ctx.ctr = true ∧
    (∀ cs ∈ [[], [1, 2, 3, 4], List.replicate 256 (5 : Word32)], let s := msg (.snap cs 0 0 5 0 0 []);
      s.msg = .snap cs 0 0 5 0 0 [] ∧ s.die.groups = [] ∧ s.die.ord.verbs = [] ∧ plain s 0 = true ∧
      plain s (seqWord 0 (64 - cs.length / 4)) = true ∧ s.sideTaken [0] = false ∧
      s.sideTaken [seqWord 0 (64 - cs.length / 4) / 16] = false) ∧
    (0 < 2 ^ 30 ∧ adDie 0 = base.cur ∧ (∀ k, k < 64 → base.engMayWrite 0 (seqWord 0 k) = true) ∧ ¬ (2 ^ 30 < 2 ^ 30)) := by
  refine ⟨?_, ?_, ?_, ?_, ?_⟩ <;> decide +kernel

/-- The handle, the leaf and the tile of the worked example under R309: tensor 3, BF16, (1,024, 256), BASE 100, leaf 118. -/
def h309 : Handle := .ofNat 256 (3 * 2 ^ 240 + 1 * 2 ^ 236 + 3 * 2 ^ 226 + 1 * 2 ^ 224 + 256 * 2 ^ 176 + 1024 * 2 ^ 160 +
  5 * 2 ^ 148 + 7 * 2 ^ 144 + 100 * 2 ^ 48)
def s309 (s : State := base) : State :=
  (s.modMem fun m => { m with cistern := wrBytes m.cistern (118 * 16) (natBytes (677 + 3 * 2 ^ 66 + 2 ^ 84) 16) }).modCtx fun c =>
    { c with h := c.h.set 2 h309, leafN := 200 }

/-- A table image of one empty row that wraps. -/
def img : List Byte := natBytes (1 + 2 ^ 48) 64

theorem witness_PumpSlotsTakeEffect : iss.Issues ∧
    (let s := iss.modCtx fun c => { c with pump := { c.pump with standby := some img } };
     s.ctx.pump.standby = some img ∧ parseTable img = .ok ⟨1, 0, true, 0, []⟩) ∧
    (s309 iss).Issues ∧ (s309 iss).tileRows ((s309 iss).ctx.rh 2) 18 = .ok ((List.range 8).map fun k => (16 * (24 + k), 677)) ∧
    (∀ g : Segment, (none : Option Segment) = some g → False) ∧ SMap.wf 0 iss.die.pump.acnt = true ∧
    (1 : BitVec 2) ≠ 0 ∧ iss.ctx.nmFirst = none ∧ (iss.modCtx fun c => { c with nmFirst := some 5 }).ctx.nmFirst = some 5 :=
  ⟨rfl, by decide +kernel, rfl, by decide +kernel, by simp, by decide +kernel, by decide, rfl, rfl⟩

/-- A row of the table issues: bank 401 (PC 25, BG 0, BK 1) holds row 677 open, as `o` says. -/
def rows (o : OpenRow) (s : State := s309) : State :=
  s.modDie fun d => { d with rows := true, pump := { d.pump with bank := [(401, o)] } }
def open677 : OpenRow := .row 677 none 0 0 0 false false true
def bk401 : BankId := ⟨25, 0, 1⟩

theorem witness_PumpCommandsOpenCloseAndRefreshBanks :
    (let s := rows open677; s.die.rows = true ∧ SMap.wf .closed s.die.pump.bank = true ∧ s.ctx.tabSwz = 0 ∧
      s.die.pump.bankAt (bankNum bk401) = .row 677 none 0 0 0 false false true ∧
      SMap.wf false s.die.pump.dead = true ∧ SMap.wf 0 s.die.pump.debtOf = true) ∧
    (let s := (rows open677).modCtx fun c => { c with pump := { c.pump with active := some ⟨30, 0, true, 3, []⟩ } };
     s.translate true (bankNum ⟨25, 0, 0⟩) 0x8012 s.ctx.tabSwz =
       .ok ⟨118 * 16, 677 + 3 * 2 ^ 66 + 2 ^ 84, 0, 0, 3, some 677⟩) := by decide +kernel

def wrd : WrData := { bank := bk401, row := 677, col := 30, caddr := 0, data := 5, pz := (false, false) }
def rdd : RdData := { bay := 7, k := 1, word := 8191, due := 0, bank := bk401, row := 677, col := 30, data := 0, pz := (false, false), nr := false }

theorem witness_PumpDataMovesBetweenRowsAndBays :
    (let s : State := { rows open677 with msg := .wrData wrd }; s.die.rows = true ∧
      s.die.pump.bankAt (bankNum bk401) = .row 677 none 0 0 0 false false true ∧ s.msg = .wrData wrd ∧
      SMap.wf 0 s.mem.hbm = true ∧ SMap.wf false s.mem.hbmPz = true ∧ s.die.pump.nmc = [] ∧ s.die.pump.rds = []) ∧
    (let s := rows (.void 5 0 1); s.die.rows = true ∧ s.die.pump.bankAt (bankNum bk401) = .void 5 0 1) ∧
    (let s := (msg (.rdData rdd)).modPump fun p => { p with rds := [rdd] }; s.msg = .rdData rdd ∧ s.die.pump.nmc = [] ∧
      s.die.pump.rds = [rdd] ∧ s.die.pump.blocked rdd.bank.pc.toNat rdd.seq = false ∧ rdd.ctx = s.ctx.ctxNo.toNat ∧
      s.disp.launches = [] ∧ ∀ u ∈ [0, 1],
      SMap.get .ok s.mem.hbmErr (unitKey s.cur.val (bankNum rdd.bank) rdd.row (rdd.col + u)) = .ok) ∧
    (let s := base.modCtx fun c => { c with pump := { c.pump with ret := [rdd] } }; ∀ x ∈ s.ctx.pump.ret, x.due ≤ s.ctx.rtl) := by
  decide +kernel

def job (op n : Nat) : NmcJob := ⟨op, bk401, 677, 31 - n, n, 0, 0x3F000000, 0, 0, 0, none⟩

theorem witness_NearMemoryCommandsAreQueuedAndPerformed :
    (let s := rows open677; s.die.rows = true ∧ s.die.pump.bankAt (bankNum bk401) = .row 677 none 0 0 0 false false true) ∧
    (∀ j ∈ [job 4 31, job 3 1, job 2 1, job 1 1, job 0 1], let s := (msg (.nmc j)).modPump fun p => { p with nmc := [j] }
      s.msg = .nmc j ∧ s.die.pump.nmc = [j] ∧ s.die.pump.rds = [] ∧ s.die.pump.nmcBlocked j = false ∧
      SMap.wf 0 s.mem.hbm = true ∧ (j.op = 4 ∨ j.op ≤ 3 ∧ j.count = 1) ∧
      (let u := unitKey s.cur.val (bankNum j.bank) j.row j.col;
        SMap.get false s.mem.hbmPz u = false ∧ SMap.get .ok s.mem.hbmErr u = .ok) ∧
      (let src := fun k => seqWord (j.caddr / 32 * 32) k; sound s (src 0 / 16) = true ∧ sound s (src 1 / 16) = true)) := by
  decide +kernel

/-- An idle image of one REFR, and one that no idle image may be. -/
def refrImg : List Byte := natBytes (1 + 2 ^ 48) 64 ++ natBytes (2 ^ 24) 8 ++ natBytes 0x60D201F300000000 8
def actImg : List Byte := natBytes (1 + 2 ^ 48) 64 ++ natBytes (2 ^ 24) 8 ++ natBytes 0x10C4004000000000 8
def idleAt (r : IdleRun) (s : State := base) : State := s.modPump fun p => { p with idle := some r }
def isOk (x : Except Nat PumpTab) (b : Bool) : Bool := match x with
  | .ok t => t.idleOk == b
  | .error _ => false

theorem witness_StagingAndTheIdleSequenceRun :
    (let s := (msg (.stage false)).modCtx fun c => { c with pump := { c.pump with stage := some ⟨none, 64, img, img⟩ } };
     s.msg = .stage false ∧ s.ctx.pump.stage = some ⟨none, 64, img, img⟩) ∧
    (∀ x ∈ [(refrImg, true), (actImg, false)],
      (let s := (msg (.stage true)).modCtx fun c => { c with
          pump := { c.pump with stageIdle := some ⟨some 64, 80, [], x.1⟩ }, wait := [{ instr := .pumpIdle 1 2 }] };
       s.msg = .stage true ∧ s.ctx.pump.stageIdle = some ⟨some 64, 80, [], x.1⟩ ∧
       s.ctx.wait = [{ instr := .pumpIdle 1 2 }]) ∧ isOk (parseTable x.1) x.2 = true) ∧
    (let s := base.modPump fun p => { p with idleTab := some ⟨1, 0, true, 0, []⟩ };
     s.die.pump.idle = none ∧ s.die.pump.idleTab.isSome = true) ∧
    (let r : IdleRun := { ready := true }; (idleAt r).die.pump.idle = some r ∧ r.phase = .run ∧ r.left = [] ∧ r.ready = true) ∧
    (let r : IdleRun := {}; (idleAt r).die.pump.idle = some r ∧ r.phase = .run ∧ r.left = [] ∧ r.ready = false) ∧
    (let r : IdleRun := { left := [0x60D201F300000000] }; (idleAt r).die.pump.idle = some r ∧ r.phase = .run ∧
      (idleAt r).idleMeets (.refr ⟨3, 1, 0⟩ 0x201F3) = true ∧ SMap.wf 0 (idleAt r).die.pump.debtOf = true ∧
      (idleAt r (base.modPump fun p => { p with bank := [(52, open677)] })).idleMeets (.refr ⟨3, 1, 0⟩ 0x201F3) = false) ∧
    (let r : IdleRun := { phase := .reopen [] }; (idleAt r).die.pump.idle = some r ∧ r.phase = .reopen []) ∧
    (let r : IdleRun := { phase := .reopen [(1023, open677)] }; (idleAt r).die.pump.idle = some r ∧
      r.phase = .reopen ((1023, open677) :: []) ∧ SMap.wf .closed (idleAt r).die.pump.bank = true ∧
      (idleAt r).idleMeets (.act ⟨.ofNat 6 (1023 / 16), .ofNat 2 (1023 / 4), .ofNat 2 1023⟩ 0) = true) := by decide +kernel

theorem witness_refr : decodePump 0x60D201F300000000 none = .ok (.refr ⟨3, 1, 0⟩ 0x201F3) := rfl

def lvl (n : Nat) (l : Level) (s : State := iss) : State := s.modCtx fun c => c.setLevel n l

def setS (r : Fin 64) (v : Word) (s : State := iss) : State := s.modCtx fun c => { c with s := c.s.set r.val v r.isLt }

theorem witness_ControlSlotsChooseTheNextBundle : iss.Issues ∧ (5 : BitVec 3).toNat < 6 ∧ (iss.rs 0).toNat % 2 ^ 32 = 0 ∧
    ((setS 9 7).rs 9).toNat % 2 ^ 32 ≠ 0 ∧
    (let s := iss.modBay 3 fun b => { b with m := b.m.set 2 (BitVec.allOnes 128) };
      (∀ b ∈ [(3 : BayIx)], ∀ k, k < 128 → ((s.bayAt b).mask 2).getLsbD k = true) ∧ (8 : BitVec 8).getLsbD 3 = true) ∧
    (let s := lvl 5 { count := 1, maxt := 4, iter := 1, act := true }; s.Issues ∧ (s.ctx.level 5).stCount = none ∧
      (s.ctx.level 5).count - 1 = 0) ∧
    (let s := lvl 5 { count := 5, maxt := 4, iter := 3, act := true }; (s.ctx.level 5).count - 1 ≠ 0 ∧
      (s.ctx.level 5).maxt ≤ (s.ctx.level 5).iter + 1 ∧ s.ctx.trap = none) ∧
    (let s := lvl 5 { count := 5, maxt := 4, iter := 2, act := true }; ¬(s.ctx.level 5).maxt ≤ (s.ctx.level 5).iter + 1) ∧
    (let s := iss.modCtx fun c => { c with exw := true }; s.Issues ∧ s.ctx.exw = true ∧ iss.ctx.exw = false) := by
  refine ⟨rfl, by decide, by decide +kernel, by decide +kernel, ?_, ⟨rfl, by decide +kernel⟩, by decide +kernel, by decide +kernel,
    ⟨rfl, by decide +kernel⟩⟩
  decide +kernel

theorem witness_ControlRegisterSlotsReadAndWrite : iss.Issues ∧ 5 < 6 ∧ (iss.ctx.level 5).act = false ∧
    ((lvl 5 { act := true }).ctx.level 5).act = true := ⟨rfl, by decide, rfl, by decide +kernel⟩

theorem witness_RegisterWritesChangeTheirFields : (3 : BitVec 2) = 3 ∧ (1 : BitVec 2) ≠ 3 ∧
    (0x147 : Nat) ∈ [0x013, 0x060, 0x061, 0x062, 0x063, 0x06C, 0x140, 0x141, 0x142, 0x143, 0x144, 0x145, 0x147] := by decide

theorem witness_SyncAndSystemSlotsTakeEffect : iss.Issues ∧ iss.ctx.trap = none ∧
    (let s := iss.modCtx fun c => { c with rcDrop := some 0x101 }; s.ctx.rcBroke = none ∧ s.ctx.rcDrop = some 0x101) ∧
    iss.ctx.waited (.domsw 9) = false ∧ iss.domswId 9 = iss.ctx.domid ∧ (setS 9 7).Issues ∧
    (setS 9 7).domswId 9 ≠ (setS 9 7).ctx.domid ∧
    (let s := iss.modDie fun d => { d with offsets := [(1, 3), (2, -9)] }; s.Issues ∧ s.die.offsets ≠ [] ∧
      (s.die.offsets.map Prod.snd).sum = (-3) * (s.die.offsets.length : Int)) :=
  ⟨rfl, rfl, by decide +kernel, by decide +kernel, by decide +kernel, rfl, by decide +kernel, rfl, by decide +kernel⟩

/-- Granule 0 live for the domain, granule 16000 in the shadow pool. -/
def pool : State := iss.setGran 0 16000 5

def shad : State := setS 9 1 pool

theorem witness_ShadowSetsAreMadeAndFreed : iss.Issues ∧ iss.shadowAlloc (iss.rs 0) (iss.rs 0) = none ∧
    (let s := shad; s.Issues ∧ (∃ k maps, s.shadowAlloc (s.rs 0) (s.rs 9) = some (k, maps)) ∧ s.mem.wf = true) := by
  refine ⟨rfl, by decide +kernel, rfl, ?_, by decide +kernel⟩
  have h : 16000 ∈ shad.poolFree := List.mem_filter.2 ⟨List.mem_range.2 (by decide), by decide +kernel⟩
  refine ⟨0, [0].zip (shad.poolFree.take 1), ?_⟩
  have h1 : bitsAt (shad.rs 9).toNat 0 7 = 1 := by decide +kernel
  have h2 : granule 0 = 0 := by decide
  have h3 : (shad.rs 0).toNat = 0 := by decide +kernel
  have h4 : adDie 0 = shad.cur := by decide +kernel
  have h5 : shad.shadowable 0 = true := by decide +kernel
  have h6 : shad.die.freeSet = some 0 := by decide +kernel
  simp only [State.shadowAlloc, h1, h2, h3, h6]
  simp [List.range_succ, h4, h5, List.ne_nil_of_mem h]

theorem witness_LandedResultsWriteTheirRegisters : 7 < 8 ∧ (List.replicate 128 (5 : Word32)).length = 128 ∧
    SMap.wf 0 (iss.bayAt 7).v = true ∧ SMap.wf 0 (iss.bayAt 7).o = true ∧ SMap.wf 0 (iss.bayAt 7).k = true ∧
    (∀ a ∈ [0, 2 ^ 30 - 16], a % 16 = 0 ∧ a < 2 ^ 30 ∧ plain iss a = true ∧ sound iss (a / 16) = true) := by decide +kernel

theorem witness_ScanGroupsComputeTheirFunction : ∀ opc ∈ [0, 4, 5, 6, 8, 11],
    let j : ScanJob := ⟨opc, 9, 4, false, 0, false, 0, [], [], none⟩; j.fmt = 9 ∧ j.carry = false ∧ j.sat = false ∧
      [1, 0xFFFFFFFF, 0, 5].length = [0, 1, 1, 0].length ∧ (∀ x ∈ [1, 0xFFFFFFFF, 0, 5], x < 2 ^ 32) ∧
      [1, 0xFFFFFFFF, 0, 5].length ≤ 64 ∧ j.opc ≠ 10 := by decide

/-- Three lanes of a pour to bay 7 under the identity stencil, to words 8,191 and 0, the last outside the banks of its
entry. -/
def pour7 : Pour := ⟨7, 0, [⟨0, 1, some (0, 1), 8191, true, false⟩, ⟨15, 2, none, 0, false, true⟩, ⟨1023, 3, some (0, 1), 0, false, false⟩]⟩
/-- A pour to word 516 of bank 0 of bay 0, in granule 1, which is mode TXW with peer set 0: its entry is at address 64. -/
def pourT : Pour := ⟨0, 0, [⟨0, 1, none, 516, false, false⟩, ⟨7, 2, none, 516, false, false⟩]⟩
def txw : State := { ((((base.modDie fun d => { d with win := { d.win with psbase := 64 } }).modMem fun m =>
    { m with cistern := wrBytes m.cistern 64 (natBytes (1 + 2 ^ 256) 64) }).setGran 0 0 6).setGran 0 1 2) with sideW := [] }

theorem witness_PoursWriteTheirLanesAndNoOtherByte : base.mem.wf = true ∧ ({ base with sideW := [] } : State).sideW = [] ∧
    (let w := fun k => if k = 0 then 8191 else 0
     let bank := fun (l : PourLane) => laneOut pour7.stn l.lane / 8
     let ls := pour7.lanes.filter fun l => match l.banks with
       | some (b0, n) => inBanks b0 n (bank l)
       | none => true
     let at_ := fun (l : PourLane) => wordAddr base.cur.val pour7.bay.val (bank l) (w (bank l)) + 2 * (laneOut pour7.stn l.lane % 8)
     (∀ k, w k < 8192) ∧ (∀ l ∈ pour7.lanes, l.lane < 1024) ∧ (pour7.lanes.map (·.lane)).Nodup ∧ ls.length = 2 ∧
      (∀ l ∈ ls, (∀ x ∈ ls, bank x = bank l → l.lane ≤ x.lane) → l.word = w (bank l)) ∧
      ∀ l ∈ ls, granMode (base.mem.entryOf (at_ l)) ≠ 2 ∧ sound base (at_ l / 16) = true ∧ (pour7.bay.val = 7 → bank l ≠ 127)) ∧
    (let a := wordAddr txw.cur.val pourT.bay.val 0 516
     txw.mem.wf = true ∧ txw.sideW = [] ∧ txw.mem.ecc = [] ∧ pourT.lanes ≠ [] ∧ (pourT.lanes.map (·.lane)).Nodup ∧
      (∀ l ∈ pourT.lanes, l.lane < 1024 ∧ l.banks = none ∧ l.word = 516 ∧ laneOut pourT.stn l.lane / 8 = 0) ∧
      granMode (txw.mem.entryOf a) = 2 ∧ sound txw (a / 16) = true ∧ (txw.txWindow a).isSome = true) := by
  refine ⟨by decide +kernel, rfl, ⟨?_, ?_⟩, ?_⟩
  · intro k; dsimp only; split <;> decide
  · decide +kernel
  · decide +kernel

/-- One bundle: a header with HOLD 2, and `ADDI s5, s5, 16` in slot 2 (its word is the spec's, R127). -/
def bundle : List Nat := [0x2000000000000004, 0, 0x2000101450000010] ++ List.replicate 13 0

/-- A die at that bundle, with its last bundle behind it, a trap segment, and the power limiter off. -/
def atBundle : State := (base.modCtx fun c => { c with seg := some { va := 128, bundles := [bundle, bundle] }, tvec := 4096 }).modDie
  fun d => { d with running := true, err := { d.err with limEn := false } }

/-- The image of a segment of one empty bundle, by the tables of R73 and R75, in the reservoir; leaf 0 is its page. Its CRC
is CRC-32C by the definition of R73, computed by hand. -/
def segBytes : List Byte := natBytes (0x4753524A + 2 ^ 32) 16 ++ natBytes 1 16 ++ natBytes 64 8 ++ natBytes 0x49E4AB34 24 ++
  natBytes (2 ^ 44) 64
def segState : State := (base.modMem fun m => { m with
    cistern := wrBytes m.cistern 0 (natBytes (2 ^ 72 + 2 ^ 84) 16), res := wrBytes m.res 0 segBytes }).modCtx fun c =>
  { c with half := .expanding 0, leafN := 1, rlen := 8192 }
/-- The same, when the page lies in a stack whose banks are all open (R4). -/
def segWait : State := (base.modMem fun m => { m with cistern := wrBytes m.cistern 0 (natBytes (2 ^ 84) 16) }).modDie fun d =>
  { d with ctx := { d.ctx with half := .expanding 0, leafN := 1 }
           pump := { d.pump with bank := (List.range 1024).map fun b => (b, .row 5 none 0 0 0 false false false) } }
/-- The same, when there is no page. -/
def segLost : State := base.modCtx fun c => { c with half := .expanding 0 }

theorem witness_SequencerIssuesStallsAndHolds :
    (let s := atBundle; s.ctx.restored = false ∧ s.ctx.target = none ∧ s.ctx.removed = false ∧ hdrSafe s.ctx.bundle = false ∧
      s.ctx.safeB = false ∧ s.ctx.due = [] ∧ s.ctx.staticTrap = none ∧ s.ctx.sump = [] ∧ s.ctx.acting = [(2, .addi 5 5 16)] ∧
      (s.startWait (.addi 5 5 16)).waitRead (.addi 5 5 16) = s ∧ s.slotWaits [] (.addi 5 5 16) = [] ∧
      firstOf [s.ctx.safeTrap, s.ctx.boardTrap s.ctx.acting] = none ∧ s.slotsTrap [] s.ctx.acting = none ∧
      s.cbWaits s.ctx.acting = false ∧ s.ctx.pump.active = none ∧ s.die.err.limEn = false ∧ s.die.err.freeze = 0 ∧
      s.die.err.rcBusy = false) ∧
    (let s := atBundle.modCtx fun c => { c with pendS := 32 }; s.ctx.acting = [(2, .addi 5 5 16)] ∧
      s.slotWaits [] (.addi 5 5 16) ≠ [] ∧ s.ctx.staticTrap = none ∧
      (s.startWait (.addi 5 5 16)).waitRead (.addi 5 5 16) = s) ∧
    (let s := atBundle.modCtx fun c => { c with hold := 2 }; s.ctx.hold ≠ 0 ∧ s.ctx.pump.active = none) ∧
    (let s := atBundle.modCtx fun c => { c with preq := true }; atBundle.ctx.preq = false ∧ s.die.running = true ∧
      s.ctx.preq = true ∧ s.ctx.hold = 0 ∧ s.ctx.exiting = false ∧ s.ctx.trap = none) ∧
    (let s := atBundle.modOrd fun o => { o with cbStall := 64 }; s.die.ord.cbStall ≠ 0 ∧ s.die.running = true ∧ s.ctx.pend = [] ∧
      s.ctx.inH = false ∧ s.ctx.tvec ≠ 0) := by decide +kernel

theorem witness_SequencerIssuesStallsAndHolds_segments :
    (let s := segState; s.ctx.half = .expanding 0 ∧ s.ctx.restored = false ∧ (s.readSegment 0).2.1.bad = none ∧
      (s.readSegment 0).2.1.bundles.length = 1 ∧ (s.readSegment 0).2.2 = []) ∧
    (let s := segState.modCtx fun c => { c with restored := true }; s.ctx.restored = true ∧ (s.readSegment 0).2.1.bad = none) ∧
    (segWait.ctx.half = .expanding 0 ∧ (segWait.readSegment 0).2.1.bad = some (0, 0)) ∧
    (segLost.ctx.half = .expanding 0 ∧ (segLost.readSegment 0).2.1.bad.isSome = true ∧
      (segLost.readSegment 0).2.1.bad ≠ some (0, 0) ∧ (segLost.readSegment 0).2.2 = []) := by decide +kernel

/-- A trap on its way, on a die whose turn it is. -/
def trapped (cause : Nat) (f : Ctx → Ctx := id) : State :=
  { atBundle.modCtx fun c => f { c with trap := some { cause := cause, idx := 255, va := 128, rIdx := 0, rVa := 256 } } with
    todo := [⟨0, .turn⟩] }

theorem witness_TrapsSaveTheirRecordAndEnterTheHandler :
    (∀ s ∈ [trapped 0x14, trapped 0x0F, trapped 0x13, trapped 0x14 fun c => { c with inH := true },
        trapped 0x0F fun c => { c with inH := true }, trapped 0x14 fun c => { c with tvec := 0 }],
      s.todo = [⟨s.cur, .turn⟩] ∧ s.die.running = true ∧ s.die.alive = true ∧ s.ctx.pend = [] ∧
      ∃ r ∈ s.ctx.trap, r.cause < 2 ^ 8 ∧ r.slots < 2 ^ 15 ∧ r.bays < 2 ^ 8) ∧
    (let s := trapped 0x14 fun c => { c with pend := [⟨3, 0, 0, .nop, .none⟩] }; s.ctx.pend ≠ []) ∧
    toDispatcher 0x14 = false ∧ toDispatcher 0x0F = true ∧ toDispatcher 0x13 = true ∧ (trapped 0x14).ctx.inH = false ∧
    (trapped 0x14).ctx.tvec ≠ 0 := by decide +kernel

/-- A bundle with `TLB.SYNC s2` in slot 15. -/
def sysBundle : List Nat := 0x8000 :: List.replicate 14 0 ++ [0xE000150800000000]
def sysState : State := atBundle.modCtx fun c => { c with seg := some { va := 128, bundles := [sysBundle] } }

theorem witness_PrivilegedSlotsTrapAtUserLevel :
    (let c := sysState.ctx; c.priv = 0 ∧ hdrBad c.bundle = false ∧ slotsOf c.bundle = [(15, 0xE000150800000000)] ∧
      slotInstr 15 0xE000150800000000 = some (.tlbSync 2)) ∧
    (let c := { sysState.ctx with priv := 2 }; 1 ≤ c.priv ∧ ∀ n ∈ [0x06A, 0x013, 0x010], csrLevel n ≤ c.priv) ∧
    (let s := sysState; s.ctx.restored = false ∧ s.ctx.target = none ∧ s.ctx.removed = false ∧ hdrSafe s.ctx.bundle = false ∧
      s.ctx.safeB = false ∧ s.ctx.due = [] ∧ s.ctx.sump = [] ∧ s.ctx.pend = [] ∧ s.ctx.staticTrap.isSome = true) := by decide +kernel

theorem witness_PrivilegedSlotsTrapAtUserLevel_user : ¬ ((∃ a b, Instr.csrr 3 0x013 = .tret a b) ∨
    (∃ d a c, Instr.csrr 3 0x013 = .pumpActr d a c) ∨ (∃ d, Instr.csrr 3 0x013 = .realign d) ∨
    (∃ a, Instr.csrr 3 0x013 = .tlbSync a) ∨ (∃ a, Instr.csrr 3 0x013 = .domsw a) ∨
    ∃ n, csrOf (.csrr 3 0x013) = some n ∧ 1 ≤ csrLevel n) := by
  simp [csrOf, csrLevel]

/-- A reflected unit of another package, and the window entry that takes it (window 5, granule 3). -/
def unit5 : RUnit := ⟨15, 5, 64, 0xF0, 7, 0, 1, false, 0, 0⟩
def arrive (v : Option Verb) (u : Option RUnit) (issuer : Nat) : Arrived := ⟨0, 0, issuer, 1, v, u, 2, false⟩
/-- Die 1 at a boundary with a verb of die 0, whose commit-buffer entry launch `hold` holds back. -/
def reached (v : Verb) : State :=
  { State.reset.setGran 1 0 1 with cur := 1, gtc := 640 }.modOrd fun o => { o with arrived := [arrive (some v) none 0] }
def due (v : Verb) (hold : Option Nat := none) : State :=
  { ({ reached v with cur := 0 }.modOrd fun o => { o with cb := [{ id := 3, verb := some v, stamp := 0, hold := hold }] }) with
    cur := 1 }
def taken (s : State := base) : State :=
  ((s.modMem fun m => { m with cistern := wrBytes m.cistern (tabAddr 0 40) (natBytes (3 + 2 ^ 20 + 2 ^ 29) 8) }).setGran 0 3
    (3 + 5 * 16)).setGran 0 0 6
def getVerb : Verb := { verb with kind := .get, op := acc .ld 7 (2 ^ 27) 8 }

theorem witness_QuantumBoundariesCommitWhatIsDue :
    (let s := base; s.die.ord.cbStall = 0 ∧ s.die.migs = [] ∧ s.ctx.wait = [] ∧ s.die.ord.arrived = []) ∧
    (let w : Wait := { instr := .qwait 3 15, left := 1 }; let s := { base with gtc := 5 }.modCtx fun c => { c with wait := [w] };
      s.ctx.wait = [w] ∧ w.instr = .qwait 3 15 ∧ w.done = false ∧ w.gtc < s.gtc) ∧
    (let w : Wait := { instr := .publish 3 0 }; let s := ({ base with gtc := 5 }.modCtx fun c => { c with wait := [w] }).modDie fun d =>
        { d with sets := [⟨0, [(0, 16383)], 0⟩] };
      s.ctx.wait = [w] ∧ w.instr = .publish 3 0 ∧ w.done = false ∧ w.gtc < s.gtc ∧ s.held = false ∧
      s.die.set ((s.rs 0).toNat % 16) = some ⟨0, [(0, 16383)], 0⟩ ∧ s.writesInto [0] = false ∧ s.mem.wf = true) ∧
    (∀ v ∈ [verb, { verb with op := acc .hst 0 (2 ^ 27 + 8160) 32 }, getVerb], ∀ h ∈ [none, some 5], let x := arrive (some v) none 0
      let s := due v h
      s.ctx.wait = [] ∧ s.die.ord.arrived = [x] ∧ x.verb = some v ∧ x.unit = none ∧ x.ripe s.gtc = true ∧
      s.die.boundaryAt s.gtc = true ∧ (s.dieAt v.src).ord.verbs = [v] ∧ adDie v.op.ea = s.cur ∧
      (s.dieAt v.src).ord.holds v.seq = h.isSome ∧ v.op.size ∈ [1, 2, 4, 8, 32] ∧ v.op.ea < 2 ^ 30 ∧
      ((adBay v.op.ea).val = 7 → adBank v.op.ea ≠ 127) ∧ granMode (s.mem.entryOf v.op.ea) ≠ 2 ∧
      granMode (s.mem.entryOf v.op.ea) ≠ 6 ∧ (∀ w ∈ opWords v.op, sound s w = true) ∧ s.mem.wf = true ∧
      s.die.ord.cbStall = 0 ∧ s.die.migs = []) := by
  refine ⟨?_, ?_, ?_, ?_⟩ <;> decide +kernel

theorem witness_QuantumBoundariesCommitWhatIsDue_units :
    (let x := arrive none (some unit5) 15; let s := { taken with gtc := 640 }.modOrd fun o => { o with arrived := [x] };
      s.ctx.wait = [] ∧ s.die.ord.arrived = [x] ∧ x.verb = none ∧ x.unit = some unit5 ∧ x.ripe s.gtc = true ∧
      x.issuer / 8 ≠ s.host.pkg ∧ unit5.src / 8 ≠ s.host.pkg ∧ s.mem.wf = true ∧ s.mem.ecc = [] ∧
      SMap.wf ({} : PathSt) s.die.win.paths = true ∧ unit5.wid ∉ (s.die.win.path (inPath unit5.src)).cut ∧
      s.unitAddr unit5 = some (granAddr 0 3 + 64) ∧ (granAddr 0 3 + 64) % 64 = 0 ∧
      ({ base with gtc := 640 } : State).unitAddr unit5 = none) ∧
    (let s := taken.modPath (inPath 15) fun p => { p with cut := [5] }; unit5.wid ∈ (s.die.win.path (inPath unit5.src)).cut) := by
  refine ⟨?_, ?_⟩ <;> decide +kernel

/-- Port 15 fed by its laser, ungated, with ring 15 tuned to wavelength 4 and locked. -/
def litPort : Port := { lock := 0x8000, srclost := false, gate := false, gated := false, tune := [(15, 5)] }
def lit (s : State := base) : State := { s with fab := { s.fab with ports := s.fab.ports.set 15 litPort } }
def onRing : Flight := ⟨15, 15, 0, 0, 0, 2, 0, [], 1828⟩
def rotaFab (f : Fabric) : Fabric := { f with mode := 2, rotaOn := true, rota := [0x0000271000040001, 1800, 0] }

theorem witness_FabricStepsTuneGateAndLockRings : 15 < 16 ∧
    (∀ s ∈ [base, lit], ∀ j, j < 16 → SMap.wf 0 (s.fab.port j).tune = true) ∧
    (lit.fab.port 15).feeds 15 = true ∧ (base.fab.port 15).feeds 15 = false ∧
    (lit.timers.any fun t => t.task.work == .instr (.ringLock 15 15) .none) = false ∧
    (let s := { lit with timers := [⟨5, ⟨0, .instr (.ringLock 15 15) .none⟩⟩] };
      (s.timers.any fun t => t.task.work == .instr (.ringLock 15 15) .none) = true) ∧
    lit.portBusy 15 = false ∧ (lit.modFab fun f => { f with flight := [onRing] }).portBusy 15 = true ∧
    (∀ g, g < 2 → (3 : Word).getLsbD g = base.fab.mode.getLsbD g ∨ ∀ j, j < 8 → (base.fab.port (8 * g + j)).gated = true) ∧
    ((2 : Word).getLsbD 1 ≠ lit.fab.mode.getLsbD 1 ∧ (lit.fab.port (8 * 1 + 7)).gated = false) ∧
    (let s := lit.modHost fun h => { h with stage := 2 }; 2 ≤ s.host.stage ∧ s.fab.flight = []) ∧
    (let s := { lit with msg := .fm (.tune 15 15 31) }; s.fab.rotaMode 15 = false ∧ s.fmRefused 15 15 31 = false ∧
      (s.fab.port 15).wave 15 ≠ 32) ∧
    (∀ c ∈ [FmCmd.off 15 15, .gate 15 true, .gate 15 false], ({ lit with msg := .fm c } : State).msg = .fm c) ∧
    (let s := { lit with msg := .fm (.tune 15 15 31) }.modFab fun f => { f with mode := 2 }; s.fab.rotaMode 15 = true) ∧
    base.fmRefused 15 15 0 = true ∧ lit.fmRefused 15 14 4 = true ∧ base.fab.unsync = false ∧
    (let s := lit.modFab rotaFab; s.fab.rotaOn = true ∧ 0 = s.fab.rotaN ∧ s.fab.rotaStop = 0 ∧ s.fab.rotaSlots ≠ 0 ∧
      (∀ j, j < 16 → (s.fab.port j).back = none) ∧ s.fab.rotaMode 15 = true ∧ s.fab.rotaMode 7 = false ∧
      (s.fab.port 15).wave 15 ≠ s.fab.rotaWave (0 % s.fab.rotaSlots) 15 15) ∧
    (base.fab.rotaOn = false ∧ 1 ≠ (lit.modFab rotaFab).fab.rotaN) := by decide +kernel

/-- Peer 0 in the window map, in a given STATE (and TRAP from 4 on), for package 4, die 1, window 12. -/
def peer (st : Nat) (s : State := base) : State :=
  (s.modMem fun m => { m with cistern := wrBytes m.cistern 0 (natBytes (4 + 32 + 12 * 256 + st * 2 ^ 18) 4) }).setGran 0 0 6
/-- The peer is named by peer set 0, at address 64, of a TXW granule of the context's domain. -/
def owned (st : Nat := 1) : State :=
  (((peer st).modDie fun d => { d with win := { d.win with psbase := 64 } }).modMem fun m =>
    { m with cistern := wrBytes m.cistern 64 [1] }).setGran 0 1 2
def copyTo : Copy := ⟨0, 4, 1, 12, 0, 0, false⟩
def entry : CbEntry := { id := 3, unit := some unit5, copies := [copyTo], stamp := 0 }
/-- Flits of package 1, die 7, for window 5 of die 1, as the table of R325 lays them out. -/
def flit (n : Nat) : List Byte := flitBody 0 15 1 5 0 (List.replicate n unit5)
def bulk (n : Nat) : BulkFlit := ⟨3, 0x3C, some (flit n)⟩
def atomf : AtomFlit := ⟨3, atomBytes (flit 1)⟩
/-- A flit that has been sent to package 4, die 1, which is global die 33. -/
def sent (h : Byte) : Sent := ⟨9, 0, [3], [h], false⟩
def sentTo (h : Byte) (m : Msg) : State := (msg m).modPath 33 fun p => { p with unacked := [sent h] }
/-- A span record: slot 0, from die 0, bay 0, stream 3, to die 1 of the rectangle, bay 7. -/
def spanTo : Word := .ofNat 64 (3 * 2 ^ 24 + 1 * 2 ^ 29 + 7 * 2 ^ 37)
def runs (s : State) (d : DieIx) : State := { s with dies := s.dies.set d { s.dieAt d with running := true } }

theorem witness_FlitsPathsAndSpansCarryTheirEntries :
    (let s := { (peer 1 lit) with msg := .send 0 }.modOrd fun o => { o with cb := [entry] };
      s.msg = .send 0 ∧ 0 < 256 ∧ s.unsent 0 = [entry] ∧ entry.unsent 0 = some copyTo ∧ entry.unit = some unit5 ∧
      entry.hold = none ∧ s.peerEntry 0 = some 0x0004_0C24 ∧ wmState 0x0004_0C24 = 1 ∧ s.ringFor 0 = some (15, 15) ∧
      SMap.wf ({} : PathSt) s.die.win.paths = true) ∧
    (let s := { (peer 1) with msg := .send 0 }.modOrd fun o => { o with cb := [{ entry with hold := some 5 }] };
      s.unsent 0 = [{ entry with hold := some 5 }] ∧ ({ entry with hold := some 5 } : CbEntry).hold.isSome = true ∧
      s.ringFor 0 = none) ∧
    (let us := [unit5, { unit5 with off := 2 ^ 22 - 64 }, unit5]; us.length = 3 ∧ ∀ u ∈ us, u.off % 64 = 0 ∧ u.off < 2 ^ 22) ∧
    (∀ n ∈ [1, 3], let s := msg (.bulk (bulk n)); let f : FlitBody := ⟨0, 15, 1, 5, 0, List.replicate n (64, 0xF0, 7)⟩
      let q := (s.dieAt f.tdie).win.path (inPath f.src)
      s.msg = .bulk (bulk n) ∧ bulkBody (bulk n) = some f ∧ q.early = [] ∧ q.lost = false ∧
      f.seq < 2 ^ 32 ∧ q.seqIn = f.seq ∧ s.elastic ((bulk n).port / 8) < 32768 ∧
      SMap.wf ({} : PathSt) (s.dieAt f.tdie).win.paths = true) ∧
    (({ bulk 1 with body := none } : BulkFlit).body = none ∧ ({ bulk 1 with head := 0xC3 } : BulkFlit).head ≠ 0x3C ∧
      bulkBody ⟨3, 0x3C, some ((flit 1).take 239)⟩ = none) := by
  refine ⟨?_, ?_, ?_, ?_, ?_⟩ <;> decide +kernel

theorem natBytes_length (x n : Nat) : (natBytes x n).length = n := by
  induction n generalizing x with
  | zero => rfl
  | succ n ih => simp [natBytes, ih]

theorem bytesNat_natBytes (x n : Nat) : bytesNat (natBytes x n) = x % 256 ^ n := by
  induction n generalizing x with
  | zero => simp [natBytes, bytesNat, Nat.mod_one]
  | succ n ih =>
    have h := Nat.mod_mul (x := x) (a := 256) (b := 256 ^ n)
    rw [Nat.pow_succ', h, ← ih]
    rfl

/-- 256 bytes that begin with `h` and end with the number `n`, about 251 others. -/
theorem framed {h : Byte} {l : List Byte} {n : Nat} (hl : l.length = 251) (hn : n < 2 ^ 32) :
    let x := h :: l ++ natBytes n 4
    x.length = 256 ∧ x.headD 0 = h ∧ (x.drop 1).take 251 = l ∧ (x.drop 1).take 240 = l.take 240 ∧ bytesNat (x.drop 252) = n := by
  have h4 := natBytes_length n 4
  refine ⟨by simp [hl, h4], rfl, by simp [← hl], by simp [List.take_append, hl], ?_⟩
  have : (h :: l ++ natBytes n 4).drop 252 = natBytes n 4 := by
    rw [show 252 = (h :: l).length by simp [hl]]
    exact List.drop_left ..
  rw [this, bytesNat_natBytes]
  omega

theorem witness_FlitsPathsAndSpansCarryTheirEntries_atom :
    (let s := msg (.atom atomf); let f : FlitBody := ⟨0, 15, 1, 5, 0, [(64, 0xF0, 7)]⟩
      let q := (s.dieAt f.tdie).win.path (inPath f.src)
      s.msg = .atom atomf ∧ atomBody atomf = some f ∧ q.early = [] ∧ q.lost = false ∧ f.seq < 2 ^ 32 ∧ q.seqIn = f.seq ∧
      SMap.wf ({} : PathSt) (s.dieAt f.tdie).win.paths = true) ∧
    (let l := flit 1 ++ List.replicate 11 0#8; let x := 0xC3#8 :: l ++ natBytes (((crc32 l).toNat + 1) % 2 ^ 32) 4
      x.length = 256 ∧ crc32 ((x.drop 1).take 251) ≠ .ofNat 32 (bytesNat (x.drop 252))) := by
  have hl : (flit 1 ++ List.replicate 11 0#8).length = 251 := by decide +kernel
  refine ⟨⟨rfl, ?_, by decide +kernel⟩, ?_⟩
  · obtain ⟨h1, h2, h3, h4, h5⟩ := framed (h := 0xC3#8) hl (crc32 (flit 1 ++ List.replicate 11 0#8)).isLt
    have hd : (decodeBody (((flit 1 ++ List.replicate 11 0#8)).take 240)).bind
        (fun b => if b.units.length = 1 then some b else none) = some ⟨0, 15, 1, 5, 0, [(64, 0xF0, 7)]⟩ := by decide +kernel
    simp only [atomBody, atomf, atomBytes, h1, h2, h3, h4, h5, hd, and_self, if_true]
  · obtain ⟨h1, -, h3, -, h5⟩ := framed (h := 0xC3#8) hl (Nat.mod_lt ((crc32 (flit 1 ++ List.replicate 11 0#8)).toNat + 1)
      (by decide : 0 < 2 ^ 32))
    refine ⟨h1, ?_⟩
    rw [h3, h5]
    intro h
    have := congrArg BitVec.toNat h
    have := (crc32 (flit 1 ++ List.replicate 11 0#8)).isLt
    simp only [BitVec.toNat_ofNat] at *
    omega

theorem witness_FlitsPathsAndSpansCarryTheirEntries_paths :
    (let s := sentTo 0x3C (.committed 33 9); s.msg = .committed 33 (sent 0x3C).seq ∧
      (s.die.win.path 33).unacked = [sent 0x3C] ∧ SMap.wf ({} : PathSt) s.die.win.paths = true) ∧
    (∀ h ∈ [0xC3, 0x3C], let s := sentTo h (.lostFlit 33 9); s.msg = .lostFlit 33 (sent h).seq ∧
      (s.die.win.path 33).unacked = [sent h] ∧ (sent h).bytes.headD 0 = h) ∧
    (∀ x ∈ [Msg.refused 0, .discarded 0, .path 0], let s := { owned 5 with msg := x }; s.msg = x ∧
      s.peerEntry 0 = some 0x0014_0C24 ∧ wmState 0x0014_0C24 ≠ 3 ∧ s.ownsPeer 0 = true ∧ bitAt 0x0014_0C24 20 = true ∧
      bitAt 0x0014_0C24 21 = false ∧ SMap.wf [] s.die.win.egress = true) ∧
    ((msg (.path 271)).msg = .path 271 ∧ 256 ≤ 271 ∧ (msg (.epoch 15)).msg = .epoch 15 ∧ (msg (.time 31 (-4))).msg = .time 31 (-4)) ∧
    (let s := { (peer 1) with msg := .path 0 }; s.msg = .path 0 ∧ s.peerEntry 0 = some 0x0004_0C24 ∧ s.mem.wf = true) ∧
    (let s := { (peer 2) with msg := .path 0 }; s.msg = .path 0 ∧ s.peerEntry 0 = some 0x0008_0C24 ∧ wmState 0x0008_0C24 = 2 ∧
      s.egressOf 0 = [] ∧ s.unsent 0 = [] ∧ s.mem.wf = true) ∧
    (let s := ((runs (runs base 0) 1).modCtx fun c => { c with rectNc := 4 }).modBay (spBay spanTo) fun b => { b with
        q := b.q.set (spStream spanTo % 32) { bound := true, port := 6, queue := [⟨[1], [], []⟩] } (Nat.mod_lt _ (by decide)) };
      s.rectDie (spDst spanTo) = some 1 ∧ ((s.bayAt (spBay spanTo)).str (spStream spanTo)).queue = [⟨[1], [], []⟩] ∧
      ((s.bayAt (spBay spanTo)).str (spStream spanTo)).bound = true ∧
      ((s.bayAt (spBay spanTo)).str (spStream spanTo)).port = 6 ∧ s.die.spanOff = false ∧ (s.dieAt 1).spanOff = false ∧
      ((s.dieAt 1).ctx.bayAt (spDstBay spanTo)).spanIn.length + s.spanFlight 1 (spDstBay spanTo) < 16) ∧
    base.rectDie (spDst spanTo) = none ∧ 31 < 32 ∧ 4095 < 2 ^ 12 := by
  refine ⟨?_, ?_, ?_, ?_, ?_, ?_, ?_, ?_⟩ <;> decide +kernel

/-- Peer 0 is disconnected, with one frame, leaf 0 at address 512, for its egress queue; `slow` is a pump whose sequences
end too late. -/
def queueTo (slow : Bool) (m : Msg) : State :=
  { ((peer 2).modMem fun x => { x with cistern := wrBytes x.cistern 512 (natBytes (2 ^ 84 + 2 ^ 74) 16) }).modDie fun d =>
    { d with ctx := { d.ctx with leafBase := 512, leafN := 1 }
             pump := if slow then { d.pump with t := d.pump.t.set 0 300 } else d.pump
             ord := { d.ord with cb := [{ entry with copies := [{ copyTo with eqn := 1 }] }] } } with msg := m }

theorem queueTo_ready (k : Nat) : (queueTo false (.send 0)).svcReady k 1 true = true ∧
    (queueTo false (.send 0)).svcReady k 2 true = true ∧ (queueTo true (.send 0)).svcReady k 1 true = false ∧
    (queueTo true (.send 0)).svcReady k 2 true = false := ⟨rfl, rfl, rfl, rfl⟩

theorem witness_FlitsPathsAndSpansCarryTheirEntries_egress :
    (∀ slow ∈ [false, true], let s := queueTo slow (.send 0); let e := { entry with copies := [{ copyTo with eqn := 1 }] }
      s.msg = .send 0 ∧ s.peerEntry 0 = some 0x0008_0C24 ∧ wmState 0x0008_0C24 = 2 ∧ s.toSend 0 = [e] ∧
      e.unsent 0 = some { copyTo with eqn := 1 } ∧ e.unit = some unit5 ∧ SMap.wf [] s.die.win.egress = true ∧
      s.egressRoom 0 0 1 (bitsAt 0x0008_0C24 104 32) = true) ∧
    (queueTo false (.send 0)).egressFree 0 0 true = true ∧ (queueTo true (.send 0)).egressFree 0 0 true = false ∧
    (let s := (queueTo false (.path 0)).setEgress 0 [⟨0, false, 4, 1, 0, 1, 0⟩]; s.egressOf 0 = [⟨0, false, 4, 1, 0, 1, 0⟩] ∧
      s.egressOk 0 0 0 = true ∧ (s.egressContender 0).bind s.pickRing = none) := by
  refine ⟨by decide +kernel, ?_, ?_, by decide +kernel⟩ <;> simp only [State.egressFree, State.egressBanks] <;> split <;>
    simp [queueTo_ready]

def migr (cmd : Bool) : Migr :=
  { leaf := 0, idx := 0, id := 0, size := 0, swz := 0, tier := 1, frame := 3, dtier := 1, dframe := 4, cmd := cmd }
def moves (m : Migr) (x : Msg) : State := (msg x).modDie fun d => { d with migs := [m] }
/-- A rebuild at word `n` of bank 5 of bay 2, in progress. -/
def rebuild (n : Nat) : State := base.modDie fun d => { d with err := { d.err with rcBusy := true, rcBay := 2, rcBank := 5, rcNext := n } }
/-- The units of its buffer, one of them left, and its tile in a stack whose banks are all open. -/
def bufd : Migr := { migr false with pos := 128, buf := [(127, List.replicate 64 9, false, true)] }
def open0 : State := (moves { migr false with tier := 0 } (.launch 0)).modPump fun p =>
  { p with bank := (List.range 1024).map fun b => (b, .row 5 none 0 0 0 false false false) }

theorem witness_ServicesRepairAndLossTakeTheirSteps :
    (∀ s ∈ [base, base.modDie fun d => { d with err := { d.err with scrubPos := [(7, 2 ^ 20 - 1)] } }],
      SMap.wf 0 s.die.err.scrubPos = true ∧ ∀ b : BayIx, let n := SMap.get 0 s.die.err.scrubPos b.val
        sound s (wordAddr s.cur.val b.val (n / 8192 % 128) (n % 8192) / 16) = true) ∧
    (∀ n ∈ [0, 8190, 8191], (rebuild n).die.err.rcBusy = true ∧ (rebuild n).mem.wf = true ∧
      (let row := ((List.range 8).map fun b => wordAddr 0 2 b n / 16); (rebuild n).sideTaken row = false ∧
        ({ rebuild n with sideB := [2 * 128 + 5] } : State).sideTaken row = true) ∧
      SMap.get .ok ((rebuild n).modMem fun m => { m with chk := [(chkKey (wordAddr 0 2 5 n / 16), .multi)] }).mem.chk
        (chkKey (wordAddr 0 2 5 n / 16)) = .multi) ∧
    (15 < 16 ∧ 63 < 64 ∧ base.die.err.errthr ≠ 1 ∧ base.die.err.errthr ≠ 0 ∧ base.die.err.track = []) ∧
    ((msg (.status 0x82)).msg = .status 0x82 ∧ base.msg = .none ∧ base.die.err.rcBusy = false) ∧
    (∀ m ∈ [Msg.die 0 3, .die 31 7, .package 31 0], (msg m).msg = m ∧ (msg m).disp.launches = [] ∧
      (∀ d : DieIx, (msg m).disp.lostmap.getLsbD d.val = false ∧ (msg m).disp.silent.getLsbD d.val = false) ∧
      (msg m).host.pkg = 0 ∧ (msg m).disp.lostPkgs = [] ∧ (msg m).mem.wf = true ∧
      (msg m).disp.queues = []) ∧
    (let s := base.modDisp fun p => { p with silent := 0x80, missed := Vector.replicate 8 2 };
      s.disp.silent.getLsbD (7 : Fin 8).val = true ∧ 2 ≤ s.disp.missed.get 7 ∧ s.disp.lostmap.getLsbD 7 = false) ∧
    (let m := migr false; let s := moves m (.launch 0); s.msg = .launch 0 ∧ s.die.migs = [m] ∧ m.leaf = 0 ∧ m.tier = 1 ∧
      m.buf = [] ∧ m.ahead ≠ []) ∧
    (let s := moves bufd (.launch 0); s.die.migs = [bufd] ∧ bufd.dtier = 1 ∧
      bufd.buf = [(127, List.replicate 64 9, false, true)] ∧ (List.replicate 64 (9 : Byte)).length = 64 ∧ s.mem.wf = true) ∧
    (let m := { migr false with pos := 128 }; m.buf = [] ∧ m.ahead = []) ∧
    (∀ c ∈ [false, true], let s := moves (migr c) (.package 0 2); s.msg = .package 0 2 ∧ s.die.migs = [migr c] ∧
      (migr c).leaf = 0 ∧ (migr c).cmd = c ∧ s.die.pageq = []) := by
  refine ⟨?_, ?_, ?_, ?_, ?_, ?_, ?_, ?_, ?_, ?_⟩ <;> decide +kernel

theorem witness_ServicesRepairAndLossTakeTheirSteps_waits : let m := { migr false with tier := 0 }
    open0.die.migs = [m] ∧ m.tier = 0 ∧ m.buf = [] ∧ m.ahead ≠ [] ∧
      ∀ k, open0.svcReady (m.geom.chunkBank (64 * m.ahead.headD 0)) k false = false := by
  have h : open0.serviceFree (({ migr false with tier := 0 } : Migr).geom.chunkBank 0) = false := by decide +kernel
  refine ⟨rfl, rfl, rfl, by decide +kernel, fun k => ?_⟩
  rw [show 64 * ({ migr false with tier := 0 } : Migr).ahead.headD 0 = 0 by decide +kernel]
  simp [State.svcReady, h]

/-- A package that is ready, with one queue. -/
def bells (bell : Nat) (en : Bool := false) : State := { base with host := { base.host with ready := true }, disp := { base.disp with
  queues := [(3, { en := en, queued := true, rlog := 4, bell := bell })] } }
def debug (kind : Nat) (b : BayIx) (lane ix : Nat) : State := msg (.debug kind b.val lane ix 5)
def failsafe (m : Msg := .none) : State := (msg m).modHost fun h => { h with failsafe := true, stage := 4 }

theorem witness_HostStepsReachOnlyWhatTheyName :
    base.host.images.all base.host.accepts = true ∧ ({ base.host with images := [[]] } : HostIf).images.all base.host.accepts = false ∧
    base.host.retireMap = [] ∧ (∀ s ∈ [base, bells 9], SMap.wf ({} : Queue) s.disp.queues = true) ∧ base.host.ready = false ∧
    failsafe.host.failsafe = true ∧
    (∀ b ∈ [0, 16, 17], ∀ en ∈ [false, true], let q : Queue := { en := en, queued := true, rlog := 4, bell := b }
      let s := bells b en
      s.host.ready = true ∧ s.host.failsafe = false ∧ s.disp.launches = [] ∧ s.disp.queues = [(3, q)] ∧ q.queued = true ∧
      q.en = en ∧ (2 ^ q.rlog < (q.bell + 2 ^ 16 - q.head) % 2 ^ 16 ↔ b = 17) ∧ s.disp.faults.length < 4096) ∧
    ((msg (.hostRead (2 ^ 40 - 4) 4)).msg = .hostRead (2 ^ 40 - 4) 4 ∧ 2 ^ 40 - 4 + 4 ≤ 2 ^ 40 ∧ base.host.failsafe = false ∧
      (failsafe (.hostRead 0 4)).msg = .hostRead 0 4 ∧
      (msg (.hostRead (2 ^ 40 - 4) 5)).msg = .hostRead (2 ^ 40 - 4) 5 ∧ 2 ^ 40 < 2 ^ 40 - 4 + 5) ∧
    ((msg (.hostWrite 40 [1, 2])).msg = .hostWrite 40 [1, 2] ∧ (msg (.hostWrite 40 [1, 2])).mem.wf = true ∧
      (failsafe (.hostWrite 40 [1, 2])).msg = .hostWrite 40 [1, 2] ∧
      (msg (.hostWrite (2 ^ 40 - 1) [1, 2])).msg = .hostWrite (2 ^ 40 - 1) [1, 2]) ∧
    ((∀ off ∈ [0x010, 0x018, 0x020, 0x028, 0x100000, 0x17FFF8, 0x180000, 0x100004], (msg (.hostReg off 9)).msg = .hostReg off 9) ∧
      base.host.cren = false ∧ ({ base.host with cren := true } : HostIf).cren = true ∧ 0x17FFF8 = 0x100000 + 8 * 65535) ∧
    (∀ x ∈ [(0, 1), (0, 63), (1, 15), (2, 1), (2, 15), (3, 63), (6, 7), (7, 65535)], let s := debug x.1 7 127 x.2
      s.msg = .debug x.1 (7 : BayIx).val 127 x.2 5 ∧ SMap.wf 0 (s.bayAt 7).v = true ∧ SMap.wf 0 (s.bayAt 7).mxu.acca = true) := by
  refine ⟨?_, ?_, ?_, ?_, ?_, ?_, ?_, ?_, ?_, ?_, ?_⟩ <;> decide +kernel

/-- A context descriptor at 4096 of the host's memory, with TVEC `v`. -/
def ctxAtHost (v : Nat) (s : State := base) : State :=
  s.modMem fun m => { m with host := wrBytes m.host 4096 (natBytes 7 16 ++ natBytes 0 64 ++ natBytes v 8) }
def lch : Launch := {
  id := 5, queue := 2, ctx := 9, row := 0, col := 0, nr := 1, nc := 2, dies := [0, 1], runs := [0, 1],
  phase := .running, image := 4096 }
def launched (l : Launch := lch) (s : State := base) : State := { s with disp := { s.disp with launches := [l] } }
def leafOf (l : Nat) : State :=
  (base.modMem fun m => { m with cistern := wrBytes m.cistern 0 (natBytes l 16) }).modCtx fun c => { c with ctxNo := 9, leafN := 1 }

theorem witness_HostCommandsAnswer :
    (failsafe.host.failsafe = true ∧ failsafe.msg = .none) ∧
    (let s : State := { base with disp := { base.disp with faults := [List.replicate 8 1, List.replicate 8 2] } };
      s.host.unreadable = [] ∧ s.host.serving = false ∧ SMap.wf 0 s.mem.host = true ∧ (∀ w ∈ s.disp.faults, w.length = 8) ∧
      min (1 : Word).toNat s.disp.faults.length = 1) ∧
    (let s := bells 0; let x := s.disp.queueAt 3; s.host.failsafe = false ∧ s.disp.launches = [] ∧ (2 : BitVec 3).toNat ≤ 2 ∧
      SMap.wf ({} : Queue) s.disp.queues = true ∧ x.head < 2 ^ 16 ∧ x.tail < 2 ^ 16 ∧ x.ring < 2 ^ 40 ∧ x.rlog < 16 ∧ x.tier < 8 ∧
      x.shr < 256 ∧ x.shc < 256 ∧ x.region < 2 ^ 16 ∧ x.ctx < 2 ^ 16 ∧
      (let v : Word := 5 * 2 ^ 16; let m : Word := 0xFFFF0000; let new := (BitVec.ofNat 64 (x.word 2) &&& ~~~m) ||| (v &&& m)
        v &&& m &&& ~~~BitVec.ofNat 64 (queueBits 2) = 0 ∧ queueBad 2 new.toNat m.toNat = false) ∧
      (let v : Word := 1; let m : Word := 1; let new := (BitVec.ofNat 64 (x.word 0) &&& ~~~m) ||| (v &&& m)
        v &&& m &&& ~~~BitVec.ofNat 64 (queueBits 0) = 0 ∧ queueBad 0 new.toNat m.toNat = false ∧ m.toNat < 16 ∧
        launched.disp.launches = [lch] ∧ lch.phase ≠ .parked ∧ lch.phase ≠ .waiting) ∧
      (let v : Word := 1 * 2 ^ 48; let m : Word := 0xF * 2 ^ 48; let new := (BitVec.ofNat 64 (x.word 1) &&& ~~~m) ||| (v &&& m)
        v &&& m &&& ~~~BitVec.ofNat 64 (queueBits 1) = 0 ∧ queueBad 1 new.toNat m.toNat = true)) ∧
    (∀ v ∈ [0, 128], let s := ctxAtHost v; s.host.failsafe = false ∧ s.host.unreadable = [] ∧
      bytesNat (rdBytes s.mem.host (4096 + 80) 8) % 128 = 0 ∧ (∀ l ∈ s.disp.launches, l.ctx ≠ 9) ∧
      SMap.wf ({} : CtxDesc) s.disp.ctxs = true) ∧
    (bytesNat (rdBytes (ctxAtHost 64).mem.host (4096 + 80) 8) % 128 ≠ 0 ∧ lch ∈ (launched).disp.launches ∧ lch.ctx = 9) ∧
    (let s := (ctxAtHost 0).setGran 0 7 4; let gs := (List.range 1).map fun k => bytesNat (rdBytes s.mem.host (4096 + 2 * k) 2)
      gs = [7] ∧ (∀ x ∈ gs, x < 16384 ∧ (0 / 8 = s.host.pkg → granMode (s.mem.granEntry (0 % 8) x) = 4)) ∧
      granMode (base.mem.granEntry (0 % 8) 7) ≠ 4) ∧
    (base.disp.queues = [] ∧ base.host.failsafe = false ∧ 100000 ≤ (100000 : Word).toNat ∧ (99999 : Word).toNat < 100000 ∧
      (2 ^ 32 - 1 : Word).toNat < 2 ^ 32) ∧
    (SMap.wf 0 base.disp.recovery = true ∧ base.disp.lostmap.getLsbD 7 = false) ∧
    (let e := (base.dieAt 7).err; SMap.wf 0 e.retired = true ∧ e.isLost 7 127 = false ∧ SMap.get 0 e.retired (16 * 7 + 15) = 0 ∧
      e.rcBusy = false ∧ base.msg = .none) ∧
    (base.host.lmsLeaf < 2 ^ 20 ∧ 2 ^ 20 ≤ ({ base.host with lmsLeaf := 2 ^ 20 } : HostIf).lmsLeaf) ∧
    ((∀ l ∈ (launched { lch with phase := .parked }).disp.launches, l.phase = .parked) ∧ lch.phase ≠ .parked ∧
      base.takeWait.1 ≤ 1024 ∧ 1024 < ({ base with waits := [1025] } : State).takeWait.1) ∧
    (1000 ≤ (1000 : Word).toNat ∧ (5600 : Word).toNat ≤ 5600 ∧ (999 : Word).toNat < 1000 ∧ 5600 < (5601 : Word).toNat) := by
  refine ⟨?_, ?_, ?_, ?_, ?_, ?_, ?_, ?_, ?_, ?_, ?_, ?_⟩ <;> decide +kernel

theorem witness_HostCommandsAnswer_migration :
    (∀ d : DieIx, (base.dieAt d).ctx.ctxNo.toNat ≠ 9) ∧ (∀ x ∈ [(2 ^ 84, true), (0, false), (2 ^ 84 + 2 ^ 85, true)],
      let s := leafOf x.1; let w := s.cachedWord 0; (s.dieAt 0).alive = true ∧ (s.dieAt 0).ctx.ctxNo.toNat = 9 ∧
        (s.dieAt 0).ctx.leafN ≠ 0 ∧ (∀ d, d ≠ 0 → (s.dieAt d).ctx.ctxNo.toNat ≠ 9) ∧ (s.dieAt 0).pageq = [] ∧ 0 < s.ctx.leafN ∧
        lfValid w = x.2 ∧ lfMoving w = bitAt x.1 85 ∧ s.die.shadowOf (granule (s.leafAddr 0)) = none ∧ lfTier w = 0 ∧
        frameOk s.ctx ⟨5, lfSize w, lfSwz w⟩ 0 (lfFrame w) = true ∧ frameOk s.ctx ⟨5, lfSize w, lfSwz w⟩ 0 8191 = true ∧
        frameOk s.ctx ⟨5, lfSize w, lfSwz w⟩ 0 8192 = false) := by
  decide +kernel

/-- An image of no bytes is not accepted; whether one is accepted rests on its signature, so no state shows the other case
(log 6). -/
theorem witness_HostCommandsAnswer_refusedImage : base.host.accepts [] = false ∧ base.host.unreadable = [] ∧
    base.disp.launches = [] ∧ imageTarget [] ≠ 1 ∧ lch ∈ launched.disp.launches ∧ lch.phase ≠ .parked := by decide +kernel

/-- A launch that holds dies 0 and 1, on a running die 0, with a record for its queue: image 4096, completion word at 64,
tag 77. -/
def held (f : Launch → Launch := id) : State := launched (f lch)
  ((base.modMem fun m => { m with res := wrBytes [] 0 (natBytes 4096 8 ++ natBytes 0 8 ++ natBytes 64 8 ++ natBytes 77 40) }).modCtx
    fun c => { c with exit := some 3 })
def heldMsg (m : Msg) (f : Launch → Launch := id) : State := { held f with msg := m }
/-- What a save area holds of die 0: one scalar, and one byte of granule 0. -/
def kept1 : Saved := { die := 0, ctx := { base.ctx with s := base.ctx.s.set 5 99 }, cells := [(3, 7)], hidden := ([], []) }
/-- The walker of die 0 at a node of its graph at 64: the node is the four words given. -/
def graph (ws : List Nat) (s : State := held) : State := (s.modMem fun m =>
  { m with cistern := wrBytes m.cistern 64 (ws.flatMap fun w => natBytes w 8) }).modCtx fun c =>
  { c with walk := { c.walk with graph := 64, node := 0, busy := true } }
/-- A node of a KIND with NEXT 4, ALT 0xFFFF, its condition word at 256, VALUE `v`, COND 0 (equal) and MAX 2. -/
def nodeWs (kind v : Nat) : List Nat := [kind + 4 * 2 ^ 8 + 0xFFFF * 2 ^ 24, 256, v, 2 * 2 ^ 16]

theorem witness_LaunchesAreDispatchedHaltedAndSaved :
    (let s := held; s.launch 5 = some lch ∧ lch.phase = .running ∧ lch.sliceAt ≤ s.now ∧
      SMap.wf ({} : Queue) s.disp.queues = true ∧ s.launch 6 = none) ∧
    (∀ p ∈ [LaunchPhase.halting, .parked, .restoring, .waiting], let l := { lch with phase := p }; (launched l).launch 5 = some l ∧
      l.phase = p ∧ l.phase ≠ .running) ∧
    (let l := { lch with phase := .restoring, saved := [kept1] }; let s := launched l; s.launch 5 = some l ∧ l.rota = false ∧
      l.kept = none ∧ kept1.die = (0 : DieIx).val ∧ kept1.ctx.seg = none ∧ kept1.ctx.half = .empty ∧ kept1.ctx.walk.busy = false ∧
      SMap.wf 0 kept1.cells = true ∧ s.mem.wf = true) ∧
    (∀ p ∈ [LaunchPhase.halting, .ending], let s := heldMsg (.launch 5) fun l => { l with phase := p };
      s.msg = .launch 5 ∧ s.launchOn s.cur.val = some { lch with phase := p } ∧ lch.id = 5 ∧ s.cur.val ∈ lch.runs) ∧
    (let l := { lch with gang := true }; let s := heldMsg (.launch 5) fun _ => l; s.launchOn s.cur.val = some l ∧
      s.launch 5 = some l ∧ l.gang = true ∧ l.phase = .running) ∧
    (let s := heldMsg (.launch 6); s.msg = .launch 6 ∧ s.launchOn s.cur.val = some lch ∧ lch.id ≠ 6) ∧
    ((msg (.status 0)).launchOn (msg (.status 0)).cur.val = none ∧ (msg (.status 0)).msg = .status 0) ∧
    (∀ x ∈ [(lch, 0), (lch, 1), ({ lch with confirmed := true }, 1)], let s := heldMsg (.ended x.2 5 3) fun _ => x.1
      s.msg = .ended x.2 5 3 ∧ s.launch 5 = some x.1 ∧ s.host.pkg = 0 ∧ x.1.rect.pkgs = [0]) ∧
    (let l := { lch with confirmed := true, ended := [0] }; l.confirmed = true ∧ ∀ p ∈ l.rect.pkgs, p = 1 ∨ p ∈ l.ended) ∧
    (∃ d ∈ lch.runs, d ≠ (held).cur.val ∧ d ∉ lch.halted) ∧
    (let s := heldMsg (.status 0x213); s.msg = .status 0x213 ∧ 0x213 ≠ 0 ∧ s.launchOn s.cur.val = some lch) ∧
    (let s := graph (nodeWs 5 0); s.ctx.walk.graph ≠ 0 ∧ s.launchOn s.cur.val = some lch ∧ s.launch lch.id = some lch) := by
  refine ⟨?_, ?_, ?_, ?_, ?_, ?_, ?_, ?_, ?_, ?_, ?_, ?_⟩ <;> decide +kernel

/-- A launch of die 0 alone, and its end. -/
def alone (p : LaunchPhase) : Launch := { lch with runs := [0], dies := [0], phase := p, confirmed := true }

theorem witness_LaunchesAreDispatchedHaltedAndSaved_idle :
    (let l := alone .halting; let s := heldMsg (.status 0) fun _ => l; s.launchOn s.cur.val = some l ∧ s.launch l.id = some l ∧
      l.fault = none ∧ l.phase = .halting ∧ l.saved = [] ∧ l.runs = [s.cur.val] ∧ l.dies = [s.cur.val] ∧ s.die.alive = true ∧
      s.requestsDone = true ∧ s.ctx.sump = [] ∧ s.die.sets = [] ∧ (s.modDie fun d => { d with engine := [copy1] }).die.engine ≠ []) ∧
    (let l := alone .running; let s := held fun _ => l; s.msg = .none ∧ s.ctx.walk.graph = 0 ∧ s.launchOn s.cur.val = some l ∧
      s.launch l.id = some l ∧ l.runs = [s.cur.val] ∧ l.fault = none ∧ l.saved = [] ∧ l.coord = true ∧
      (∀ p ∈ l.rect.pkgs, p = s.host.pkg ∨ p ∈ l.ended) ∧ ({ l with confirmed := false } : Launch).confirmed = false ∧
      SMap.wf ({} : Queue) s.disp.queues = true ∧ SMap.wf 0 s.mem.res = true ∧
      (∃ ws, s.record l.queue (s.disp.queueAt l.queue) = some ws ∧ ws.getD 2 0 = 64 ∧ ws.getD 3 0 = 77) ∧ 64 % 16 = 0 ∧
      64 < 2 ^ 40) := by
  refine ⟨?_, ?_⟩ <;> decide +kernel

theorem witness_LaunchesAreDispatchedHaltedAndSaved_nodes :
    (∀ n ∈ [0xFFFF, 4], let w := (n * 2 ^ 8 + 7 * 2 ^ 24); let s : State := { graph [w, 8192, 0, 0] with msg := .status 0 }
      (s.node 0).2 = some [w, 8192, 0, 0] ∧ s.msg = .status 0 ∧ nodeNext [w, 8192, 0, 0] = n ∧ s.launchOn s.cur.val = some lch ∧
      s.launch lch.id = some lch) ∧
    (((graph (nodeWs 0 0)).node 0).2 = some (nodeWs 0 0) ∧ (graph (nodeWs 0 0)).msg = .none) ∧
    (∀ v ∈ [0, 1], ∀ k ∈ [1, 2, 3], let s := graph (nodeWs k v); (s.node k).2 = some (nodeWs k v) ∧
      ((s.node k).1.nodeCond (nodeWs k v)).2 = some (v == 0)) ∧
    (let s := graph (nodeWs 2 0); s.ctx.walk.count < bitsAt ((nodeWs 2 0).getD 3 0) 16 16 ∧ s.ctx.walk.count = 0 ∧
      s.ctx.walk.whiles.length < 8) ∧
    (let s := (graph (nodeWs 2 0)).modCtx fun c => { c with walk := { c.walk with whiles := [(0, 1)] } };
      s.ctx.walk.count ≠ 0 ∧ s.ctx.walk.count < bitsAt ((nodeWs 2 0).getD 3 0) 16 16) ∧
    (let s := (graph (nodeWs 2 0)).modCtx fun c => { c with walk := { c.walk with whiles := [(0, 2)] } };
      (s.node 2).2 = some (nodeWs 2 0) ∧ ((s.node 2).1.nodeCond (nodeWs 2 0)).2 = some true ∧
      bitsAt ((nodeWs 2 0).getD 3 0) 16 16 ≤ s.ctx.walk.count) ∧
    (((graph (nodeWs 5 0)).node 0).2 = none ∧ ((graph (nodeWs 5 0)).node 3).2 = none ∧
      (let ws := [1, 256, 0, 3]; ((graph ws).node 1).2 = some ws ∧ (((graph ws).node 1).1.nodeCond ws).2 = none)) := by
  refine ⟨?_, ?_, ?_, ?_, ?_, ?_, ?_⟩ <;> decide +kernel

theorem granEntries_length (n a : Nat) (l : List Host.Cell) : (granEntries n a l).length = n := by
  induction n generalizing a l with
  | zero => rfl
  | succ n ih => simp [granEntries, ih]

/-- A save area of 144 MiB is enough for every die: 12 MiB and the 16,384 granules of a die (R363, R364). -/
theorem csaOk_of_large (s : State) (r : Rect) (c : CtxDesc) (h : 18 ≤ c.csan) : s.csaOk r c = true := by
  refine List.all_eq_true.2 fun d _ => decide_eq_true ?_
  have : (s.ownGranules d c.domid).length ≤ 16384 := by
    simp only [State.ownGranules, List.length_map]
    exact (List.length_filter_le ..).trans (by simp [granEntries_length])
  simp only [saveBytes]
  omega

/-- The header of an image for die 0 of package 0 alone, by the table of R350: tier 1, entry 256. -/
def header1 : List Nat := [0x4E4C524A + 2 ^ 32, 256, 2 ^ 16 + 2 ^ 24 + 2 ^ 32, 0, 0, 0, 0, 0]
def gangQueue : Queue := { en := true, tier := 1, shr := 1, shc := 1, ctx := 9, rlog := 4, tail := 1 }
/-- A package that is told of gang 7: its queue 2 has the record at 0 and its image at 128 of the reservoir, and leaf 0 of
context 9 maps that page. -/
def gangState : State := { base with
  msg := .gang 7 2 5000 0 0
  mem := { base.mem with
    cistern := wrBytes base.mem.cistern 0 (natBytes (2 ^ 72 + 2 ^ 84) 16)
    res := wrBytes (wrBytes [] 0 (natBytes 128 64)) 128 (header1.flatMap fun w => natBytes w 8) }
  disp := { base.disp with queues := [(2, gangQueue)], ctxs := [(9, { leafN := 1, rlen := 8192, csan := 18 })] } }
def gangHead : State := (gangState.headOf 2 gangQueue).1

theorem witness_GangLaunchesFollowTheirTimes_prepare : gangState.msg = .gang 7 2 5000 0 0 ∧
    gangState.disp.queueAt 2 = gangQueue ∧
    gangState.headOf 2 (gangState.disp.queueAt 2) = (gangHead, .ok (128, 0, ⟨header1⟩)) ∧
    Image.bad ⟨header1⟩ = false ∧ Image.free ⟨header1⟩ = false ∧
    gangHead.launchLoads (gangState.disp.queueAt 2) 128 0 ⟨header1⟩ ⟨0, 0, 1, 1⟩ =
      ((gangHead.launchLoads gangQueue 128 0 ⟨header1⟩ ⟨0, 0, 1, 1⟩).1, .ok {}) ∧
    gangHead.launch 7 = none ∧ (gangHead.launchLoads gangQueue 128 0 ⟨header1⟩ ⟨0, 0, 1, 1⟩).1.launch 7 = none ∧
    gangHead.rectOk gangQueue ⟨0, 0, 1, 1⟩ = true ∧ gangHead.diesOpen 2 [] ⟨0, 0, 1, 1⟩ = true := by
  have hq : gangState.disp.queueAt 2 = gangQueue := by decide +kernel
  have hc : gangHead.csaOk ⟨0, 0, 1, 1⟩ (gangHead.disp.ctxAt gangQueue.ctx) = true :=
    csaOk_of_large _ _ _ (by decide +kernel)
  have hl : gangHead.launchLoads gangQueue 128 0 ⟨header1⟩ ⟨0, 0, 1, 1⟩ = gangHead.asContext 0 9 fun s =>
      s.readLoads 128 ⟨header1⟩ ⟨0, 0, 1, 1⟩ (gangHead.disp.ctxAt 9).domid := by
    have hb : (Image.bad ⟨header1⟩ || Image.differs ⟨header1⟩ gangQueue) = false := by decide +kernel
    simp only [State.launchLoads, hb, hc]
    rfl
  rw [hq, hl]
  exact ⟨by decide +kernel, rfl, by decide +kernel, by decide +kernel, by decide +kernel, by decide +kernel,
    by decide +kernel, by decide +kernel, by decide +kernel, by decide +kernel⟩

theorem witness_GangLaunchesFollowTheirTimes_refused : gangHead.rectOk { gangQueue with region := 3 } ⟨0, 0, 1, 1⟩ = false ∧
    (gangHead.launchLoads { gangQueue with tier := 2 } 128 0 ⟨header1⟩ ⟨0, 0, 1, 1⟩).2.isOk = false := by
  have hb : (Image.bad ⟨header1⟩ || Image.differs ⟨header1⟩ { gangQueue with tier := 2 }) = true := by decide +kernel
  refine ⟨by decide +kernel, ?_⟩
  simp only [State.launchLoads, hb, Bool.true_or]
  rfl

/-- Gang 5 on dies 0 and 1 of this package, with its image and its context as in `gangState`. -/
def gl : Launch := { lch with gang := true, t0 := 5000, image := 128 }
def gang (m : Msg) (f : Launch → Launch := id) : State := { launched (f gl) with
  msg := m, mem := gangState.mem, disp := { (launched (f gl)).disp with ctxs := gangState.disp.ctxs } }

theorem witness_GangLaunchesFollowTheirTimes :
    (∀ c ∈ [true, false], let s := gang (.package 3 5) fun l => { l with coord := c };
      s.msg = .package 3 5 ∧ s.launch 5 = some { gl with coord := c }) ∧
    (let s := gang (.launch 6); s.msg = .launch 6 ∧ s.launch 6 = none) ∧
    (gl.rect.pkgs = [0] ∧ gl.ready = [] ∧ gl.started = [] ∧ gl.ended = [] ∧ gl.confirmed = false) ∧
    (∀ p ∈ [LaunchPhase.prepared, .waiting, .running], let s := gang (.launch 5) fun l => { l with phase := p };
      s.msg = .launch 5 ∧ s.launch 5 = some { gl with phase := p } ∧ s.gtc < gl.t0 ∧
      SMap.wf ({} : Queue) s.disp.queues = true ∧ gl.coord = true ∧ gl.begun = false ∧ (s.disp.queueAt 2).cancels < 2) ∧
    (let l := { gl with phase := .prepared, token := true }; let s := gang (.launch 5) fun _ => l;
      (s.headAt l.ctx l.image (List.finRange 8)).2 = some (0, ⟨header1⟩) ∧ Image.graph ⟨header1⟩ = 0 ∧
      (s.headAt l.ctx l.image (List.finRange 8)).1.launch 5 = some l) ∧
    (let l := { gl with begun := true }; let s := (gang (.launch 5) fun _ => l).modDie fun d => { d with running := true, ctx := { d.ctx with
        pend := [⟨3, 0, 0, .nop, .none⟩], launchId := 5 } };
      l.phase = .running ∧ l.begun = true ∧ 0 ∈ l.dies ∧ 0 ∈ l.runs ∧ 0 ∉ l.halted ∧ (s.dieAt 0).halting = false ∧
      (s.dieAt 0).running = true ∧ (s.dieAt 0).ctx.pend ≠ [] ∧ (s.dieAt 0).ctx.launchId = .ofNat 64 5 ∧
      ((gang (.launch 5) fun _ => l).dieAt 0).running = false) ∧
    (let l := { gl with begun := true, phase := .parked }; l.begun = true ∧ l.phase ≠ .running ∧ l.phase ≠ .halting) := by
  refine ⟨?_, ?_, ?_, ?_, ?_, ?_, ?_⟩ <;> decide +kernel

/-! ### Steps, encodings and the whole machine -/

/-- A queue of one piece of work. -/
def works (w : Work) : State := { base with todo := [⟨0, w⟩] }

theorem witness_StepRunsTheDecodedSlot :
    (let w := 0x2000101450000010; let s := works (.slot w 2); s.todo = [⟨0, .slot w 2⟩] ∧ w ≠ 0 ∧ s.ctx.acts w = true ∧
      slotInstr 2 w = some (.addi 5 5 16) ∧ (base.withFetchWord 64 w).todo = [⟨0, .slot w 2⟩] ∧
      decodeSlot w = .ok (.addi 5 5 16) ∧ Instr.addi 5 5 16 ≠ .nop ∧ (guardOf w).1 = 0 ∧ (guardOf w).2 = false ∧ w < 2 ^ 64) ∧
    (let w := 0x1C00060000000000; (works (.slot w 1)).ctx.acts w = false ∧ w ≠ 0) ∧
    (let w := 0x2000FF0000000000; (works (.slot w 2)).ctx.acts w = true ∧ slotInstr 2 w = none ∧ w ≠ 0) ∧
    ((works (.pump 0x60D201F300000000 none)).todo = [⟨0, .pump 0x60D201F300000000 none⟩] ∧
      decodePump 0x60D201F300000000 none = .ok (.refr ⟨3, 1, 0⟩ 0x201F3)) ∧
    (decodeCommand [0x0C, 1200, 0, 0, 0, 0, 0, 0] = .ok (.pcap 1200)) ∧ base.todo = [] ∧
    (∃ e, decodeCommand [0x0D, 0, 0, 0, 0, 0, 0, 0] = .error e) ∧ failsafe.host.failsafe = true := by
  refine ⟨?_, ?_, ?_, ?_, ?_, ?_, ⟨_, rfl⟩, ?_⟩ <;> decide +kernel

theorem witness_ZeroWordIsNopAndControlWordsStandInSlotOne : (works (.slot 0 15)).todo = [⟨0, .slot 0 15⟩] ∧
    (let w := 0x1C00060000000000; w ≠ 0 ∧ w / 2 ^ 61 % 8 = 0) ∧ 0x2000101450000010 / 2 ^ 61 % 8 ≠ 0 ∧
    (let w := 1; w ≠ 0 ∧ w < 2 ^ 64 ∧ w / 2 ^ 61 % 8 = 0 ∧ w / 2 ^ 40 % 2 ^ 8 = 0) ∧
    (let c := { atBundle.ctx with seg := some { va := 128, bundles := [[4, 0, 1] ++ List.replicate 13 0] } };
      c.removed = false ∧ ∃ x ∈ slotsOf c.bundle, slotInstr x.1 x.2 = none) := by decide +kernel

theorem witness_DecodingAndEncodingAgree :
    wf (.addi 5 5 16) = true ∧ encodeGuarded 14 true (.addi 5 5 16) = some 0x3D00101450000010 ∧
    0x3D00101450000010 < 2 ^ 64 ∧ decodeSlot 0x3D00101450000010 = .ok (.addi 5 5 16) ∧
    wf (.refr ⟨3, 1, 0⟩ 0x201F3) = true ∧ encodePump (.refr ⟨3, 1, 0⟩ 0x201F3) = some (0x60D201F300000000, none) ∧
    decodePump 0x60D201F300000000 none = .ok (.refr ⟨3, 1, 0⟩ 0x201F3) ∧
    wf (.pcap 1200) = true ∧ encodeCommand (.pcap 1200) = some (0x0C, [1200, 0, 0, 0, 0]) ∧
    decodeCommand (0x0C :: [1200, 0, 0, 0, 0]) = .ok (.pcap 1200) := by decide +kernel

theorem witness_EveryInstructionAnswersANextState : Instr.nop ≠ .hostReservoirRead ∧ Instr.nop ≠ .hostReservoirWrite ∧
    (msg (.hostRead (2 ^ 40) 0)).msg = .hostRead (2 ^ 40) 0 ∧ 2 ^ 40 + 0 ≤ 2 ^ 40 ∧
    (msg (.hostWrite (2 ^ 40 - 1) [7])).msg = .hostWrite (2 ^ 40 - 1) [7] ∧ 2 ^ 40 - 1 + [7].length ≤ 2 ^ 40 := by
  decide +kernel

theorem witness_EveryStepKeepsTheMemoriesCanonical : (works (.slot 0x2000101450000010 2)).mem.wf = true ∧
    (match step (works (.slot 0x2000101450000010 2)) with | .next t => t.mem.wf && (t.ctx.pend != []) | _ => false) = true ∧
    State.reset.mem.wf = true := by decide +kernel

/-! ### The worked examples of the spec -/

/-- Words written out in the examples of R119, R134, R161, R170, R172, R186, R197, R218 and R253, and in the chapter of
kernel programs. -/
theorem test_decodeWorkedExamples :
    decodeSlot 0xA008110C10500000 = .ok (.stnCut 3 false 12 4 5 0 false) ∧
    decodeSlot 0x2000601C3C000028 = .ok (.ld ⟨7, 3, 3, false, 0x28⟩) ∧
    decodeSlot 0x4001120102E00000 = .ok (.vcmpLt 1 ⟨1, 2, 0xE0, 0, 0, 0, 0⟩) ∧
    decodeSlot 0x4001400202E40001 = .ok (.vmul 1 ⟨2, 2, 0xE4, 0, 0, 0, 1⟩) ∧
    decodeSlot 0x4601800908003012 = .ok (.vcvt 1 ⟨9, 8, 0, 3, 0, 0, true, 2⟩) ∧ guardOf 0x4601800908003012 = (3, false) ∧
    decodeSlot 0x600100C6C4002300 = .ok (.scanPsum 1 ⟨0xC6, 0xC4, 0, 2, 1, true, 0, false, 0⟩) ∧
    decodeSlot 0xA001001008C40000 = .ok (.qBind 1 2 0 1 6 1 false false) ∧
    decodeSlot 0xE400110070400000 = .ok (.csrw 0 7 0x040) ∧ guardOf 0xE400110070400000 = (2, false) ∧
    decodeSlot 0x40010DC9C1000010 = .ok (.vmov 1 ⟨0xC9, 0xC1, 0, 0, 0, 2, 0⟩) ∧
    decodeSlot 0x400101CB01020010 = .ok (.vsub 1 ⟨0xCB, 1, 2, 0, 0, 2, 0⟩) ∧
    decodeSlot 0x800101C220000000 = .ok (.mxAcc 1 true true 1 2 0) ∧
    decodeSlot 0x80010B1900000000 = .ok (.mxScale 1 3 4) ∧
    decodeSlot 0x8001082800000000 = .ok (.mxDrain 1 5 false false false 0 0) ∧
    decodeSlot 0xC001004240000000 = .ok (.sumpAdd 1 8 9 0) ∧
    decodePump 0x1640801200000000 none = .ok (.act ⟨25, 0, 0⟩ (2 * 2 ^ 14 + 18)) ∧
    decodePump 0x2640000601D80050 none = .ok (.rd ⟨25, 0, 0⟩ 6 0x01D80050) := by decide

/-- R133: −12,345.625 and 2^32 to INT32 with RTZ. -/
theorem test_fcvtToInt : cvt 11 9 .rtz false 0xC0C81CD000000000 = (0xFFFFCFC7, { nx := true }) ∧
    cvt 11 9 .rtz false 0x41F0000000000000 = (0x7FFFFFFF, { iv := true }) ∧
    cvt 11 9 .rtz true 0x41F0000000000000 = (0x7FFFFFFF, { sa := true }) := by decide +kernel

/-- R171: 1 + 2^−8 to BF16 is a tie, which goes to the even neighbour. -/
theorem test_vpackTie : cvt 0 1 .rne false 0x3F808000 = (0x3F80, { nx := true }) := by decide +kernel

/-- R45, R46: the E4M3 block of 6 and −1.5 with scales 0x7C and 0x81 on an accumulator of 10.0. -/
theorem test_mxBlock : mxCell 5 5 0xC03C 0x3448 = (0x120000, 0, false) ∧
    foldCell 5 5 0x7C 0x81 0x120000 0 0x41200000 = (0x41440000, {}) := by decide +kernel

/-- R218: 2^24 and two additions of 1.0 in one group are rounded once. -/
theorem test_sumpMerge : sumpNew 0 0 0x4B800000 [0x3F800000, 0x3F800000] = 0x4B800001 := by decide +kernel

/-- R226: FADE of w = 2.0, x = 1.0 with a = 0.125, b = 0.5. -/
theorem test_fade : nmcNew 0 0x40000000 0x3F800000 0x3E000000 0x3F000000 = 0x3FE00000 := by decide +kernel

/-- R419: SHA-384 of the three bytes `abc`; the digest is the one that FIPS 180-4's examples give. -/
theorem test_sha384 : bytesNat (sha384 [0x61, 0x62, 0x63]).reverse =
    0xcb00753f45a35e8bb5a03d699ac65007272c32ab0eded1631a8b605a43ff5bed8086072ba1e7cc2358baeca134c825a7 := by decide +kernel

/-- R63: `LBRK` and a `CSRW` to COUNT of the same loop level share no field; two writes of COUNT do. -/
theorem test_clash : clash (slotNames (.lbrk 0)) (slotNames (.csrw 0 7 0x040)) = false ∧
    clash (slotNames (.csrw 0 7 0x040)) (slotNames (.csrs 0 7 0x040)) = true := by decide +kernel

/-- R197, R302, R303 and the program of chapter 13: its tensor of 8 × 8 FP16 elements in tiles of 128 bytes binds; with a
reserved layout, without an id or with swizzle order 3 the bind traps with cause 0x17. -/
theorem test_bindChecks :
    let h : Nat → Nat → Nat → Handle := fun id lay swz =>
      .ofNat 256 (id * 2 ^ 240 + 2 * 2 ^ 236 + lay * 2 ^ 232 + swz * 2 ^ 226 + 2 ^ 224 + (8 + 8 * 2 ^ 16) * 2 ^ 160 + 51 * 2 ^ 144)
    let f := fun x => (bindTrap 1 2 0 x 0).map fun t => t.cause
    f (h 1 0 0) = none ∧ f (h 1 2 0) = some 0x17 ∧ f (h 0 0 0) = some 0x17 ∧ f (h 1 0 48) = some 0x17 := by decide +kernel

/-- R127: `ADDI s5, s5, 16` of 2^64 − 1 leaves 15 at the end of its cycle. -/
theorem test_addiWraps : (match exec (.addi 5 5 16) (iss.modCtx fun c => { c with s := c.s.set 5 (-1) }) with
    | .next t => t.ctx.pend.map fun p => (p.at_, p.instr)
    | _ => []) = [(0, .timelineResultLanding (.sreg 5 15 {}))] := by decide +kernel

end Sys2Proof.Tests
end

/-! SUPPORT. The parts of the machine at reset, and what the register tables say of them. -/

namespace Sys2Proof.Machine

/-! ### The parts of the machine at reset -/

@[simp] theorem State.reset_dieAt (d : DieIx) : State.reset.dieAt d = {} := by
  simp [State.dieAt, State.reset, Vector.get]

@[simp] theorem Ctx.default_bayAt (b : BayIx) : ({} : Ctx).bayAt b = {} := by
  simp [Ctx.bayAt, Vector.get]

@[simp] theorem Bay.default_str (q : Nat) : ({} : Bay).str q = {} := by
  simp [Bay.str]

@[simp] theorem Fabric.default_port (k : Nat) : ({} : Fabric).port k = {} := by
  simp [Fabric.port]

@[simp] theorem Order.default_free : ({} : Order).free = 2048 := rfl

@[simp] theorem State.reset_byteAt (a : Nat) : State.reset.byteAt a = 0 := rfl

@[simp] theorem State.reset_fab_port (k : Nat) : State.reset.fab.port k = {} := Fabric.default_port k

@[simp] theorem State.reset_queueAt (n : Nat) : State.reset.disp.queueAt n = {} := rfl

end Sys2Proof.Machine

open Sys2Proof Sys2Proof.Machine in
/-- Settles O58: every die, context, bay, stream, port and queue is at its default at reset, and the defaults are the stated
values. -/
theorem resetHoldsTheStatedValues : Obligations.ResetHoldsTheStatedValues := by
  unfold Obligations.ResetHoldsTheStatedValues
  refine ⟨State.reset_mem_wf, State.reset_byteAt, fun d => ?_, fun k _ => ?_, rfl, rfl, rfl, rfl, rfl, rfl,
    State.reset_queueAt, rfl, ?_⟩
  · simp only [State.reset_dieAt, Ctx.default_bayAt, Bay.default_str, Ctx.rs_zero, Ctx.rp_zero]
    simp only [Order.default_free, and_self, implies_true]
  · simp
  · decide

/-!
SUPPORT. The operations that touch no memory, in the order of the model's files: each leaves every memory as it is. A proof
`(rfl)` is in parentheses so that `simp` may use the equation for the operation of a fold.
-/

namespace Sys2Proof.Machine

/-- A fold of operations that touch no memory touches none. -/
@[simp] theorem foldl_mem {α : Type} {f : State → α → State} (l : List α) (s : State)
    (hf : ∀ s a, (f s a).mem = s.mem) : (l.foldl f s).mem = s.mem := by
  induction l generalizing s with
  | nil => rfl
  | cons a l ih => exact (ih _).trans (hf s a)

/-- What is done on another die touches no memory where the operation touches none. -/
@[simp] theorem State.onDie_mem_eq (s : State) (i : DieIx) {f : State → State} (hf : ∀ s, (f s).mem = s.mem) :
    (s.onDie i f).mem = s.mem :=
  hf _

@[simp] theorem State.eachDie_mem (s : State) {f : State → State} (hf : ∀ s, (f s).mem = s.mem) :
    (s.eachDie f).mem = s.mem :=
  foldl_mem _ _ fun _ _ => hf _

@[simp] theorem State.dropping_mem (s : State) (l : List Nat) {f : State → State} (hf : ∀ s, (f s).mem = s.mem) :
    (s.dropping l f).mem = s.mem :=
  hf _

@[simp] theorem State.onDies_mem (s : State) (l : Launch) {f : State → State} (hf : ∀ s, (f s).mem = s.mem) :
    (s.onDies l f).mem = s.mem :=
  foldl_mem _ _ fun _ _ => hf _

/-! ### Ops.lean -/

@[simp] theorem State.modCtxDesc_mem (s : State) (n : Nat) (f : CtxDesc → CtxDesc) : (s.modCtxDesc n f).mem = s.mem :=
  (rfl)

@[simp] theorem State.touchDie_mem (s : State) (g : Nat) : (s.touchDie g).mem = s.mem := (rfl)

@[simp] theorem State.pendAt_mem (s : State) (t prio : Nat) (i : Instr) (m : Msg) : (s.pendAt t prio i m).mem = s.mem :=
  (rfl)

@[simp] theorem State.later_mem (s : State) (lat : Nat) (r : Result) (prio : Nat) : (s.later lat r prio).mem = s.mem :=
  (rfl)

@[simp] theorem State.wsLater_mem (s : State) (lat : Nat) (r : BitVec 6) (v : Word) (f : Flags) :
    (s.wsLater lat r v f).mem = s.mem :=
  (rfl)

@[simp] theorem State.wpLater_mem (s : State) (lat : Nat) (r : BitVec 4) (v : Bool) (f : Flags) :
    (s.wpLater lat r v f).mem = s.mem :=
  (rfl)

@[simp] theorem State.stopDie_mem (s : State) : (s.stopDie).mem = s.mem := (rfl)

@[simp] theorem State.deliver_mem (s : State) (r : TrapRec) : (s.deliver r).mem = s.mem := by
  simp [State.deliver, apply_ite State.mem]

@[simp] theorem State.raise_mem (s : State) (r : TrapRec) : (s.raise r).mem = s.mem := by
  simp [State.raise, apply_ite State.mem]

@[simp] theorem State.slotRaise_mem (s : State) (t : Trap) : (s.slotRaise t).mem = s.mem := by simp [State.slotRaise]

@[simp] theorem State.tret_mem (s : State) (skip nodbrk : Bool) : (s.tret skip nodbrk).mem = s.mem := (rfl)

/-! ### Mem.lean -/

@[simp] theorem State.takeSide_mem (s : State) (ws : List Nat) : (s.takeSide ws).mem = s.mem := (rfl)

/-! ### Hbm.lean -/

@[simp] theorem State.closeBank_mem (s : State) (b : Nat) : (s.closeBank b).mem = s.mem := by simp [State.closeBank]

@[simp] theorem State.killRow_mem (s : State) (b r : Nat) : (s.killRow b r).mem = s.mem := by simp [State.killRow]

@[simp] theorem State.dirty_mem (s : State) (leaf : Option (Nat × Nat)) (b r u : Nat) :
    (s.dirty leaf b r u).mem = s.mem := by
  unfold State.dirty
  split <;> simp

@[simp] theorem State.countAccess_mem (s : State) (b r col resid lmode : Nat) (leaf : Option (Nat × Nat)) :
    (s.countAccess b r col resid lmode leaf).mem = s.mem := by
  simp [State.countAccess, apply_ite State.mem]

@[simp] theorem State.loseWrite_mem (s : State) (leaf : Nat) : (s.loseWrite leaf).mem = s.mem := (rfl)

@[simp] theorem State.noteCmd_mem (s : State) (c b : Nat) : (s.noteCmd c b).mem = s.mem := (rfl)

/-! ### Service.lean -/

@[simp] theorem State.svcBegin_mem (s : State) (bank n : Nat) (write : Bool) : (s.svcBegin bank n write).mem = s.mem :=
  (rfl)

@[simp] theorem State.cacheLeaf_mem (s : State) (i : Nat) : (s.cacheLeaf i).mem = s.mem := (rfl)

@[simp] theorem State.egressBegin_mem (s : State) (first n : Nat) (write : Bool) :
    (s.egressBegin first n write).mem = s.mem := by
  simp [State.egressBegin]

/-! ### Window.lean -/

@[simp] theorem State.setBrk_mem (s : State) (p : Nat) : (s.setBrk p).mem = s.mem := (rfl)

@[simp] theorem State.setEgress_mem (s : State) (p : Nat) (l : List EgressRec) : (s.setEgress p l).mem = s.mem := (rfl)

@[simp] theorem State.modPath_mem (s : State) (p : Nat) (f : PathSt → PathSt) : (s.modPath p f).mem = s.mem := (rfl)

@[simp] theorem State.startEpoch_mem (s : State) (p e : Nat) : (s.startEpoch p e).mem = s.mem := by
  simp [State.startEpoch, apply_ite State.mem]

@[simp] theorem State.dropOnWay_mem (s : State) (p : Nat) : (s.dropOnWay p).mem = s.mem := (rfl)

@[simp] theorem State.takeBroken_mem (s : State) : (s.takeBroken).mem = s.mem := by
  simp [State.takeBroken, apply_ite State.mem]

@[simp] theorem State.cbPush_mem (s : State) (e : CbEntry) : (s.cbPush e).mem = s.mem := (rfl)

@[simp] theorem State.cbFree_mem (s : State) (id : Nat) : (s.cbFree id).mem = s.mem := (rfl)

@[simp] theorem State.copyDone_mem (s : State) (id p : Nat) : (s.copyDone id p).mem = s.mem := by simp [State.copyDone]

@[simp] theorem State.barCombine_mem (s : State) : (s.barCombine).mem = s.mem := (rfl)

/-! ### Streams.lean -/

@[simp] theorem State.launchOne_mem (s : State) (bay : BayIx) (st : BitVec 9728) (ws : List DrawWord) (c : DrawClient) :
    (s.launchOne bay st ws c).mem = s.mem := by
  unfold State.launchOne
  split <;> simp

@[simp] theorem State.eatHead_mem (s : State) (bay : BayIx) (q : Nat) : (s.eatHead bay q).mem = s.mem := (rfl)

@[simp] theorem State.eatAll_mem (s : State) (n : Names) : (s.eatAll n).mem = s.mem := by simp [State.eatAll]

@[simp] theorem State.reserve_mem (s : State) (bay : BayIx) (q : Nat) : (s.reserve bay q).1.mem = s.mem := (rfl)

@[simp] theorem State.presentLanes_mem (s : State) (bay : BayIx) (ls : List PourLane) :
    (s.presentLanes bay ls).mem = s.mem := by
  simp [State.presentLanes, apply_ite State.mem]

@[simp] theorem State.present_mem (s : State) (lane0 : Nat) (r : Resv) (lanes : List Lane) (valid : List Bool) :
    (s.present lane0 r lanes valid).mem = s.mem := by
  simp [State.present]

/-! ### Check.lean -/

@[simp] theorem State.stnReport_mem (s : State) (bay : BitVec 3) : (s.stnReport bay).mem = s.mem := by
  simp [State.stnReport]

@[simp] theorem State.slotReport_mem (s : State) (i : Instr) : (s.slotReport i).mem = s.mem := by
  unfold State.slotReport
  split <;> simp

@[simp] theorem State.startWait_mem (s : State) (i : Instr) : (s.startWait i).mem = s.mem := by
  unfold State.startWait
  dsimp only
  repeat' split
  all_goals simp

/-! ### Control.lean -/

@[simp] theorem State.goto_mem (s : State) (t : Target) : (s.goto t).mem = s.mem := (rfl)

@[simp] theorem State.afterCommit_mem (s : State) (r : TrapRec) : (s.afterCommit r).mem = s.mem := (rfl)

@[simp] theorem State.startExpand_mem (s : State) (va : Nat) : (s.startExpand va).mem = s.mem := by
  simp [State.startExpand]

@[simp] theorem State.nameSegment_mem (s : State) (va : Nat) : (s.nameSegment va).mem = s.mem := by
  simp [State.nameSegment, apply_ite State.mem]

/-! ### Csr.lean -/

@[simp] theorem State.csrWrite_mem (s : State) (n how : Nat) (v : Word) : (s.csrWrite n how v).mem = s.mem := by
  simp [State.csrWrite, apply_ite State.mem]

@[simp] theorem State.csrSlot_mem (s : State) (d : BitVec 6) (csr : BitVec 12) (how : Nat) (v : Word) :
    (s.csrSlot d csr how v).mem = s.mem := by
  simp [State.csrSlot, apply_ite State.mem]

/-! ### Pump.lean -/

@[simp] theorem State.setBank_mem (s : State) (b : Nat) (o : OpenRow) : (s.setBank b o).mem = s.mem := (rfl)

@[simp] theorem State.closeAll_mem (s : State) (pc : Nat) : (s.closeAll pc).mem = s.mem := by simp [State.closeAll]

@[simp] theorem State.takeCol_mem (s : State) : (s.takeCol).1.mem = s.mem := (rfl)

@[simp] theorem State.stageStep_mem (s : State) : (s.stageStep).mem = s.mem := by
  unfold State.stageStep
  dsimp only
  repeat' split
  all_goals simp

@[simp] theorem State.pumpSettle_mem (s : State) : (s.pumpSettle).mem = s.mem := by simp [State.pumpSettle]

/-! ### Idle.lean -/

@[simp] theorem State.noteIdle_mem (s : State) (i : Instr) : (s.noteIdle i).mem = s.mem := (rfl)

@[simp] theorem State.idleRefr_mem (s : State) (b : Nat) : (s.idleRefr b).mem = s.mem := (rfl)

@[simp] theorem State.idleDo_mem (s : State) (i : Instr) : (s.idleDo i).mem = s.mem := by
  unfold State.idleDo
  split <;> simp

@[simp] theorem State.idleWords_mem (s : State) (l : List Nat) : (s.idleWords l).1.mem = s.mem := by
  induction l generalizing s with
  | nil => rfl
  | cons w l ih =>
    unfold State.idleWords
    repeat' split
    all_goals simp [ih]

@[simp] theorem State.modIdle_mem (s : State) (f : IdleRun → IdleRun) : (s.modIdle f).mem = s.mem := (rfl)

@[simp] theorem State.idleStep_mem (s : State) : (s.idleStep).mem = s.mem := by simp [State.idleStep]

@[simp] theorem State.pumpReady_mem (s : State) : (s.pumpReady).mem = s.mem := (rfl)

/-! ### Fetch.lean -/

@[simp] theorem State.pageLeaf_mem (s : State) (p : Nat) : (s.pageLeaf p).1.mem = s.mem := by
  unfold State.pageLeaf
  dsimp only
  split_ifs <;> simp

@[simp] theorem State.loadEntry_mem (s : State) (e : StnEntry) : (s.loadEntry e).1.mem = s.mem := by
  unfold State.loadEntry
  refine foldl_keeps (P := fun x : State × Bool => x.1.mem = s.mem) _ rfl fun x b hx => ?_
  dsimp only
  split_ifs <;> simpa using hx

@[simp] theorem State.loadEntries_mem (s : State) (l : List StnEntry) : (s.loadEntries l).1.mem = s.mem := by
  induction l generalizing s with
  | nil => rfl
  | cons e l ih =>
    unfold State.loadEntries
    split_ifs <;> simp [ih]

@[simp] theorem State.resumeSegment_mem (s : State) (g : Segment) : (s.resumeSegment g).mem = s.mem := by
  unfold State.resumeSegment
  repeat' split
  all_goals simp

/-! ### Engine.lean -/

@[simp] theorem State.modHead_mem (s : State) (f : CopyReq → CopyReq) : (s.modHead f).mem = s.mem := by
  simp [State.modHead]

/-- A turn of the engine at the side ports changes no memory beside what its access does. -/
theorem State.copySide_mem (s : State) (r : CopyReq) (all reads : List Nat) {f : State → State}
    (hf : ∀ s, (f s).mem = s.mem) : (s.copySide r all reads f).1.mem = s.mem := by
  unfold State.copySide
  split
  · simp [apply_ite State.mem]
  · simp [hf]

@[simp] theorem State.fillDone_mem (s : State) (r : CopyReq) : (s.fillDone r).mem = s.mem := by
  simp [State.fillDone, apply_ite State.mem]

@[simp] theorem State.engineQueue_mem (s : State) (e : Instr) (r : CopyReq) : (s.engineQueue e r).mem = s.mem := by
  simp [State.engineQueue]

/-! ### Scalar.lean -/

@[simp] theorem State.toLoadQueue_mem (s : State) (kind : MemKind) (dst ea size : Nat) (uns : Bool) :
    (s.toLoadQueue kind dst ea size uns).mem = s.mem := by
  simp [State.toLoadQueue]

@[simp] theorem State.toStoreQueue_mem (s : State) (kind : MemKind) (ea size data : Nat) :
    (s.toStoreQueue kind ea size data).mem = s.mem := by
  simp [State.toStoreQueue]

@[simp] theorem State.pendScalar_mem (s : State) (d : BitVec 6) : (s.pendScalar d).mem = s.mem := by
  simp [State.pendScalar, apply_ite State.mem]

/-! ### Order.lean -/

@[simp] theorem State.unpend_mem (s : State) (o : MemOp) : (s.unpend o).mem = s.mem := by simp [State.unpend]

@[simp] theorem State.dueTrap_mem (s : State) (cause aux : Nat) (handler : Bool) :
    (s.dueTrap cause aux handler).mem = s.mem :=
  (rfl)

@[simp] theorem State.overtake_mem (s : State) (o : MemOp) : (s.overtake o).mem = s.mem := by
  simp [State.overtake, apply_ite State.mem]

@[simp] theorem State.loadDst_mem (s : State) (o : MemOp) (v : Nat) : (s.loadDst o v).mem = s.mem := by
  simp [State.loadDst]

@[simp] theorem State.hoistAdd_mem (s : State) (o : MemOp) : (s.hoistAdd o).mem = s.mem := by
  simp [State.hoistAdd, apply_ite State.mem]

@[simp] theorem State.loadFail_mem (s : State) (o : MemOp) (cause : Nat) : (s.loadFail o cause).mem = s.mem := by
  simp [State.loadFail, apply_ite State.mem]

@[simp] theorem State.loadValue_mem (s : State) (o : MemOp) (v : Nat) (isLocal : Bool) :
    (s.loadValue o v isLocal).mem = s.mem := by
  simp [State.loadValue, apply_ite State.mem]

@[simp] theorem State.sendVerb_mem (s : State) (kind : VerbKind) (o : MemOp) (dom sop sfmt : Nat) (vals : List Word32) :
    (s.sendVerb kind o dom sop sfmt vals).mem = s.mem := by
  simp [State.sendVerb]

@[simp] theorem State.countLate_mem (s : State) (a : Nat) : (s.countLate a).mem = s.mem := by
  simp [State.countLate, apply_ite State.mem]

@[simp] theorem State.verbArrive_mem (s : State) (v : Verb) : (s.verbArrive v).mem = s.mem := by
  simp [State.verbArrive, apply_ite State.mem]

@[simp] theorem State.markStored_mem (s : State) (o : MemOp) : (s.markStored o).mem = s.mem := by
  unfold State.markStored
  split_ifs
  · rfl
  · exact foldl_mem _ _ fun _ _ => rfl

@[simp] theorem State.sumpFlag_mem (s : State) (d : DieIx) (bits : BitVec 3) : (s.sumpFlag d bits).mem = s.mem := (rfl)

/-! ### Sump.lean -/

@[simp] theorem State.closeGroup_mem (s : State) (g : SumpGroup) : (s.closeGroup g).mem = s.mem := by
  simp [State.closeGroup]

@[simp] theorem State.closeGroups_mem (s : State) (p : BayIx → Bool) : (s.closeGroups p).mem = s.mem := by
  simp [State.closeGroups]

@[simp] theorem State.joinGroup_mem (s : State) (b : BayIx) (op fmt : Nat) (vals : List (Nat × Word32)) :
    (s.joinGroup b op fmt vals).mem = s.mem := by
  unfold State.joinGroup
  dsimp only
  split <;> split_ifs <;> simp

/-! ### Migrate.lean -/

@[simp] theorem State.modMigr_mem (s : State) (leaf : Nat) (f : Migr → Migr) : (s.modMigr leaf f).mem = s.mem := (rfl)

/-! ### Sync.lean -/

@[simp] theorem State.freeSet_mem (s : State) (k : Nat) : (s.freeSet k).mem = s.mem := by
  unfold State.freeSet
  split <;> simp

@[simp] theorem State.freeSets_mem (s : State) : (s.freeSets).mem = s.mem := by simp [State.freeSets]

@[simp] theorem State.setDomain_mem (s : State) (id : BitVec 16) : (s.setDomain id).mem = s.mem := by
  simp [State.setDomain, apply_ite State.mem]

/-! ### Quantum.lean -/

@[simp] theorem State.syncFlit_mem (s : State) (key : Nat) : (s.syncFlit key).mem = s.mem := by
  simp [State.syncFlit, apply_ite State.mem]

@[simp] theorem State.ackUnit_mem (s : State) (u : RUnit) (ok : Bool) : (s.ackUnit u ok).mem = s.mem := by
  simp [State.ackUnit, apply_ite State.mem]

@[simp] theorem State.verbDone_mem (s : State) (v : Verb) : (s.verbDone v).mem = s.mem := (rfl)

@[simp] theorem State.barArrive_mem (s : State) (id : Nat) : (s.barArrive id).mem = s.mem := by
  unfold State.barArrive
  dsimp only
  split_ifs <;> simp

@[simp] theorem State.barLeave_mem (s : State) (id : Nat) : (s.barLeave id).mem = s.mem := by
  unfold State.barLeave
  dsimp only
  repeat' split
  all_goals simp

@[simp] theorem State.waitsDue_mem (s : State) : (s.waitsDue).mem = s.mem := by simp [State.waitsDue]

@[simp] theorem State.cbCount_mem (s : State) : (s.cbCount).mem = s.mem := by simp [State.cbCount, apply_ite State.mem]

@[simp] theorem State.arrivals_mem (s : State) : (s.arrivals).mem = s.mem := (rfl)

@[simp] theorem State.waitStep_mem (s : State) : (s.waitStep).mem = s.mem := by simp [State.waitStep]

/-! ### Fabric.lean -/

@[simp] theorem State.modPort_mem (s : State) (k : Nat) (f : Port → Port) : (s.modPort k f).mem = s.mem := (rfl)

@[simp] theorem State.relock_mem (s : State) (k r : Nat) : (s.relock k r).mem = s.mem := by
  simp [State.relock, apply_ite State.mem]

@[simp] theorem State.tuneRing_mem (s : State) (k r w : Nat) : (s.tuneRing k r w).mem = s.mem := by
  simp [State.tuneRing]

@[simp] theorem State.relockPort_mem (s : State) (k : Nat) : (s.relockPort k).mem = s.mem := by
  simp [State.relockPort, apply_ite State.mem]

@[simp] theorem State.markSent_mem (s : State) (p : Nat) (ids : List Nat) : (s.markSent p ids).mem = s.mem := by
  simp [State.markSent]

@[simp] theorem State.takeRing_mem (s : State) (c : Contender) (g : Nat × Nat) (seq : Nat) (bytes : List Byte) :
    (s.takeRing c g seq bytes).mem = s.mem :=
  (rfl)

@[simp] theorem State.launchFlit_mem (s : State) (c : Contender) (g : Nat × Nat) (ids : List Nat) (body : List Byte) :
    (s.launchFlit c g ids body).mem = s.mem :=
  (rfl)

@[simp] theorem State.sendEntries_mem (s : State) (p : Nat) (c : Contender) (g : Nat × Nat) :
    (s.sendEntries p c g).mem = s.mem := by
  simp [State.sendEntries]

@[simp] theorem State.sendReplay_mem (s : State) (key : Nat) : (s.sendReplay key).mem = s.mem := by
  unfold State.sendReplay
  dsimp only
  repeat' split
  all_goals simp

@[simp] theorem State.sendSync_mem (s : State) (key : Nat) : (s.sendSync key).mem = s.mem := by
  unfold State.sendSync
  dsimp only
  repeat' split
  all_goals simp

@[simp] theorem State.sendNext_mem (s : State) (p : Nat) : (s.sendNext p).mem = s.mem := by
  unfold State.sendNext
  dsimp only
  repeat' split
  all_goals simp

theorem State.foldl_countLate_mem {α : Type} (l : List α) (s : State) (a : Nat) :
    (l.foldl (fun s _ => s.countLate a) s).mem = s.mem :=
  foldl_mem _ _ fun s _ => s.countLate_mem a

/-- The definition is unfolded as a constant, without its arguments, and its `match` is split as it stands: the kernel
would otherwise evaluate the comparison of sequence numbers modulo 2^32. -/
@[simp] theorem State.flitIn_mem (s : State) (src port seq : Nat) (stamp : BitVec 32)
    (us : List (Nat × BitVec 64 × BitVec 512)) (wid : Nat) (signal : Bool) :
    (s.flitIn src port seq stamp us wid signal).mem = s.mem := by
  generalize hx : s.flitIn src port seq stamp us wid signal = x
  generalize hF : @State.flitIn = F at hx
  delta State.flitIn at hF
  subst hF
  simp -iota -proj only at hx
  split at hx
  · rw [← hx]
  · split at hx
    · rw [← hx]
    · split at hx
      · rw [← hx, State.syncFlit_mem, State.modPath_mem]
      · split at hx
        rw [← hx, State.modOrd_mem, State.modPath_mem]
        exact State.foldl_countLate_mem _ _ _

@[simp] theorem State.slotOver_mem (s : State) : (s.slotOver).mem = s.mem := by
  unfold State.slotOver
  split <;> simp

@[simp] theorem State.rotaHalt_mem (s : State) : (s.rotaHalt).mem = s.mem := by
  simp [State.rotaHalt, apply_ite State.mem]

@[simp] theorem State.slotRing_mem (s : State) (n k r : Nat) (again : Bool) : (s.slotRing n k r again).mem = s.mem := by
  simp [State.slotRing, apply_ite State.mem]

@[simp] theorem State.slotStart_mem (s : State) (n : Nat) : (s.slotStart n).mem = s.mem := by
  simp [State.slotStart, apply_ite State.mem]

@[simp] theorem State.fmReport_mem (s : State) (c : FmCmd) (obeyed : Bool) : (s.fmReport c obeyed).mem = s.mem := (rfl)

theorem State.fmObey_mem {s t : State} {c : FmCmd} (h : s.fmObey c = some t) : t.mem = s.mem := by
  unfold State.fmObey at h
  split at h <;> split_ifs at h <;> cases h <;> simp

@[simp] theorem State.feedPort_mem (s : State) (k : Nat) : (s.feedPort k).mem = s.mem := by
  simp [State.feedPort, apply_ite State.mem]

@[simp] theorem State.noteReach_mem (s : State) : (s.noteReach).mem = s.mem := by simp [State.noteReach]

/-! ### Matrix.lean -/

@[simp] theorem State.mxIssue_mem (s : State) (b : BayIx) (a bl : List Lane) (tsel : Nat) (hold : Bool) :
    (s.mxIssue b a bl tsel hold).mem = s.mem := by
  simp [State.mxIssue, apply_ite State.mem]

@[simp] theorem State.mxHoldStep_mem (s : State) (b : BayIx) : (s.mxHoldStep b).mem = s.mem := by
  simp [State.mxHoldStep]

/-! ### Stream.lean -/

@[simp] theorem State.dropArrivals_mem (s : State) (b : BayIx) (q : Nat) : (s.dropArrivals b q).mem = s.mem := (rfl)

@[simp] theorem State.dropResults_mem (s : State) (b : BayIx) (q : Nat) : (s.dropResults b q).mem = s.mem := by
  simp [State.dropResults]

@[simp] theorem State.unbind_mem (s : State) (b : BayIx) (q : Nat) : (s.unbind b q).mem = s.mem := by
  simp [State.unbind]

@[simp] theorem State.bindStream_mem (s : State) (b : BayIx) (q port : Nat) (h : Handle) (pat : BitVec 128)
    (depth : Nat) (wrap feed : Bool) : (s.bindStream b q port h pat depth wrap feed).mem = s.mem := by
  simp [State.bindStream]

@[simp] theorem State.drainStream_mem (s : State) (b : BayIx) (q : Nat) : (s.drainStream b q).mem = s.mem := (rfl)

@[simp] theorem State.arrive_mem (s : State) (b : BayIx) (q : Nat) (e : Entry) : (s.arrive b q e).mem = s.mem := (rfl)

/-! ### Limiter.lean -/

@[simp] theorem State.letIssue_mem (s : State) (w : Nat) (touch : Bool) : (s.letIssue w touch).1.mem = s.mem := by
  unfold State.letIssue
  dsimp only
  split_ifs <;> simp

@[simp] theorem State.setPoints_mem (s : State) : (s.setPoints).mem = s.mem := by
  simp [State.setPoints, apply_ite State.mem]

/-! ### Stencil.lean -/

@[simp] theorem State.putStencil_mem (s : State) (b : BayIx) (dir : Bool) (slot : Nat) (st : BitVec 9728) :
    (s.putStencil b dir slot st).mem = s.mem := by
  simp [State.putStencil, apply_ite State.mem]

@[simp] theorem State.nextCut_mem (s : State) : (s.nextCut).mem = s.mem := by simp [State.nextCut]

/-! ### Seq.lean -/

@[simp] theorem State.enterSegment_mem (s : State) (g : Segment) : (s.enterSegment g).mem = s.mem := by
  simp [State.enterSegment, apply_ite State.mem]

/-- Where a segment has to be brought in, only its expansion starts. -/
theorem State.reach_mem (s : State) (va : Nat) {go : State → Segment → State × Fetched}
    (hg : ∀ g, (go s g).1.mem = s.mem) : (s.reach va go).1.mem = s.mem := by
  unfold State.reach
  repeat' split
  all_goals simp [hg]

@[simp] theorem State.follow_mem (n : Nat) (s : State) : (State.follow n s).1.mem = s.mem := by
  induction n generalizing s with
  | zero => rfl
  | succ n ih =>
    unfold State.follow
    split
    · rfl
    · split
      · simp
      · dsimp only
        split_ifs
        · exact State.reach_mem _ _ fun g => by simp [ih]
        · exact State.reach_mem _ _ fun g => by simp [ih]
        · simp [ih]
        · simp

@[simp] theorem State.settle_mem (s : State) : s.settle.1.mem = s.mem := by
  unfold State.settle
  split
  · rfl
  · exact foldl_mem _ _ fun _ _ => rfl

@[simp] theorem State.haltNow_mem (s : State) : (s.haltNow).mem = s.mem := (rfl)

@[simp] theorem State.drain_mem (s : State) : (s.drain).mem = s.mem := (rfl)

@[simp] theorem State.stall_mem (s : State) (safe : Bool) : (s.stall safe).mem = s.mem := by
  simp [State.stall, apply_ite State.mem]

@[simp] theorem State.drainFor_mem (s : State) (is : List (Nat × Instr)) : (s.drainFor is).mem = s.mem := by
  unfold State.drainFor
  refine foldl_mem _ _ fun s x => ?_
  repeat' split
  all_goals simp

@[simp] theorem State.firstCycle_mem (s : State) (ws : List Nat) (issued : Bool) :
    (s.firstCycle ws issued).mem = s.mem :=
  (rfl)

@[simp] theorem State.leaveDomain_mem (s : State) : s.leaveDomain.mem = s.mem := by
  unfold State.leaveDomain
  refine foldl_mem _ _ fun s x => ?_
  split <;> simp

@[simp] theorem State.issue_mem (s : State) : (s.issue).mem = s.mem := by simp [State.issue]

@[simp] theorem State.passRemoved_mem (s : State) : s.passRemoved.mem = s.mem := by
  unfold State.passRemoved
  split
  · simp
  · split
    · simp
    · next cmds _ =>
      have h := s.letIssue_mem (s.weigh false [] (cmds.map Prod.snd)) (s.touches 0 false [] (cmds.map Prod.snd))
      dsimp only
      split <;> simp_all

@[simp] theorem State.lastChecks_mem (s : State) (is : List (Nat × Instr)) (eaten : List (Nat × Nat)) :
    (s.lastChecks is eaten).mem = s.mem := by
  unfold State.lastChecks
  split_ifs
  · simp
  · dsimp only
    generalize hu : (s.modOrd fun o => { o with cbStall := 0 }) = u
    have hm : u.mem = s.mem := hu ▸ rfl
    split
    · simp [hm]
    · split
      · simp [hm]
      · next cmds _ =>
        have h := u.letIssue_mem (u.issueWeight is eaten (cmds.map Prod.snd))
          (u.touches (dstnOf u.ctx.bundle) true eaten (cmds.map Prod.snd))
        split <;> simp_all

@[simp] theorem State.closeIdleGroups_mem (s : State) (is : List (Nat × Instr)) :
    (s.closeIdleGroups is).mem = s.mem := by
  simp [State.closeIdleGroups]

@[simp] theorem State.exitWait_mem (s : State) : (s.exitWait).mem = s.mem := by
  unfold State.exitWait
  dsimp only
  repeat' split
  all_goals simp

@[simp] theorem State.turn_mem (s : State) : (s.turn).mem = s.mem := by
  unfold State.turn
  dsimp only
  repeat' split
  all_goals simp

@[simp] theorem State.fillPhase_mem (s : State) : (s.fillPhase).mem = s.mem := by
  simp [State.fillPhase, apply_ite State.mem]

@[simp] theorem State.landNow_mem (s : State) : (s.landNow).mem = s.mem := by simp [State.landNow, apply_ite State.mem]

@[simp] theorem State.nextBundle_mem (s : State) : (s.nextBundle).mem = s.mem := by
  unfold State.nextBundle
  dsimp only
  repeat' split
  all_goals simp

@[simp] theorem State.branchFault_mem (s : State) : (s.branchFault).mem = s.mem := by
  unfold State.branchFault
  repeat' split
  all_goals simp

@[simp] theorem State.settleTrap_mem (s : State) : (s.settleTrap).mem = s.mem := by
  unfold State.settleTrap
  dsimp only
  repeat' split
  all_goals simp

@[simp] theorem State.afterFirst_mem (s : State) : (s.afterFirst).mem = s.mem := by
  simp [State.afterFirst, apply_ite State.mem]

/-! ### Span.lean -/

@[simp] theorem State.spanEmpty_mem (s : State) : (s.spanEmpty).mem = s.mem := (rfl)

@[simp] theorem State.slipCount_mem (s : State) (b : BayIx) (q : Nat) : (s.slipCount b q).mem = s.mem := by
  simp [State.slipCount, apply_ite State.mem]

@[simp] theorem State.slipStep_mem (s : State) : (s.slipStep).mem = s.mem := by
  simp [State.slipStep, apply_ite State.mem]

/-! ### Clock.lean -/

@[simp] theorem State.clock_mem (s : State) : (s.clock).mem = s.mem := by simp [State.clock, apply_ite State.mem]

@[simp] theorem State.vector2_mem (s : State) : (s.vector2).mem = s.mem := by simp [State.vector2, apply_ite State.mem]

@[simp] theorem State.sidePhase_mem (s : State) : (s.sidePhase).mem = s.mem := by
  simp [State.sidePhase, apply_ite State.mem]

@[simp] theorem State.takeSlot_mem (s : State) (w n : Nat) : (s.takeSlot w n).1.mem = s.mem := by
  unfold State.takeSlot
  dsimp only
  repeat' split
  all_goals simp

@[simp] theorem State.takePump_mem (s : State) (w : Nat) (half : Option Nat) : (s.takePump w half).1.mem = s.mem := by
  unfold State.takePump
  split <;> simp

/-! ### Launch.lean -/

@[simp] theorem State.modQueue_mem (s : State) (n : Nat) (f : Queue → Queue) : (s.modQueue n f).mem = s.mem := (rfl)

@[simp] theorem State.modLaunch_mem (s : State) (id : Nat) (f : Launch → Launch) : (s.modLaunch id f).mem = s.mem :=
  (rfl)

@[simp] theorem State.poke_mem (s : State) : (s.poke).mem = s.mem := (rfl)

@[simp] theorem State.kernelQuantum_mem (s : State) : (s.kernelQuantum).mem = s.mem := (rfl)

@[simp] theorem State.loadRota_mem (s : State) (ws : List Word) (t0 : Nat) : (s.loadRota ws t0).mem = s.mem := by
  simp [State.loadRota, apply_ite State.mem]

@[simp] theorem State.runRota_mem (s : State) (l : Launch) : (s.runRota l).mem = s.mem := by
  simp [State.runRota, apply_ite State.mem]

@[simp] theorem State.backRota_mem (s : State) (l : Launch) : (s.backRota l).mem = s.mem := by
  unfold State.backRota
  repeat' split
  all_goals simp

@[simp] theorem State.runKernel_mem (s : State) (va : Nat) : (s.runKernel va).mem = s.mem := (rfl)

@[simp] theorem State.walkerAt_mem (s : State) : (s.walkerAt).mem = s.mem := (rfl)

@[simp] theorem State.beginDie_mem (s : State) (i : Image) : (s.beginDie i).mem = s.mem := by
  simp [State.beginDie, apply_ite State.mem]

@[simp] theorem State.dropLaunch_mem (s : State) (id : Nat) : (s.dropLaunch id).mem = s.mem := (rfl)

@[simp] theorem State.goDies_mem (s : State) (l : Launch) (i : Image) : (s.goDies l i).mem = s.mem := by
  simp [State.goDies]

@[simp] theorem State.askHalt_mem (s : State) (l : Launch) : (s.askHalt l).mem = s.mem := by
  simp [State.askHalt, apply_ite State.mem]

@[simp] theorem State.newSlice_mem (s : State) (id : Nat) : (s.newSlice id).mem = s.mem := (rfl)

@[simp] theorem State.dropColumns_mem (s : State) (ctx : Nat) : (s.dropColumns ctx).mem = s.mem := (rfl)

@[simp] theorem State.failLaunch_mem (s : State) (id status cause : Nat) :
    (s.failLaunch id status cause).mem = s.mem := by
  unfold State.failLaunch
  dsimp only
  repeat' split
  all_goals simp

@[simp] theorem State.reexpand_mem (s : State) : (s.reexpand).mem = s.mem := by
  unfold State.reexpand
  repeat' split
  all_goals simp

@[simp] theorem State.requeue_mem (s : State) : (s.requeue).mem = s.mem := by simp [State.requeue]

@[simp] theorem State.reopenRows_mem (s : State) : (s.reopenRows).mem = s.mem := by
  simp [State.reopenRows, apply_ite State.mem]

/-! ### Loss.lean -/

@[simp] theorem State.failVerb_mem (s : State) (v : Verb) : (s.failVerb v).mem = s.mem := by
  unfold State.failVerb
  dsimp only
  repeat' split
  all_goals simp

@[simp] theorem State.lossTrap_mem (s : State) (pkg die : Nat) : (s.lossTrap pkg die).mem = s.mem := by
  simp [State.lossTrap, apply_ite State.mem]

/-! ### Command.lean -/

@[simp] theorem State.effQueue_mem (s : State) (n : Nat) : (s.effQueue n).mem = s.mem := (rfl)

@[simp] theorem State.applyMap_mem (s : State) : s.applyMap.mem = s.mem := by
  unfold State.applyMap
  refine foldl_mem _ _ fun s x => ?_
  split
  · simp [apply_ite State.mem]
  · rfl

@[simp] theorem State.applyLoss_mem (s : State) : s.applyLoss.mem = s.mem := by
  refine foldl_mem _ _ fun s d => ?_
  split_ifs <;> rfl

@[simp] theorem State.detect_mem (s : State) : (s.detect).mem = s.mem := by simp [State.detect]

@[simp] theorem State.stageFails_mem (s : State) (k : Nat) : (s.stageFails k).mem = s.mem := (rfl)

@[simp] theorem State.setDelays_mem (s : State) (flight : Nat) : (s.setDelays flight).mem = s.mem :=
  s.eachDie_mem fun _ => rfl

@[simp] theorem State.gateAll_mem (s : State) (p : Nat → Bool) (g : Bool) : (s.gateAll p g).mem = s.mem := by
  simp [State.gateAll]

/-! ### Gang.lean -/

@[simp] theorem State.cancelGang_mem (s : State) (l : Launch) : (s.cancelGang l).mem = s.mem :=
  (State.dropLaunch_mem _ _).trans (s.onDies_mem l fun _ => rfl)

@[simp] theorem State.releaseLate_mem (s : State) (id : Nat) : (s.releaseLate id).mem = s.mem :=
  s.eachDie_mem fun _ => rfl

@[simp] theorem State.release_mem (s : State) (id : Nat) : (s.release id).mem = s.mem :=
  s.eachDie_mem fun _ => rfl

@[simp] theorem State.dropHeld_mem (s : State) (id : Nat) : (s.dropHeld id).mem = s.mem :=
  s.eachDie_mem fun _ => rfl

@[simp] theorem State.abortEffects_mem (s : State) (id : Nat) : (s.abortEffects id).mem = s.mem := by
  simp [State.abortEffects, apply_ite State.mem]

@[simp] theorem State.abortDie_mem (s : State) (id : Nat) : (s.abortDie id).mem = s.mem := by
  simp [State.abortDie, apply_ite State.mem]

/-! ### Host.lean -/

@[simp] theorem State.ring_mem (s : State) (q tail : Nat) : (s.ring q tail).mem = s.mem := by simp [State.ring]

@[simp] theorem State.debugWrite_mem (s : State) (kind bay lane ix : Nat) (v : BitVec 256) :
    (s.debugWrite kind bay lane ix v).mem = s.mem := by
  unfold State.debugWrite
  split <;> simp

/-! ### Vector.lean -/

@[simp] theorem State.vecLand_mem (s : State) (b : BayIx) (u : VUnit) (lat : Nat) (d : BitVec 8) (en : BitVec 128)
    (l : List (Word32 × Flags)) : (s.vecLand b u lat d en l).mem = s.mem := by
  unfold State.vecLand
  split <;> simp

/-! ### Walker.lean -/

@[simp] theorem State.walkerHalt_mem (s : State) : (s.walkerHalt).mem = s.mem := (rfl)

end Sys2Proof.Machine

/-!
SUPPORT. The operations that write memory, in the order of the model's files: each keeps every memory in canonical form.
-/

namespace Sys2Proof.Machine

-- The proofs below share the equations of the definitions: elaborated at the same time they only wait for each other,
-- each in a thread of its own.
set_option Elab.async false

/-- A fold of operations that keep the canonical form keeps it. -/
theorem foldl_wf {α : Type} {f : State → α → State} (l : List α) {s : State} (h : s.mem.wf = true)
    (hf : ∀ s a, s.mem.wf = true → (f s a).mem.wf = true) : (l.foldl f s).mem.wf = true :=
  foldl_keeps (P := fun u : State => u.mem.wf = true) l h hf

/-- A fold that gathers something beside the state. -/
theorem foldl_fst_wf {α β : Type} {f : State × β → α → State × β} (l : List α) {x : State × β} (h : x.1.mem.wf = true)
    (hf : ∀ x a, x.1.mem.wf = true → (f x a).1.mem.wf = true) : (l.foldl f x).1.mem.wf = true :=
  foldl_keeps (P := fun u : State × β => u.1.mem.wf = true) l h hf

theorem State.onDie_wf {s : State} (i : DieIx) {f : State → State} (h : s.mem.wf = true)
    (hf : ∀ s, s.mem.wf = true → (f s).mem.wf = true) : (s.onDie i f).mem.wf = true :=
  hf _ h

theorem State.eachDie_wf {s : State} {f : State → State} (h : s.mem.wf = true)
    (hf : ∀ s, s.mem.wf = true → (f s).mem.wf = true) : (s.eachDie f).mem.wf = true :=
  foldl_wf _ h fun _ i hu => State.onDie_wf i hu hf

theorem State.onDies_wf {s : State} (l : Launch) {f : State → State} (h : s.mem.wf = true)
    (hf : ∀ s, s.mem.wf = true → (f s).mem.wf = true) : (s.onDies l f).mem.wf = true :=
  foldl_wf _ h fun _ i hu => State.onDie_wf i hu hf

theorem State.dropping_wf {s : State} (l : List Nat) {f : State → State} (h : s.mem.wf = true)
    (hf : ∀ s, s.mem.wf = true → (f s).mem.wf = true) : (s.dropping l f).mem.wf = true :=
  hf _ h

theorem State.asContext_wf {α : Type} {s : State} (d : DieIx) (n : Nat) {f : State → State × α} (h : s.mem.wf = true)
    (hf : ∀ s, s.mem.wf = true → (f s).1.mem.wf = true) : (s.asContext d n f).1.mem.wf = true :=
  hf _ h

theorem State.copySide_wf {s : State} (r : CopyReq) (all reads : List Nat) {f : State → State} (h : s.mem.wf = true)
    (hf : ∀ s, s.mem.wf = true → (f s).mem.wf = true) : (s.copySide r all reads f).1.mem.wf = true := by
  unfold State.copySide
  split
  · simpa [apply_ite State.mem] using h
  · exact hf _ (by simpa using h)

/-! ### Mem.lean -/

theorem State.tabRead_wf (s : State) (base i size : Nat) (h : s.mem.wf = true) :
    (s.tabRead base i size).mem.wf = true := by
  unfold State.tabRead
  grind [State.decodeWord_wf, foldl_wf]

theorem State.engWrite_wf (s : State) (a : Nat) (bs : List Byte) (h : s.mem.wf = true) :
    (s.engWrite a bs).mem.wf = true := by
  unfold State.engWrite
  grind [State.putBytes_wf]

theorem State.complete_wf (s : State) (dom caddr : Nat) (val : Word) (status : Nat) (h : s.mem.wf = true) :
    (s.complete dom caddr val status).mem.wf = true := by
  unfold State.complete
  grind [State.engWrite_wf, State.modDie_mem]

/-! ### Service.lean -/

theorem State.putRecord_wf (s : State) (first n : Nat) (bs : List Byte) (h : s.mem.wf = true) :
    (s.putRecord first n bs).mem.wf = true := by
  unfold State.putRecord
  grind [State.writeChunk_wf, State.egressBegin_mem]

theorem State.getRecord_wf (s : State) (first n : Nat) (h : s.mem.wf = true) :
    (s.getRecord first n).1.mem.wf = true := by
  unfold State.getRecord
  grind [State.readChunk_wf, State.egressBegin_mem]

/-! ### Window.lean -/

theorem State.dropFor_wf (s : State) (p n : Nat) (h : s.mem.wf = true) : (s.dropFor p n).mem.wf = true := by
  unfold State.dropFor
  grind [State.modCtx_mem, State.setPeer_wf]

theorem State.breakPeer_wf (s : State) (p why : Nat) (h : s.mem.wf = true) : (s.breakPeer p why).mem.wf = true := by
  unfold State.breakPeer
  grind [State.setPeer_wf, State.dropOnWay_mem, State.setEgress_mem, State.modOrd_mem, State.modDie_mem,
    State.setBrk_mem, State.dropFor_wf, State.modCtx_mem, State.postFault_mem, foldl_wf]

theorem State.toEgress_wf (s : State) (x : CbEntry) (c : Copy) (u : RUnit) (h : s.mem.wf = true) :
    (s.toEgress x c u).mem.wf = true := by
  unfold State.toEgress
  grind [State.copyDone_mem, State.putRecord_wf, State.setPeer_wf, State.setEgress_mem, State.breakPeer_wf]

theorem State.stampUnit_wf (s : State) (peers : List Nat) (off addr : Nat) (mask : BitVec 64) (data : BitVec 512)
    (signal : Bool) (h : s.mem.wf = true) : (s.stampUnit peers off addr mask data signal).mem.wf = true := by
  unfold State.stampUnit
  grind [State.tabRead_wf, State.cbPush_mem, State.postFault_mem, State.setBrk_mem, State.dropFor_wf,
    State.modOrd_mem, State.touchDie_mem, State.takeWait_mem, State.onDie_wf, State.whenever_mem, State.breakPeer_wf,
    foldl_wf]

theorem State.closeCombine_wf (s : State) (id : Nat) (h : s.mem.wf = true) : (s.closeCombine id).mem.wf = true := by
  unfold State.closeCombine
  grind [State.tabRead_wf, State.stampUnit_wf, State.modOrd_mem]

theorem State.closeMeeting_wf (s : State) (peers : List Nat) (takes : Combine → Bool) (h : s.mem.wf = true) :
    (s.closeMeeting peers takes).mem.wf = true := by
  unfold State.closeMeeting
  grind [State.closeCombine_wf, foldl_wf]

theorem State.reflect_wf (s : State) (a : Nat) (bs : List Byte) (signal : Bool) (h : s.mem.wf = true) :
    (s.reflect a bs signal).mem.wf = true := by
  unfold State.reflect
  grind [State.tabRead_wf, State.closeMeeting_wf, State.stampUnit_wf, State.modOrd_mem, State.closeCombine_wf,
    State.after_mem]

theorem State.reflectPour_wf (s : State) (a : Nat) (bs : List (Nat × Byte)) (h : s.mem.wf = true) :
    (s.reflectPour a bs).mem.wf = true := by
  unfold State.reflectPour
  grind [State.tabRead_wf, State.stampUnit_wf, State.closeMeeting_wf, foldl_wf]

/-! ### Streams.lean -/

theorem State.drawWord_wf (s : State) (bay : BayIx) (bank word : Nat) (h : s.mem.wf = true) :
    (s.drawWord bay bank word).1.mem.wf = true := by
  unfold State.drawWord
  grind [State.decodeWord_wf]

theorem State.drawWords_wf (s : State) (bay : BayIx) (l : List (Nat × Nat)) (h : s.mem.wf = true) :
    (s.drawWords bay l).1.mem.wf = true := by
  induction l generalizing s with
  | nil => exact h
  | cons x l ih => exact ih _ (State.drawWord_wf _ _ _ _ h)

theorem State.drawBay_wf (s : State) (dstn : Nat) (bay : BayIx) (wrs : List DrawClient) (h : s.mem.wf = true) :
    (s.drawBay dstn bay wrs).1.mem.wf = true := by
  unfold State.drawBay
  grind [State.drawWords_wf, State.launchOne_mem, foldl_wf]

/-! ### Check.lean -/

theorem State.waitRead_wf (s : State) (i : Instr) (h : s.mem.wf = true) : (s.waitRead i).mem.wf = true := by
  unfold State.waitRead
  grind [State.modCtx_mem, State.decodeWord_wf, State.takeSide_mem]

/-! ### Pump.lean -/

theorem State.beginWrite_wf (s : State) (b col : Nat) (h : s.mem.wf = true) : (s.beginWrite b col).mem.wf = true := by
  unfold State.beginWrite
  grind [State.reviveRow_wf, State.countAccess_mem, State.setBank_mem]

theorem State.drawAlone_wf (s : State) (b : BankId) (col : BitVec 5) (caddr : BitVec 32) (h : s.mem.wf = true) :
    (s.drawAlone b col caddr).1.mem.wf = true := by
  unfold State.drawAlone
  grind [State.drawWords_wf]

/-! ### NearMem.lean -/

theorem State.nmcSourceUnit_wf (s : State) (j : NmcJob) (i : Nat) (h : s.mem.wf = true) :
    (s.nmcSourceUnit j i).1.mem.wf = true := by
  unfold State.nmcSourceUnit
  grind [State.decodeWord_wf]

theorem State.nmcDoUnit_wf (s : State) (j : NmcJob) (i : Nat) (h : s.mem.wf = true) :
    (s.nmcDoUnit j i).mem.wf = true := by
  unfold State.nmcDoUnit
  grind [State.dirty_mem, State.writeUnit_wf, State.nmcSourceUnit_wf, State.nmcError_wf, State.readUnit_wf]

theorem State.nmcPerform_wf (s : State) (j : NmcJob) (h : s.mem.wf = true) : (s.nmcPerform j).mem.wf = true := by
  unfold State.nmcPerform
  grind [State.modPump_mem, State.nmcDoUnit_wf, foldl_wf]

theorem State.rdPerform_wf (s : State) (d : RdData) (h : s.mem.wf = true) : (s.rdPerform d).mem.wf = true := by
  unfold State.rdPerform
  grind [State.readUnit_wf, State.modPump_mem, State.modOwner_mem]

theorem State.baseFirst_wf (s : State) (pc n : Nat) (h : s.mem.wf = true) : (s.baseFirst pc n).mem.wf = true := by
  unfold State.baseFirst
  grind [State.rdPerform_wf, State.nmcPerform_wf]

theorem State.baseUpTo_wf (s : State) (pc n : Nat) (h : s.mem.wf = true) : (s.baseUpTo pc n).mem.wf = true := by
  unfold State.baseUpTo
  grind [State.baseFirst_wf, foldl_wf]

/-! ### Fetch.lean -/

theorem State.codeRead_wf (s : State) (va : Nat) (h : s.mem.wf = true) : (s.codeRead va).1.mem.wf = true := by
  unfold State.codeRead
  grind [State.pageLeaf_mem, State.readChunk_wf]

theorem State.codeChunk_wf (s : State) (va : Nat) (h : s.mem.wf = true) : (s.codeChunk va).1.mem.wf = true := by
  unfold State.codeChunk
  grind [State.pageLeaf_mem, State.svcBegin_mem, State.readChunk_wf, State.modCtx_mem]

theorem State.readMore_wf (s : State) (va n : Nat) (r : SegRead) (h : s.mem.wf = true) :
    (s.readMore va n r).1.mem.wf = true := by
  induction n generalizing s r with
  | zero => exact h
  | succ n ih =>
    unfold State.readMore
    grind [State.codeChunk_wf]

theorem State.readTo_wf (s : State) (va off : Nat) (r : SegRead) (h : s.mem.wf = true) :
    (s.readTo va off r).1.mem.wf = true := by
  unfold State.readTo
  grind [State.readMore_wf]

theorem State.readBundles_wf (s : State) (va n off : Nat) (r : SegRead) (l : List (Nat × List Nat))
    (h : s.mem.wf = true) : (s.readBundles va n off r l).1.mem.wf = true := by
  induction n generalizing s off r l with
  | zero => exact h
  | succ n ih =>
    unfold State.readBundles
    grind [State.readTo_wf]

theorem State.readSegment_wf (s : State) (va : Nat) (h : s.mem.wf = true) : (s.readSegment va).1.mem.wf = true := by
  unfold State.readSegment
  grind [State.readTo_wf, State.readBundles_wf]

/-! ### Engine.lean -/

theorem State.copyRead_wf (s : State) (r : CopyReq) (h : s.mem.wf = true) : (s.copyRead r).1.mem.wf = true := by
  unfold State.copyRead
  grind [State.modHead_mem, State.copySide_wf, State.decodeWord_wf]

theorem State.copyWrite_wf (s : State) (r : CopyReq) (bs : List Byte) (bad : Bool) (h : s.mem.wf = true) :
    (s.copyWrite r bs bad).1.mem.wf = true := by
  unfold State.copyWrite
  extract_lets next d a
  have hn : ∀ u, (next u).mem = u.mem := fun u => State.modHead_mem _ _
  split
  · rw [hn]
    exact State.putRes_wf _ _ _ h
  · split
    · rwa [hn]
    · refine State.copySide_wf _ _ _ h fun u hu => ?_
      have hp : (u.putBytes a bs).mem.wf = true := State.putBytes_wf _ _ hu
      rw [hn]
      split
      · exact State.poison_wf _ hp
      · exact hp

/-- What the engine does next for a request, where it does something. -/
theorem State.copyNext_wf (s : State) (r : CopyReq) (h : s.mem.wf = true) :
    ∀ x, s.copyNext r = .inl x → x.1.mem.wf = true := by
  unfold State.copyNext
  grind [State.copyWrite_wf, State.copyRead_wf]

theorem State.copyEnd_wf (s : State) (e : Instr) (r : CopyReq) (st : Nat) {f : State → State} (h : s.mem.wf = true)
    (hf : ∀ s, s.mem.wf = true → (f s).mem.wf = true) : (s.copyEnd e r st f).mem.wf = true := by
  unfold State.copyEnd
  grind [State.after_mem, State.modDie_mem, State.complete_wf, State.takeSide_mem]

theorem State.engineServe_wf (s : State) (e : Instr) (q : CopyReq) {f : CopyReq → State → State} (h : s.mem.wf = true)
    (hf : ∀ r s, s.mem.wf = true → (f r s).mem.wf = true) : (s.engineServe e q f).mem.wf = true := by
  unfold State.engineServe
  split
  · next r l _ =>
    split_ifs
    · refine State.dropping_wf _ h fun u hu => ?_
      have hn := State.copyNext_wf u r hu
      split
      · next hx => simpa using hn _ hx
      · exact State.copyEnd_wf _ _ _ _ hu (hf _)
    · simpa using h
    · exact h
  · exact h

theorem State.pageDone_wf (s : State) (leaf status : Nat) (h : s.mem.wf = true) :
    (s.pageDone leaf status).mem.wf = true := by
  unfold State.pageDone
  grind [State.complete_wf, State.modDie_mem, foldl_wf]

/-! ### Order.lean -/

theorem State.readStates_wf (s : State) (l : List Nat) (h : s.mem.wf = true) : (s.readStates l).1.mem.wf = true := by
  induction l generalizing s with
  | nil => exact h
  | cons w l ih => exact ih _ (State.decodeWord_wf _ _ h)

theorem State.localLoad_wf (s : State) (o : MemOp) (rest : List MemOp) (h : s.mem.wf = true) :
    (s.localLoad o rest).mem.wf = true := by
  unfold State.localLoad
  grind [State.after_mem, State.modCtx_mem, State.readStates_wf, State.takeSide_mem, State.loadFail_mem,
    State.loadValue_mem]

theorem State.loadHead_wf (s : State) (h : s.mem.wf = true) : (s.loadHead).mem.wf = true := by
  unfold State.loadHead
  grind [State.after_mem, State.modCtx_mem, State.unpend_mem, State.loadFail_mem, State.localLoad_wf,
    State.sendVerb_mem]

theorem State.softStore_wf (s : State) (a : Nat) (bs : List Byte) (h : s.mem.wf = true) :
    (s.softStore a bs).mem.wf = true := by
  unfold State.softStore
  split
  · exact State.putBytes_wf _ _ h
  · extract_lets olds u
    refine foldl_wf _ (State.putBytes_wf _ _ h) fun v x hv => ?_
    split
    · extract_lets st
      split
      extract_lets v1 v2
      have h1 : v1.mem.wf = true := State.tabWrite_wf _ _ _ hv
      have h2 : v2.mem.wf = true := by
        unfold v2
        split
        · exact State.breakPeer_wf _ _ _ h1
        · exact h1
      split
      · rwa [State.startEpoch_mem]
      · exact h2
    · exact hv

theorem State.storeAt_wf (s : State) (o : MemOp) (h : s.mem.wf = true) : (s.storeAt o).mem.wf = true := by
  unfold State.storeAt
  grind [State.softStore_wf, State.reflect_wf]

theorem State.localStore_wf (s : State) (o : MemOp) (rest : List MemOp) (h : s.mem.wf = true) :
    (s.localStore o rest).mem.wf = true := by
  unfold State.localStore
  grind [State.after_mem, State.modCtx_mem, State.storeAt_wf, State.markStored_mem, State.takeSide_mem]

theorem State.storeHead_wf (s : State) (h : s.mem.wf = true) : (s.storeHead).mem.wf = true := by
  unfold State.storeHead
  grind [State.after_mem, State.modCtx_mem, State.barCombine_mem, State.dueTrap_mem, State.localStore_wf,
    State.sendVerb_mem]

theorem State.sumpWord_wf (s : State) (src : DieIx) (dom op fmt a : Nat) (vs : List Word32) (h : s.mem.wf = true) :
    (s.sumpWord src dom op fmt a vs).mem.wf = true := by
  unfold State.sumpWord
  grind [State.sumpFlag_mem, State.decodeWord_wf, State.putBytes_wf, State.poison_wf]

/-! ### Sump.lean -/

theorem State.applyTargets_wf (s : State) (g : SumpGroup) (l : List (Nat × List Word32)) (h : s.mem.wf = true) :
    (s.applyTargets g l).1.mem.wf = true := by
  induction l generalizing s g with
  | nil => exact h
  | cons t l ih =>
    unfold State.applyTargets
    grind [State.sumpWord_wf, State.takeSide_mem, State.sendVerb_mem]

theorem State.applyGroup_wf (s : State) (g : SumpGroup) (h : s.mem.wf = true) : (s.applyGroup g).mem.wf = true := by
  unfold State.applyGroup
  grind [State.applyTargets_wf, State.modDie_mem, State.after_mem]

/-! ### Migrate.lean -/

theorem State.setLeaf_wf (s : State) (i : Nat) (fs : List (Nat × Nat × Nat)) (h : s.mem.wf = true) :
    (s.setLeaf i fs).mem.wf = true := by
  unfold State.setLeaf
  grind [State.modDie_mem, State.putBytes_wf, foldl_wf]

theorem State.migrRead_wf (s : State) (m : Migr) (us : List Nat) (h : s.mem.wf = true) :
    (s.migrRead m us).mem.wf = true := by
  unfold State.migrRead
  rw [State.modMigr_mem]
  exact foldl_fst_wf _ h fun x u hx => State.readChunk_wf _ _ _ _ hx

theorem State.migrWrite_wf (s : State) (m : Migr) (n : Nat) (h : s.mem.wf = true) :
    (s.migrWrite m n).mem.wf = true := by
  unfold State.migrWrite
  grind [State.modMigr_mem, State.writeChunk_wf, foldl_wf]

theorem State.migrStep_wf (s : State) (leaf : Nat) (h : s.mem.wf = true) : (s.migrStep leaf).mem.wf = true := by
  unfold State.migrStep
  grind [State.after_mem, State.svcBegin_mem, State.migrWrite_wf, State.migrRead_wf, State.whenever_mem]

theorem State.migrTry_wf (s : State) (m : Migr) (h : s.mem.wf = true) : (s.migrTry m).mem.wf = true := by
  unfold State.migrTry
  grind [State.push_mem, State.setLeaf_wf, State.modMigr_mem]

theorem State.migrations_wf (s : State) (h : s.mem.wf = true) : (s.migrations).mem.wf = true := by
  unfold State.migrations
  grind [State.migrTry_wf, foldl_wf]

theorem State.migrStart_wf (s : State) (i frame tier : Nat) (cmd : Bool) (h : s.mem.wf = true) :
    (s.migrStart i frame tier cmd).mem.wf = true := by
  unfold State.migrStart
  grind [State.pageDone_wf, State.reply_wf, State.whenever_mem, State.modDie_mem, State.setLeaf_wf]

/-! ### Quantum.lean -/

theorem State.publishDue_wf (s : State) (h : s.mem.wf = true) : (s.publishDue).mem.wf = true := by
  unfold State.publishDue
  grind [State.swapGranules_wf, State.modDie_mem, State.modCtx_mem, foldl_wf]

theorem State.putMasked_wf (s : State) (a : Nat) (mask : BitVec 64) (data : BitVec 512) (h : s.mem.wf = true) :
    (s.putMasked a mask data).mem.wf = true := by
  unfold State.putMasked
  grind [State.putWord_wf, foldl_wf]

theorem State.unitCommit_wf (s : State) (u : RUnit) (h : s.mem.wf = true) : (s.unitCommit u).mem.wf = true := by
  unfold State.unitCommit
  grind [State.tabRead_wf, State.ackUnit_mem, State.putMasked_wf, State.modPath_mem, State.modDie_mem]

theorem State.verbCommit_wf (s : State) (v : Verb) (h : s.mem.wf = true) : (s.verbCommit v).mem.wf = true := by
  unfold State.verbCommit
  grind [State.verbDone_mem, State.sumpWord_wf, State.storeAt_wf]

theorem State.verbServe_wf (s : State) (v : Verb) (h : s.mem.wf = true) : (s.verbServe v).mem.wf = true := by
  unfold State.verbServe
  grind [State.verbDone_mem, State.readStates_wf, State.takeWait_mem, State.at_mem]

theorem State.commitOne_wf (s : State) (x : Arrived) (h : s.mem.wf = true) : (s.commitOne x).mem.wf = true := by
  unfold State.commitOne
  grind [State.verbServe_wf, State.verbCommit_wf, State.unitCommit_wf]

theorem State.commitDue_wf (s : State) (h : s.mem.wf = true) : (s.commitDue).mem.wf = true := by
  unfold State.commitDue
  grind [State.modOrd_mem, State.takeSide_mem, State.commitOne_wf, foldl_wf]

/-! ### Fabric.lean -/

theorem State.flitLost_wf (s : State) (g seq : Nat) (h : s.mem.wf = true) : (s.flitLost g seq).mem.wf = true := by
  unfold State.flitLost
  grind [State.after_mem, State.modPath_mem, State.breakPeer_wf]

theorem State.egressStep_wf (s : State) (p : Nat) (h : s.mem.wf = true) : (s.egressStep p).mem.wf = true := by
  unfold State.egressStep
  grind [State.after_mem, State.toEgress_wf]

theorem State.sendRecord_wf (s : State) (p : Nat) (r : EgressRec) (c : Contender) (g : Nat × Nat)
    (h : s.mem.wf = true) : (s.sendRecord p r c g).mem.wf = true := by
  unfold State.sendRecord
  grind [State.getRecord_wf, State.launchFlit_mem, State.setPeer_wf, State.setEgress_mem]

theorem State.drainEgress_wf (s : State) (p n : Nat) (h : s.mem.wf = true) : (s.drainEgress p n).mem.wf = true := by
  induction n generalizing s with
  | zero => exact h
  | succ n ih =>
    unfold State.drainEgress
    grind [State.setPeer_wf, State.breakPeer_wf, State.sendRecord_wf, State.sendEntries_mem]

theorem State.loseFlit_wf (s : State) (f : Flight) (h : s.mem.wf = true) : (s.loseFlit f).mem.wf = true := by
  unfold State.loseFlit
  grind [State.onDie_wf, State.flitLost_wf, State.syncFlit_mem, State.modPath_mem]

/-! ### Landing.lean -/

theorem State.leafLost_wf (s : State) (a : Nat) (h : s.mem.wf = true) : (s.leafLost a).mem.wf = true := by
  unfold State.leafLost
  grind [State.putWord_wf]

theorem State.landResult_wf (s : State) (r : Result) (h : s.mem.wf = true) : (s.landResult r).mem.wf = true := by
  unfold State.landResult
  grind [State.setFlags_mem, State.modCtx_mem, State.modBay_mem, State.present_mem, State.presentLanes_mem,
    State.bindStream_mem, State.unbind_mem, State.modStr_mem, State.drainStream_mem, State.modMxu_mem,
    State.mxHoldStep_mem, State.leafLost_wf, foldl_wf]

/-- The marks of a pour change no more than the maps of poison and of bad values. -/
theorem State.pourMarks_wf (s : State) (w : Nat) (pz nr : Bool) (h : s.mem.wf = true) :
    (s.modMem fun m => { m with
      pz := if pz then SMap.put false m.pz w true else m.pz
      nr := if nr then SMap.put false m.nr w true else m.nr }).mem.wf = true := by
  have hm := Mem.wf_iff.1 h
  obtain ⟨⟨hc, hp, hn, he, -⟩, -⟩ := hm
  refine Mem.wf_cistern h hc ?_ ?_ he
  · cases pz
    · exact hp
    · exact SMap.put_wf _ _ hp
  · cases nr
    · exact hn
    · exact SMap.put_wf _ _ hn

theorem State.pourBank_wf (s : State) (bay : BayIx) (bank : Nat) (ls : List (Nat × Nat × PourLane))
    (h : s.mem.wf = true) : (s.pourBank bay bank ls).mem.wf = true := by
  unfold State.pourBank
  split
  · exact h
  · extract_lets a all side whole bs tx u pz nr v
    have hu : u.mem.wf = true := by
      unfold u
      split_ifs
      · exact h
      · exact State.putWord_wf _ _ _ h
    have hv : v.mem.wf = true := by
      unfold v
      split
      · exact hu
      · exact State.pourMarks_wf u _ _ _ hu
    split_ifs
    · exact State.reflectPour_wf _ _ _ hv
    · exact hv

/-! ### Stencil.lean -/

theorem State.sideWord_wf (s : State) (a : Nat) (h : s.mem.wf = true) : (s.sideWord a).1.mem.wf = true := by
  unfold State.sideWord
  grind [State.decodeWord_wf, State.takeSide_mem]

theorem State.cutReads_wf (s : State) (h : s.mem.wf = true) : (s.cutReads).mem.wf = true := by
  unfold State.cutReads
  grind [State.sideWord_wf, State.modCtx_mem]

theorem State.ldReads_wf (s : State) (x : LdJob × Nat) (h : s.mem.wf = true) : (s.ldReads x).mem.wf = true := by
  unfold State.ldReads
  grind [State.sideWord_wf, State.modCtx_mem]

theorem State.stencilReads_wf (s : State) (h : s.mem.wf = true) : (s.stencilReads).mem.wf = true := by
  unfold State.stencilReads
  grind [State.ldReads_wf, State.cutReads_wf, foldl_wf]

/-! ### Seq.lean -/

theorem State.tryIssue_wf (s : State) (h : s.mem.wf = true) : (s.tryIssue).mem.wf = true := by
  unfold State.tryIssue
  grind [State.modCtx_mem, State.haltNow_mem, State.closeIdleGroups_mem, State.raise_mem, State.waitRead_wf,
    State.startWait_mem, State.stall_mem, State.drainFor_mem, State.modOrd_mem, State.slotReport_mem,
    State.lastChecks_mem, foldl_wf]

theorem State.attempt_wf (n : Nat) (s : State) (h : s.mem.wf = true) : (State.attempt n s).mem.wf = true := by
  induction n generalizing s with
  | zero => exact h
  | succ n ih =>
    have hf := (State.follow_mem 8 s).symm ▸ h
    unfold State.attempt
    split_ifs
    · simpa using h
    · split
      · next u hu => rwa [hu] at hf
      · next u hu =>
        rw [hu] at hf
        simpa using hf
      · next u hu =>
        rw [hu] at hf
        grind [State.tryIssue_wf, State.passRemoved_mem, State.raise_mem, State.modCtx_mem]

theorem State.drawAll_wf (s : State) (launch : Bool) (cmds : List Instr) (h : s.mem.wf = true) :
    (s.drawAll launch cmds).1.mem.wf = true := by
  unfold State.drawAll
  refine foldl_fst_wf _ h fun x b hx => ?_
  dsimp only
  split_ifs
  · exact State.drawBay_wf _ _ _ _ hx
  · exact hx

theorem State.drawPhase_wf (s : State) (launch : Bool) (h : s.mem.wf = true) : (s.drawPhase launch).mem.wf = true := by
  unfold State.drawPhase
  grind [State.drawAll_wf, State.push_mem]

theorem State.logEvent_wf (s : State) (x : Nat × Nat × Nat) (h : s.mem.wf = true) : (s.logEvent x).mem.wf = true := by
  unfold State.logEvent
  grind [State.modErr_mem, State.tabWrite_wf]

theorem State.endErr_wf (s : State) (h : s.mem.wf = true) : (s.endErr).mem.wf = true := by
  unfold State.endErr
  grind [State.logEvent_wf, State.modErr_mem, foldl_wf]

theorem State.retireCycle_wf (s : State) (h : s.mem.wf = true) : (s.retireCycle).mem.wf = true := by
  unfold State.retireCycle
  grind [State.afterFirst_mem, State.modCtx_mem, State.endErr_wf, State.pumpSettle_mem, State.push_mem]

/-! ### Clock.lean -/

theorem State.ringTask_wf (s : State) (h : s.mem.wf = true) : (s.ringTask).1.mem.wf = true := by
  unfold State.ringTask
  grind [State.modHost_mem, State.reply_wf]

theorem State.tick_wf (s : State) (h : s.mem.wf = true) : (s.tick).mem.wf = true := by
  unfold State.tick
  grind [State.vector2_mem, State.clock_mem, State.noteReach_mem, State.ringTask_wf]

theorem State.agentPhase_wf (s : State) (h : s.mem.wf = true) : (s.agentPhase).mem.wf = true := by
  unfold State.agentPhase
  grind [State.fillPhase_mem, State.slipStep_mem, State.idleStep_mem, State.stageStep_mem, State.stencilReads_wf,
    State.setPoints_mem]

theorem State.takeCommand_wf (s : State) (ws : List Nat) (h : s.mem.wf = true) :
    (s.takeCommand ws).1.mem.wf = true := by
  unfold State.takeCommand
  grind [State.reply_wf]

theorem State.take_wf (s : State) (h : s.mem.wf = true) : (s.take).1.mem.wf = true := by
  unfold State.take
  grind [State.tick_wf, State.takeSlot_mem, State.takePump_mem, State.takeCommand_wf, State.turn_mem,
    State.drawPhase_wf, State.sidePhase_mem, State.agentPhase_wf, State.landNow_mem, State.retireCycle_wf]

/-! ### Image.lean -/

theorem State.vaChunks_wf (s : State) (va n : Nat) (l : List Byte) (p : Bool) (h : s.mem.wf = true) :
    (s.vaChunks va n l p).1.mem.wf = true := by
  induction n generalizing s va l p with
  | zero => exact h
  | succ n ih =>
    unfold State.vaChunks
    grind [State.codeRead_wf]

theorem State.vaTry_wf (s : State) (va n : Nat) (h : s.mem.wf = true) : (s.vaTry va n).1.mem.wf = true := by
  unfold State.vaTry
  grind [State.vaChunks_wf]

theorem State.vaBytes_wf (s : State) (va n : Nat) (h : s.mem.wf = true) : (s.vaBytes va n).1.mem.wf = true := by
  unfold State.vaBytes
  grind [State.vaTry_wf]

theorem State.vaWords_wf (s : State) (va n : Nat) (h : s.mem.wf = true) : (s.vaWords va n).1.mem.wf = true := by
  unfold State.vaWords
  grind [State.vaBytes_wf]

theorem State.headAt_wf (s : State) (ctx va : Nat) (l : List DieIx) (h : s.mem.wf = true) :
    (s.headAt ctx va l).1.mem.wf = true := by
  induction l generalizing s with
  | nil => exact h
  | cons d l ih =>
    have hv := State.asContext_wf d ctx h fun u hu => State.vaWords_wf u va 8 hu
    unfold State.headAt
    grind

theorem State.headOf_wf (s : State) (n : Nat) (q : Queue) (h : s.mem.wf = true) : (s.headOf n q).1.mem.wf = true := by
  unfold State.headOf
  grind [State.headAt_wf]

theorem State.readData_wf (s : State) (n va : Nat) (l : List DataRec) (h : s.mem.wf = true) :
    (s.readData n va l).1.mem.wf = true := by
  induction n generalizing s va l with
  | zero => exact h
  | succ n ih =>
    unfold State.readData
    grind [State.vaTry_wf]

theorem State.foldl_engWrite_wf {α : Type} (l : List α) {s : State} (a : α → Nat) (b : α → List Byte)
    (h : s.mem.wf = true) : (l.foldl (fun s k => s.engWrite (a k) (b k)) s).mem.wf = true :=
  foldl_wf l h fun _ _ hu => State.engWrite_wf _ _ _ hu

theorem State.dataWrite_wf (s : State) (x : DataRec) (h : s.mem.wf = true) : (s.dataWrite x).mem.wf = true := by
  unfold State.dataWrite
  exact State.foldl_engWrite_wf _ _ _ (State.engWrite_wf _ _ _ h)

theorem State.readSpan_wf (s : State) (va : Nat) (r : Rect) (h : s.mem.wf = true) :
    (s.readSpan va r).1.mem.wf = true := by
  unfold State.readSpan
  grind [State.vaWords_wf]

theorem State.readRota_wf (s : State) (va : Nat) (r : Rect) (h : s.mem.wf = true) :
    (s.readRota va r).1.mem.wf = true := by
  unfold State.readRota
  grind [State.vaWords_wf, State.vaBytes_wf]

theorem State.readLoads_wf (s : State) (va : Nat) (i : Image) (r : Rect) (dom : Nat) (h : s.mem.wf = true) :
    (s.readLoads va i r dom).1.mem.wf = true := by
  unfold State.readLoads
  grind [State.vaWords_wf, State.readData_wf, State.readSpan_wf, State.readRota_wf]

theorem State.launchLoads_wf (s : State) (q : Queue) (va : Nat) (d : DieIx) (i : Image) (r : Rect)
    (h : s.mem.wf = true) : (s.launchLoads q va d i r).1.mem.wf = true := by
  unfold State.launchLoads
  dsimp only
  split_ifs
  · exact h
  · exact State.asContext_wf _ _ h fun u hu => State.readLoads_wf _ _ _ _ _ hu

/-! ### Launch.lean -/

theorem State.deadlineOf_wf (s : State) (n e : Nat) (h : s.mem.wf = true) : (s.deadlineOf n e).1.mem.wf = true := by
  unfold State.deadlineOf
  grind [State.headOf_wf]

theorem State.enqueueAt_wf (s : State) (n e : Nat) (h : s.mem.wf = true) : (s.enqueueAt n e).mem.wf = true := by
  unfold State.enqueueAt
  grind [State.deadlineOf_wf, State.modQueue_mem]

theorem State.enqueueHead_wf (s : State) (n : Nat) (h : s.mem.wf = true) : (s.enqueueHead n).mem.wf = true := by
  unfold State.enqueueHead
  grind [State.enqueueAt_wf]

theorem State.observeQueue_wf (s : State) (n : Nat) (h : s.mem.wf = true) : (s.observeQueue n).mem.wf = true := by
  unfold State.observeQueue
  grind [State.modQueue_mem, State.postFault_mem, State.enqueueHead_wf]

theorem State.observe_wf (s : State) (h : s.mem.wf = true) : (s.observe).mem.wf = true := by
  unfold State.observe
  grind [State.observeQueue_wf, foldl_wf]

theorem State.completeRecord_wf (s : State) (n status code cause : Nat) (write : Bool) (h : s.mem.wf = true) :
    (s.completeRecord n status code cause write).mem.wf = true := by
  unfold State.completeRecord
  grind [State.modHost_mem, State.resPut_wf, State.modQueue_mem, State.poke_mem, State.enqueueHead_wf]

theorem State.unmapLost_wf (s : State) (h : s.mem.wf = true) : (s.unmapLost).mem.wf = true := by
  unfold State.unmapLost
  grind [State.setGran_wf, foldl_wf]

theorem State.setUpDie_wf (s : State) (l : Launch) (i : Image) (x : Loads) (h : s.mem.wf = true) :
    (s.setUpDie l i x).mem.wf = true := by
  unfold State.setUpDie
  grind [State.modCtx_mem, State.setDomain_mem, State.kernelQuantum_mem, State.modDie_mem, State.unmapLost_wf,
    State.dataWrite_wf, foldl_wf]

theorem State.launchImage_wf (s : State) (l : Launch) (h : s.mem.wf = true) : (s.launchImage l).1.mem.wf = true := by
  unfold State.launchImage
  grind [State.headAt_wf, State.launchLoads_wf]

theorem State.setUp_wf (s : State) (l : Launch) (h : s.mem.wf = true) : (s.setUp l).mem.wf = true := by
  unfold State.setUp
  grind [State.launchImage_wf, State.completeRecord_wf, State.dropLaunch_mem, State.onDies_wf, State.setUpDie_wf,
    State.loadRota_mem, State.modCtx_mem, State.push_mem, State.modLaunch_mem, State.goDies_mem]

theorem State.startReady_wf (s : State) (h : s.mem.wf = true) : (s.startReady).mem.wf = true := by
  unfold State.startReady
  grind [State.takeWait_mem, State.modLaunch_mem, State.at_mem, State.setUp_wf, foldl_wf]

theorem State.preempt_wf (s : State) (l : Launch) (h : s.mem.wf = true) : (s.preempt l).mem.wf = true := by
  unfold State.preempt
  grind [State.modLaunch_mem, State.dropLaunch_mem, State.askHalt_mem, State.enqueueAt_wf]

theorem State.preemptOn_wf (s : State) (id : Nat) (dies : List Nat) (h : s.mem.wf = true) :
    (s.preemptOn id dies).mem.wf = true := by
  unfold State.preemptOn
  grind [State.preempt_wf, foldl_wf]

theorem State.grant_wf (s : State) (n : Nat) (r : Rect) (va : Nat) (i : Image) (id t0 : Nat) (coord : Bool)
    (h : s.mem.wf = true) : (s.grant n r va i id t0 coord).mem.wf = true := by
  unfold State.grant
  grind [State.modDisp_mem, State.modCtxDesc_mem, State.newSlice_mem, State.preemptOn_wf, foldl_wf]

theorem State.grantOwn_wf (s : State) (n : Nat) (r : Rect) (va : Nat) (i : Image) (h : s.mem.wf = true) :
    (s.grantOwn n r va i).mem.wf = true := by
  unfold State.grantOwn
  grind [State.grant_wf, State.modDisp_mem, State.at_mem]

theorem State.seek_wf (s : State) (taken : List Nat) (n : Nat) (h : s.mem.wf = true) :
    (s.seek taken n).1.mem.wf = true := by
  unfold State.seek
  grind [State.newSlice_mem, State.preemptOn_wf, State.modLaunch_mem, State.headOf_wf, State.completeRecord_wf,
    State.launchLoads_wf, State.grantOwn_wf]

theorem State.dispatch_wf (s : State) (h : s.mem.wf = true) : s.dispatch.mem.wf = true := by
  unfold State.dispatch
  split_ifs
  · exact h
  · exact State.startReady_wf _ (foldl_fst_wf _ (State.observe_wf _ h) fun x n hx => State.seek_wf _ _ _ hx)

theorem State.clearOwn_wf (s : State) (dom : Nat) (h : s.mem.wf = true) : (s.clearOwn dom).mem.wf = true := by
  unfold State.clearOwn
  grind [State.zeroGranule_wf, foldl_wf]

theorem State.recover_wf (s : State) (n : Nat) (h : s.mem.wf = true) : (s.recover n).mem.wf = true := by
  unfold State.recover
  grind [State.completeRecord_wf, State.poke_mem, State.modQueue_mem]

theorem State.endFault_wf (s : State) (l : Launch) (status cause : Nat) (h : s.mem.wf = true) :
    (s.endFault l status cause).mem.wf = true := by
  unfold State.endFault
  grind [State.onDies_wf, State.dropColumns_mem, State.clearOwn_wf, State.modDie_mem, State.dropLaunch_mem,
    State.recover_wf, State.completeRecord_wf]

theorem State.endLaunch_wf (s : State) (l : Launch) (h : s.mem.wf = true) : (s.endLaunch l).mem.wf = true := by
  unfold State.endLaunch
  grind [State.modFab_mem, State.endFault_wf, State.completeRecord_wf, State.dropLaunch_mem]

theorem State.endCheck_wf (s : State) (id : Nat) (h : s.mem.wf = true) : (s.endCheck id).mem.wf = true := by
  unfold State.endCheck
  grind [State.endLaunch_wf]

theorem State.partEnded_wf (s : State) (id pkg : Nat) (h : s.mem.wf = true) : (s.partEnded id pkg).mem.wf = true := by
  unfold State.partEnded
  grind [State.endCheck_wf, State.modLaunch_mem]

theorem State.writeSave_wf (s : State) (d : CtxDesc) (granules : Nat) (h : s.mem.wf = true) :
    (s.writeSave d granules).mem.wf = true := by
  unfold State.writeSave
  grind [State.writeChunk_wf, foldl_wf]

theorem State.saveDie_wf (s : State) (h : s.mem.wf = true) : (s.saveDie).1.mem.wf = true := by
  unfold State.saveDie
  grind [State.writeSave_wf, State.modPump_mem, State.zeroGranule_wf, State.modDie_mem, foldl_wf]

theorem State.saveInto_wf (s : State) (id : Nat) (h : s.mem.wf = true) : (s.saveInto id).mem.wf = true := by
  unfold State.saveInto
  grind [State.saveDie_wf, State.modLaunch_mem]

theorem State.haltCheck_wf (s : State) (id : Nat) (h : s.mem.wf = true) : (s.haltCheck id).mem.wf = true := by
  unfold State.haltCheck
  split
  · exact h
  · next l _ =>
    have hs : ((s.aliveOf l).foldl (fun s d => s.onDie d fun s => s.saveInto id) s).mem.wf = true :=
      foldl_wf _ h fun u d hu => State.onDie_wf d hu fun v hv => State.saveInto_wf v id hv
    dsimp only
    generalize (s.aliveOf l).foldl (fun s d => s.onDie d fun s => s.saveInto id) s = u at hs
    have hl : (((u.launch id).map u.endLaunch).getD u).mem.wf = true := by
      cases u.launch id with
      | none => exact hs
      | some l => exact State.endLaunch_wf u l hs
    repeat' split
    all_goals grind [State.endLaunch_wf, State.partEnded_wf, State.onDie_mem, State.after_mem, State.takeWait_mem,
      State.at_mem]

theorem State.dieDone_wf (s : State) (id : Nat) (h : s.mem.wf = true) : (s.dieDone id).mem.wf = true := by
  unfold State.dieDone
  grind [State.haltCheck_wf, State.modLaunch_mem]

/-- The bytes and marks that were saved are written back one by one. -/
theorem State.restoreCells_wf (s : State) (x : Saved) (h : s.mem.wf = true) :
    (s.modMem fun m => { m with
      cistern := x.cells.foldl (fun c y => SMap.put 0 c y.1 y.2) m.cistern
      pz := x.hidden.1.foldl (fun z y => SMap.put false z y.1 y.2) m.pz
      nr := x.hidden.2.foldl (fun z y => SMap.put false z y.1 y.2) m.nr
      ecc := x.ecc.foldl (fun z y => SMap.put .ok z y.1 y.2) m.ecc }).mem.wf = true := by
  obtain ⟨⟨hc, hp, hn, he, -⟩, -⟩ := Mem.wf_iff.1 h
  exact Mem.wf_cistern h (foldl_keeps (P := fun m => SMap.wf 0 m = true) _ hc fun _ _ hb => SMap.put_wf _ _ hb)
    (foldl_keeps (P := fun m => SMap.wf false m = true) _ hp fun _ _ hb => SMap.put_wf _ _ hb)
    (foldl_keeps (P := fun m => SMap.wf false m = true) _ hn fun _ _ hb => SMap.put_wf _ _ hb)
    (foldl_keeps (P := fun m => SMap.wf EccSt.ok m = true) _ he fun _ _ hb => SMap.put_wf _ _ hb)

theorem State.restoreDie_wf (s : State) (l : Launch) (x : Saved) (h : s.mem.wf = true) :
    (s.restoreDie l x).mem.wf = true := by
  unfold State.restoreDie
  extract_lets d cut lds u1 u2 u3 u4 c u5 u6 u7
  have h3 : u3.mem = s.mem := foldl_mem _ _ fun _ _ => rfl
  have h4 : u4.mem = u3.mem := foldl_mem _ _ fun _ _ => rfl
  have h5 : u5.mem.wf = true := by
    unfold u5
    rwa [State.modDie_mem, h4, h3]
  have h7 : u7.mem.wf = true := by
    unfold u7
    rw [State.reopenRows_mem, State.requeue_mem]
    exact State.restoreCells_wf u5 x h5
  split_ifs
  · exact h7
  · simpa using h7
  · simpa using h7

/-! ### Loss.lean -/

theorem State.feelLoss_wf (s : State) (pkg die : Nat) (h : s.mem.wf = true) : (s.feelLoss pkg die).mem.wf = true := by
  unfold State.feelLoss
  grind [State.failVerb_mem, State.breakPeer_wf, State.modOrd_mem, foldl_wf]

theorem State.loseLaunch_wf (s : State) (l : Launch) (pkg die : Nat) (h : s.mem.wf = true) :
    (s.loseLaunch l pkg die).mem.wf = true := by
  unfold State.loseLaunch
  grind [State.modLaunch_mem, State.haltCheck_wf, State.onDie_wf, State.lossTrap_mem, State.endFault_wf, foldl_wf]

theorem State.dieGone_wf (s : State) (pkg die : Nat) (h : s.mem.wf = true) : (s.dieGone pkg die).mem.wf = true := by
  unfold State.dieGone
  grind [State.eachDie_wf, State.feelLoss_wf, State.loseLaunch_wf, foldl_wf]

/-- A part of the cistern and a part of the stack are cleared, with all that is marked there. -/
theorem State.clearParts_wf (s : State) (a b c d x y z w : Nat) (h : s.mem.wf = true) :
    (s.modMem fun m => { m with
      cistern := SMap.clearRange m.cistern a b, pz := SMap.clearRange m.pz c d, nr := SMap.clearRange m.nr c d
      ecc := SMap.clearRange m.ecc c d, hbm := SMap.clearRange m.hbm x y, hbmPz := SMap.clearRange m.hbmPz z w
      hbmErr := SMap.clearRange m.hbmErr z w }).mem.wf = true := by
  obtain ⟨⟨hc, hp, hn, he, hk⟩, ⟨hx, hz, hr⟩, hres⟩ := Mem.wf_iff.1 h
  exact Mem.wf_iff.2 ⟨⟨SMap.clearRange_wf _ _ hc, SMap.clearRange_wf _ _ hp, SMap.clearRange_wf _ _ hn,
    SMap.clearRange_wf _ _ he, hk⟩,
    ⟨SMap.clearRange_wf _ _ hx, SMap.clearRange_wf _ _ hz, SMap.clearRange_wf _ _ hr⟩, hres⟩

theorem State.declareLost_wf (s : State) (h : s.mem.wf = true) : s.declareLost.mem.wf = true := by
  unfold State.declareLost
  extract_lets d u1 u2 keep lo hb ub
  split
  · exact h
  · have hw : u2.takeWait.2.mem = s.mem := u2.takeWait_mem
    generalize u2.takeWait = p at hw
    obtain ⟨w, v⟩ := p
    dsimp -zeta only
    extract_lets u4 u5 u6 u7
    have h6 : u6.mem = s.mem := by
      unfold u6
      rw [State.setDie_mem]
      exact hw
    exact State.dieGone_wf _ _ _ (State.clearParts_wf u6 _ _ _ _ _ _ _ _ (h6 ▸ h))

theorem State.loseDie_wf (s : State) (d : DieIx) (h : s.mem.wf = true) : (s.loseDie d).mem.wf = true := by
  unfold State.loseDie
  grind [State.dispatch_wf, State.onDie_wf, State.declareLost_wf]

theorem State.repeatRecoveries_wf (s : State) (h : s.mem.wf = true) : (s.repeatRecoveries).mem.wf = true := by
  unfold State.repeatRecoveries
  grind [State.recover_wf, foldl_wf]

/-! ### Command.lean -/

theorem State.served_wf (s : State) {f : State → State} (h : s.mem.wf = true)
    (hf : ∀ s, s.mem.wf = true → (f s).mem.wf = true) : (s.served f).mem.wf = true := by
  unfold State.served
  split_ifs
  · exact State.reply_wf _ _ h
  · exact hf _ h

theorem State.foldl_setGran_wf {α : Type} (l : List α) {s : State} (d g e : State → α → Nat) (h : s.mem.wf = true) :
    (l.foldl (fun s k => s.setGran (d s k) (g s k) (e s k)) s).mem.wf = true :=
  foldl_wf l h fun _ _ hu => State.setGran_wf _ _ _ hu

theorem State.setFree_mem (s : State) (n : Nat) : ({ s with free := n } : State).mem = s.mem := rfl

theorem State.writeTables_wf (s : State) (h : s.mem.wf = true) : s.writeTables.mem.wf = true := by
  generalize hx : s.writeTables = x
  unfold State.writeTables at hx
  extract_lets u v w at hx
  have hu : u.mem.wf = true := State.foldl_setGran_wf _ _ _ _ h
  have hw : w.mem.wf = true := State.unmapLost_wf u hu
  rw [← hx, State.modCtx_mem, State.setFree_mem]
  exact hw

theorem State.stage_wf (s : State) (k : Nat) (h : s.mem.wf = true) : (s.stage k).mem.wf = true := by
  unfold State.stage
  grind [State.modHost_mem, State.at_mem, State.detect_mem, State.eachDie_wf, State.modPump_mem, State.applyLoss_mem,
    State.applyMap_mem, State.writeTables_wf, State.after_mem, State.setPoints_mem, foldl_wf]

theorem State.bringUpFrom5_wf (s : State) (fails : Option Nat) (h : s.mem.wf = true) :
    (s.bringUpFrom5 fails).mem.wf = true := by
  unfold State.bringUpFrom5
  grind [State.stageFails_mem, State.stage_wf, State.poke_mem, State.modHost_mem]

theorem State.bringUp_wf (s : State) (fails : Option Nat) (h : s.mem.wf = true) : (s.bringUp fails).mem.wf = true := by
  unfold State.bringUp
  grind [State.stageFails_mem, State.stage_wf, State.bringUpFrom5_wf]

theorem State.restartBringUp_wf (s : State) (h : s.mem.wf = true) : (s.restartBringUp).mem.wf = true := by
  unfold State.restartBringUp
  grind [State.bringUpFrom5_wf]

/-! ### Walker.lean -/

theorem State.walkWord_wf (s : State) (a : Nat) (h : s.mem.wf = true) : (s.walkWord a).1.mem.wf = true := by
  unfold State.walkWord
  grind [State.decodeWord_wf]

theorem State.node_wf (s : State) (kind : Nat) (h : s.mem.wf = true) : (s.node kind).1.mem.wf = true := by
  unfold State.node
  dsimp only
  exact foldl_fst_wf _ h fun x k hx => State.walkWord_wf _ _ hx

theorem State.nodeCond_wf (s : State) (ws : List Nat) (h : s.mem.wf = true) : (s.nodeCond ws).1.mem.wf = true := by
  unfold State.nodeCond
  grind [State.walkWord_wf]

theorem State.partDone_wf (s : State) (h : s.mem.wf = true) : (s.partDone).mem.wf = true := by
  unfold State.partDone
  grind [State.dispatch_wf, State.dieDone_wf]

theorem State.walkerError_wf (s : State) (h : s.mem.wf = true) : (s.walkerError).mem.wf = true := by
  unfold State.walkerError
  grind [State.partDone_wf, State.failLaunch_mem]

theorem State.walkerTo_wf (s : State) (n : Nat) (h : s.mem.wf = true) : (s.walkerTo n).mem.wf = true := by
  unfold State.walkerTo
  grind [State.partDone_wf, State.modCtx_mem, State.walkerHalt_mem, State.walkerAt_mem]

theorem State.kernelEnd_wf (s : State) (h : s.mem.wf = true) : (s.kernelEnd).mem.wf = true := by
  unfold State.kernelEnd
  grind [State.closeGroups_mem, State.modDie_mem, State.modLaunch_mem, State.partDone_wf, State.push_mem]

end Sys2Proof.Machine

/-!
SUPPORT. Each instruction keeps the memories in canonical form: first the shapes that the slots of one kind share, then
the instructions in the order of the model's files, then `exec` and `step`.
-/

namespace Sys2Proof.Machine

-- The proofs below share the equations of the definitions: elaborated at the same time they only wait for each other,
-- each in a thread of its own.
set_option Elab.async false

/-- What an outcome leaves, if it leaves a state, has its memories in canonical form. -/
def LeavesWf (o : Host.Outcome State Fault Refusal) : Prop := ∀ t, o = .next t → t.mem.wf = true

@[simp] theorem leavesWf_next {t : State} : LeavesWf (.next t) ↔ t.mem.wf = true := by simp [LeavesWf]

@[simp] theorem leavesWf_fault (r : Fault) : LeavesWf (.fault r) := by simp [LeavesWf]

@[simp] theorem leavesWf_refused (r : Refusal) : LeavesWf (.refused r) := by simp [LeavesWf]

/-- A slot keeps the form where its effect does. -/
theorem slotRun_wf {i : Instr} {s : State} {eff : State → State} (h : s.mem.wf = true)
    (he : ∀ s, s.mem.wf = true → (eff s).mem.wf = true) : LeavesWf (slotRun i s eff) := by
  unfold slotRun
  have hw : ((s.startWait i).waitRead i).mem.wf = true := State.waitRead_wf _ i (by simpa using h)
  split
  · simpa using he s h
  · dsimp only
    generalize (s.startWait i).waitRead i = u at hw
    split
    · simpa using hw
    · split
      · simpa using hw
      · split
        · simpa using hw
        · simpa using he u hw

/-- A slot whose effect touches no memory. -/
theorem slotRun_wf_of_mem {i : Instr} {s : State} {eff : State → State} (h : s.mem.wf = true)
    (he : ∀ s, (eff s).mem = s.mem) : LeavesWf (slotRun i s eff) :=
  slotRun_wf h fun s hs => (he s).symm ▸ hs

theorem cmdRun_wf {i : Instr} {s : State} {eff : State → State} (h : s.mem.wf = true)
    (he : ∀ s, s.mem.wf = true → (eff s).mem.wf = true) : LeavesWf (cmdRun i s eff) := by
  unfold cmdRun
  dsimp only
  split
  · simpa using he s h
  · split
    · simpa using h
    · simpa using he s h

theorem aluSlot_wf {i : Instr} {d : BitVec 6} {v : State → Word} {s : State} (h : s.mem.wf = true) :
    LeavesWf (aluSlot i d v s) :=
  slotRun_wf_of_mem h fun _ => State.wsLater_mem ..

theorem mulSlot_wf {i : Instr} {d : BitVec 6} {v : State → Word} {s : State} (h : s.mem.wf = true) :
    LeavesWf (mulSlot i d v s) :=
  slotRun_wf_of_mem h fun _ => State.wsLater_mem ..

theorem cmpSlot_wf {i : Instr} {pd pn : BitVec 4} {c : State → Bool} {s : State} (h : s.mem.wf = true) :
    LeavesWf (cmpSlot i pd pn c s) :=
  slotRun_wf_of_mem h fun _ => by simp

theorem predSlot_wf {i : Instr} {o : POp} {f : Bool → Bool → Bool} {s : State} (h : s.mem.wf = true) :
    LeavesWf (predSlot i o f s) :=
  slotRun_wf_of_mem h fun _ => State.wpLater_mem ..

theorem fpSlot_wf {i : Instr} {d : BitVec 6} {v : State → Nat × Flags} {s : State} (h : s.mem.wf = true) :
    LeavesWf (fpSlot i d v s) :=
  slotRun_wf_of_mem h fun _ => State.wsLater_mem ..

theorem loadSlot_wf {i : Instr} {k : MemKind} {o : MOp} {s : State} (h : s.mem.wf = true) :
    LeavesWf (loadSlot i k o s) :=
  slotRun_wf_of_mem h fun _ => by simp

theorem sumpSlot_wf {i : Instr} {op fmt : Nat} {bays : Bays} {qi : BitVec 5} {qv : Option (BitVec 5)} {s : State}
    (h : s.mem.wf = true) : LeavesWf (sumpSlot i op fmt bays qi qv s) :=
  slotRun_wf_of_mem h fun _ => by
    rw [State.eatAll_mem]
    exact foldl_mem _ _ fun _ _ => by simp [apply_ite State.mem]

theorem scanSlot_wf {i : Instr} {opc : Nat} {flags : Bool} {bays : Bays} {o : ScOp} {s : State} (h : s.mem.wf = true) :
    LeavesWf (scanSlot i opc flags bays o s) :=
  slotRun_wf_of_mem h fun _ => by
    rw [State.eatAll_mem]
    exact foldl_mem _ _ fun _ _ => by simp

theorem vecSlot_wf {i : Instr} {bays : Bays} {d : BitVec 8} {msel : BitVec 3} {u : VUnit} {lat : Nat}
    {src : List (BitVec 8)} {f : State → BayIx → List (List Word32) → List (Word32 × Flags)} {s : State}
    (h : s.mem.wf = true) : LeavesWf (vecSlot i bays d msel u lat src f s) :=
  slotRun_wf_of_mem h fun _ => by
    rw [State.eatAll_mem]
    exact foldl_mem _ _ fun _ _ => by simp [apply_ite State.mem]

theorem vcmpSlot_wf {i : Instr} {bays : Bays} {o : VOp} {c : FCond} {n : Int → Int → Bool} {s : State}
    (h : s.mem.wf = true) : LeavesWf (vcmpSlot i bays o c n s) :=
  slotRun_wf_of_mem h fun _ => by
    rw [State.eatAll_mem]
    exact foldl_mem _ _ fun _ _ => by simp [apply_ite State.mem]

theorem maskSlot_wf {i : Instr} {bays : Bays} {d : BitVec 3} {f : Bay → BitVec 128} {s : State} (h : s.mem.wf = true) :
    LeavesWf (maskSlot i bays d f s) :=
  slotRun_wf_of_mem h fun _ => foldl_mem _ _ fun _ _ => State.later_mem ..

theorem transSlot_wf {i : Instr} {bays : Bays} {o : VOp} {t : TFun} {s : State} (h : s.mem.wf = true) :
    LeavesWf (transSlot i bays o t s) :=
  vecSlot_wf h

theorem cvSlot_wf {i : Instr} {bays : Bays} {o : CvOp} {src : List (BitVec 8)}
    {f : RMode → List (List Word32) → List (Word32 × Flags)} {s : State} (h : s.mem.wf = true) :
    LeavesWf (cvSlot i bays o src f s) :=
  vecSlot_wf h

theorem verbArrival_wf {s : State} (h : s.mem.wf = true) : LeavesWf (verbArrival s) := by
  unfold verbArrival
  split
  · simpa using h
  · simpa using h

theorem nmcRun_wf {i : Instr} {op : Nat} {n : NmcOp} {s : State} (h : s.mem.wf = true) :
    LeavesWf (nmcRun i op n s) := by
  refine cmdRun_wf h fun u hu => ?_
  dsimp only
  split
  · rw [State.after_mem, State.modPump_mem, State.takeWait_mem]
    exact State.beginWrite_wf _ _ _ (by simpa using hu)
  · simpa using hu
  · simpa using hu
  · exact hu

/-! ### Pump.lean -/

theorem execAct_wf (b : BankId) (rowcol : BitVec 18) (s : State) (h : s.mem.wf = true) :
    LeavesWf (execAct b rowcol s) := by
  refine cmdRun_wf h fun u hu => ?_
  grind [State.setBank_mem]

theorem execPre_wf (b : BankId) (s : State) (h : s.mem.wf = true) : LeavesWf (execPre b s) := by
  refine cmdRun_wf h fun u hu => ?_
  grind [State.closeBank_mem]

theorem execPrea_wf (pc : BitVec 6) (s : State) (h : s.mem.wf = true) : LeavesWf (execPrea pc s) := by
  refine cmdRun_wf h fun u hu => ?_
  grind [State.closeAll_mem]

theorem execRefr_wf (b : BankId) (rowcol : BitVec 18) (s : State) (h : s.mem.wf = true) :
    LeavesWf (execRefr b rowcol s) := by
  refine cmdRun_wf h fun u hu => ?_
  grind [State.modPump_mem]

theorem execRd_wf (b : BankId) (col : BitVec 5) (caddr : BitVec 32) (s : State) (h : s.mem.wf = true) :
    LeavesWf (execRd b col caddr s) := by
  refine cmdRun_wf h fun u hu => ?_
  grind [State.modCtx_mem, State.takeCol_mem, State.takeWait_mem, State.after_mem, State.modPump_mem,
    State.countAccess_mem]

theorem execWr_wf (b : BankId) (col : BitVec 5) (caddr : BitVec 32) (s : State) (h : s.mem.wf = true) :
    LeavesWf (execWr b col caddr s) := by
  refine cmdRun_wf h fun u hu => ?_
  grind [State.drawAlone_wf, State.takeCol_mem, State.modPump_mem, State.pendAt_mem, State.beginWrite_wf,
    State.loseWrite_mem]

theorem execPumpDead_wf (b : BitVec 4) (a : BitVec 6) (s : State) (h : s.mem.wf = true) :
    LeavesWf (execPumpDead b a s) := by
  refine slotRun_wf_of_mem h fun u => ?_
  dsimp only
  split <;> simp

theorem execPumpStageComplete_wf (s : State) (h : s.mem.wf = true) : LeavesWf (execPumpStageComplete s) := by
  unfold execPumpStageComplete
  dsimp only
  repeat' split
  all_goals grind [leavesWf_next, State.modCtx_mem, State.modPump_mem]

/-! ### NearMem.lean -/

theorem execNmcCompletion_wf (s : State) (h : s.mem.wf = true) : LeavesWf (execNmcCompletion s) := by
  unfold execNmcCompletion
  grind [leavesWf_next, State.after_mem, State.baseUpTo_wf]

theorem execPumpWrSend_wf (s : State) (h : s.mem.wf = true) : LeavesWf (execPumpWrSend s) := by
  unfold execPumpWrSend
  dsimp only
  repeat' split
  all_goals grind [leavesWf_next, State.modPump_mem, State.baseUpTo_wf, State.dirty_mem, State.writeUnit_wf]

theorem execRdDataReturn_wf (s : State) (h : s.mem.wf = true) : LeavesWf (execRdDataReturn s) := by
  unfold execRdDataReturn
  grind [leavesWf_next, State.after_mem, State.baseUpTo_wf]

/-! ### Idle.lean -/

theorem execIdleRowIssue_wf (s : State) (h : s.mem.wf = true) : LeavesWf (execIdleRowIssue s) := by
  unfold execIdleRowIssue
  dsimp only
  repeat' split
  all_goals grind [leavesWf_next, State.idleWords_mem, State.modIdle_mem, State.push_mem]

theorem execIdleSequenceEntry_wf (s : State) (h : s.mem.wf = true) : LeavesWf (execIdleSequenceEntry s) := by
  unfold execIdleSequenceEntry
  dsimp only
  repeat' split
  all_goals simpa using h

theorem execIdleRunEnd_wf (s : State) (h : s.mem.wf = true) : LeavesWf (execIdleRunEnd s) := by
  unfold execIdleRunEnd
  dsimp only
  repeat' split
  all_goals grind [leavesWf_next, State.modIdle_mem, State.setBank_mem, State.noteIdle_mem]

/-! ### Fetch.lean -/

theorem execSegmentExpansionDone_wf (va : Nat) (s : State) (h : s.mem.wf = true) :
    LeavesWf (execSegmentExpansionDone va s) := by
  unfold execSegmentExpansionDone
  dsimp only
  repeat' split
  all_goals grind [leavesWf_next, State.readSegment_wf, State.after_mem, State.resumeSegment_mem,
    State.loadEntries_mem, State.modCtx_mem]

/-! ### Engine.lean -/

theorem execCopyCompletion_wf (s : State) (h : s.mem.wf = true) : LeavesWf (execCopyCompletion s) := by
  unfold execCopyCompletion
  grind [leavesWf_next, State.engineServe_wf]

theorem execProbeFillCompletion_wf (s : State) (h : s.mem.wf = true) : LeavesWf (execProbeFillCompletion s) := by
  unfold execProbeFillCompletion
  grind [leavesWf_next, State.engineServe_wf, State.fillDone_mem]

theorem execPageRequestRefusal_wf (n : Nat) (s : State) (h : s.mem.wf = true) :
    LeavesWf (execPageRequestRefusal n s) := by
  unfold execPageRequestRefusal
  grind [leavesWf_next, State.complete_wf, State.modDie_mem]

/-! ### Order.lean -/

theorem execGetResponse_wf (s : State) (h : s.mem.wf = true) : LeavesWf (execGetResponse s) := by
  unfold execGetResponse
  dsimp only
  repeat' split
  all_goals grind [leavesWf_next, State.modCtx_mem, State.loadFail_mem, State.loadValue_mem]

theorem execQueuedLoadPerform_wf (s : State) (h : s.mem.wf = true) : LeavesWf (execQueuedLoadPerform s) := by
  unfold execQueuedLoadPerform
  grind [leavesWf_next, State.loadHead_wf]

theorem execQueuedStorePerform_wf (s : State) (h : s.mem.wf = true) : LeavesWf (execQueuedStorePerform s) := by
  unfold execQueuedStorePerform
  grind [leavesWf_next, State.storeHead_wf]

theorem execCombiningEntryClose_wf (id : Nat) (s : State) (h : s.mem.wf = true) :
    LeavesWf (execCombiningEntryClose id s) := by
  unfold execCombiningEntryClose
  grind [leavesWf_next, State.closeCombine_wf]

theorem execDieCommitAck_wf (s : State) (h : s.mem.wf = true) : LeavesWf (execDieCommitAck s) := by
  unfold execDieCommitAck
  dsimp only
  repeat' split
  all_goals grind [leavesWf_next, State.copyDone_mem, State.breakPeer_wf]

/-! ### Sump.lean -/

theorem execSumpGroupApply_wf (s : State) (h : s.mem.wf = true) : LeavesWf (execSumpGroupApply s) := by
  unfold execSumpGroupApply
  dsimp only
  repeat' split
  all_goals grind [leavesWf_next, State.dropping_wf, State.applyGroup_wf, State.after_mem]

theorem execSumpSnapWrite_wf (s : State) (h : s.mem.wf = true) : LeavesWf (execSumpSnapWrite s) := by
  unfold execSumpSnapWrite
  dsimp only
  repeat' split
  all_goals grind [leavesWf_next, State.after_mem, State.complete_wf, State.takeSide_mem, State.modDie_mem,
    State.dropping_wf, State.engWrite_wf]

theorem execSumpRd_wf (q : BitVec 5) (row : BitVec 4) (s : State) (h : s.mem.wf = true) :
    LeavesWf (execSumpRd q row s) :=
  slotRun_wf_of_mem h fun _ => foldl_mem _ _ fun _ _ => by simp [apply_ite State.mem]

/-! ### Migrate.lean -/

theorem execMigrationComplete_wf (s : State) (h : s.mem.wf = true) : LeavesWf (execMigrationComplete s) := by
  unfold execMigrationComplete
  dsimp only
  repeat' split
  all_goals grind [leavesWf_next, State.modDie_mem, State.pageDone_wf, State.reply_wf]

/-! ### Sync.lean -/

theorem execShadow_wf (d a n : BitVec 6) (s : State) (h : s.mem.wf = true) : LeavesWf (execShadow d a n s) := by
  refine slotRun_wf h fun u hu => ?_
  dsimp only
  split
  · simpa using hu
  · simpa using foldl_wf _ hu fun _ _ hv => State.zeroGranule_wf _ hv

/-! ### Quantum.lean -/

theorem execQuantumBoundary_wf (s : State) (h : s.mem.wf = true) : LeavesWf (execQuantumBoundary s) := by
  unfold execQuantumBoundary
  grind [leavesWf_next, State.publishDue_wf, State.commitDue_wf, State.waitsDue_mem, State.cbCount_mem,
    State.migrations_wf]

/-! ### Fabric.lean -/

theorem execRingLock_wf (port ring : Nat) (s : State) (h : s.mem.wf = true) : LeavesWf (execRingLock port ring s) := by
  unfold execRingLock
  dsimp only
  repeat' split
  all_goals simpa using h

theorem execPortGateWrite_wf (port : Nat) (g : Bool) (s : State) (h : s.mem.wf = true) :
    LeavesWf (execPortGateWrite port g s) := by
  unfold execPortGateWrite
  dsimp only
  repeat' split
  all_goals grind [leavesWf_next, State.modPort_mem, State.at_mem, State.relockPort_mem]

theorem execFabctlModeWrite_wf (v : Word) (s : State) (h : s.mem.wf = true) : LeavesWf (execFabctlModeWrite v s) := by
  unfold execFabctlModeWrite
  dsimp only
  repeat' split
  all_goals simpa using h

theorem execFlitSend_wf (s : State) (h : s.mem.wf = true) : LeavesWf (execFlitSend s) := by
  unfold execFlitSend
  grind [leavesWf_next, State.sendReplay_mem, State.sendSync_mem, State.sendNext_mem]

/-- An operation with seven arguments on a die. The operation is a variable here, so that the kernel does not compute
with the one it stands for. -/
theorem State.onDie_mem_of_seven {α β γ δ ε ζ η : Type} {F : State → α → β → γ → δ → ε → ζ → η → State}
    (hF : ∀ u a b c d e f g, (F u a b c d e f g).mem = u.mem) (s : State) (i : DieIx) (a : α) (b : β) (c : γ) (d : δ)
    (e : ε) (f : ζ) (g : η) : (s.onDie i fun u => F u a b c d e f g).mem = s.mem :=
  State.onDie_mem_eq _ _ fun u => hF u a b c d e f g

theorem execBulkFlitReceive_wf (s : State) (h : s.mem.wf = true) : LeavesWf (execBulkFlitReceive s) := by
  unfold execBulkFlitReceive
  split
  · split
    · rw [leavesWf_next, State.onDie_mem_of_seven State.flitIn_mem]
      exact h
    · simpa using h
  · simpa using h

theorem execAtomFlitReceive_wf (s : State) (h : s.mem.wf = true) : LeavesWf (execAtomFlitReceive s) := by
  unfold execAtomFlitReceive
  split
  · split
    · rw [leavesWf_next, State.onDie_mem_of_seven State.flitIn_mem]
      exact h
    · simpa using h
  · simpa using h

theorem execFlitLossTimeout_wf (s : State) (h : s.mem.wf = true) : LeavesWf (execFlitLossTimeout s) := by
  unfold execFlitLossTimeout
  grind [leavesWf_next, State.breakPeer_wf, State.modPath_mem, State.flitLost_wf]

theorem execCommitAcknowledgement_wf (s : State) (h : s.mem.wf = true) : LeavesWf (execCommitAcknowledgement s) := by
  unfold execCommitAcknowledgement
  dsimp only
  repeat' split
  all_goals simpa using h

theorem execRefusalReport_wf (s : State) (h : s.mem.wf = true) : LeavesWf (execRefusalReport s) := by
  unfold execRefusalReport
  grind [leavesWf_next, State.breakPeer_wf]

theorem execPathEpochFlit_wf (s : State) (h : s.mem.wf = true) : LeavesWf (execPathEpochFlit s) := by
  unfold execPathEpochFlit
  grind [leavesWf_next, State.modOrd_mem, State.modPath_mem]

theorem execTimeExchangeFlit_wf (s : State) (h : s.mem.wf = true) : LeavesWf (execTimeExchangeFlit s) := by
  unfold execTimeExchangeFlit
  grind [leavesWf_next, State.eachDie_wf, State.modDie_mem]

theorem execPathDisconnect_wf (s : State) (h : s.mem.wf = true) : LeavesWf (execPathDisconnect s) := by
  unfold execPathDisconnect
  dsimp only
  repeat' split
  all_goals grind [leavesWf_next, State.push_mem, State.setPeer_wf]

theorem execServicePathSequence_wf (s : State) (h : s.mem.wf = true) : LeavesWf (execServicePathSequence s) := by
  unfold execServicePathSequence
  grind [leavesWf_next, State.egressStep_wf, State.migrStep_wf]

theorem execPathReconnect_wf (s : State) (h : s.mem.wf = true) : LeavesWf (execPathReconnect s) := by
  unfold execPathReconnect
  grind [leavesWf_next, State.drainEgress_wf]

theorem execRotaSlotStart_wf (n : Nat) (s : State) (h : s.mem.wf = true) : LeavesWf (execRotaSlotStart n s) := by
  unfold execRotaSlotStart
  dsimp only
  repeat' split
  all_goals grind [leavesWf_next, State.slotOver_mem, State.rotaHalt_mem, State.slotStart_mem]

theorem execFabricManagerCommand_wf (s : State) (h : s.mem.wf = true) : LeavesWf (execFabricManagerCommand s) := by
  unfold execFabricManagerCommand
  grind [leavesWf_next, State.fmObey_mem, State.fmReport_mem]

theorem execLaserRemoval_wf (iod : Fin 2) (s : State) (h : s.mem.wf = true) : LeavesWf (execLaserRemoval iod s) := by
  unfold execLaserRemoval
  dsimp only
  repeat' split
  all_goals grind [leavesWf_next, State.modFab_mem, State.modPort_mem, State.loseFlit_wf, foldl_wf]

theorem execLaserInsertion_wf (iod : Fin 2) (s : State) (h : s.mem.wf = true) : LeavesWf (execLaserInsertion iod s) :=
    by
  unfold execLaserInsertion
  dsimp only
  repeat' split
  all_goals simpa using h

theorem execUnsyncTimeout_wf (s : State) (h : s.mem.wf = true) : LeavesWf (execUnsyncTimeout s) := by
  unfold execUnsyncTimeout
  grind [leavesWf_next, State.postFault_mem, State.modFab_mem]

/-! ### Matrix.lean -/

theorem execMxDrainPresent_wf (bay : BayIx) (dst : Option Resv) (lanes : List Lane) (s : State) (h : s.mem.wf = true) :
    LeavesWf (execMxDrainPresent bay dst lanes s) := by
  unfold execMxDrainPresent
  grind [leavesWf_next, State.present_mem, State.presentLanes_mem]

/-! ### Stream.lean -/

theorem execQXferLand_wf (bays : Bays) (qs : BitVec 5) (s : State) (h : s.mem.wf = true) :
    LeavesWf (execQXferLand bays qs s) := by
  refine slotRun_wf_of_mem h fun u => foldl_mem _ _ fun v b => ?_
  split <;> simp

/-! ### Landing.lean -/

theorem execTimelineResultLanding_wf (r : Result) (s : State) (h : s.mem.wf = true) :
    LeavesWf (execTimelineResultLanding r s) := by
  unfold execTimelineResultLanding
  grind [leavesWf_next, State.landResult_wf]

theorem execPourBankWrite_wf (p : Pour) (s : State) (h : s.mem.wf = true) : LeavesWf (execPourBankWrite p s) := by
  unfold execPourBankWrite
  dsimp only
  grind [leavesWf_next, State.pourBank_wf, foldl_wf]

/-! ### Stencil.lean -/

theorem execStnLdCompletion_wf (s : State) (h : s.mem.wf = true) : LeavesWf (execStnLdCompletion s) := by
  unfold execStnLdCompletion
  dsimp only
  repeat' split
  all_goals grind [leavesWf_next, State.modCtx_mem, State.modBay_mem, State.putStencil_mem]

theorem execStnCutCompletion_wf (s : State) (h : s.mem.wf = true) : LeavesWf (execStnCutCompletion s) := by
  unfold execStnCutCompletion
  dsimp only
  repeat' split
  all_goals grind [leavesWf_next, State.nextCut_mem, State.putStencil_mem, State.modBay_mem, State.dropping_wf,
    State.engWrite_wf, State.modDie_mem]

/-! ### Seq.lean -/

theorem execStallCycle_wf (s : State) (h : s.mem.wf = true) : LeavesWf (execStallCycle s) := by
  unfold execStallCycle
  dsimp only
  repeat' split
  all_goals simpa using h

theorem execCommitBufferOverflow_wf (s : State) (h : s.mem.wf = true) : LeavesWf (execCommitBufferOverflow s) := by
  unfold execCommitBufferOverflow
  dsimp only
  repeat' split
  all_goals simpa using h

theorem execBundleIssue_wf (s : State) (h : s.mem.wf = true) : LeavesWf (execBundleIssue s) := by
  unfold execBundleIssue
  grind [leavesWf_next, State.attempt_wf]

theorem execHoldCycle_wf (s : State) (h : s.mem.wf = true) : LeavesWf (execHoldCycle s) := by
  unfold execHoldCycle
  dsimp only
  repeat' split
  all_goals grind [leavesWf_next, State.stall_mem, State.pumpReady_mem, State.settle_mem, State.raise_mem,
    State.letIssue_mem, State.push_mem, State.modDie_mem]

/-! ### Span.lean -/

theorem execSpanSlot_wf (r : Word) (s : State) (h : s.mem.wf = true) : LeavesWf (execSpanSlot r s) := by
  unfold execSpanSlot
  dsimp only
  repeat' split
  all_goals grind [leavesWf_next, State.spanEmpty_mem, State.modStr_mem, State.modErr_mem, State.at_mem]

/-! ### Launch.lean -/

theorem execDoorbellPoll_wf (s : State) (h : s.mem.wf = true) : LeavesWf (execDoorbellPoll s) := by
  unfold execDoorbellPoll
  grind [leavesWf_next, State.dispatch_wf]

theorem execSliceEnd_wf (id : Nat) (s : State) (h : s.mem.wf = true) : LeavesWf (execSliceEnd id s) := by
  unfold execSliceEnd
  grind [leavesWf_next, State.dispatch_wf, State.newSlice_mem, State.enqueueAt_wf]

theorem execPreemptionRequest_wf (s : State) (h : s.mem.wf = true) : LeavesWf (execPreemptionRequest s) := by
  unfold execPreemptionRequest
  grind [leavesWf_next, State.modCtx_mem, State.preempt_wf]

theorem execPreemptionHalt_wf (s : State) (h : s.mem.wf = true) : LeavesWf (execPreemptionHalt s) := by
  unfold execPreemptionHalt
  dsimp only
  repeat' split
  all_goals grind [leavesWf_next, State.freeSets_mem, State.modCtx_mem, State.closeGroups_mem, State.modDie_mem,
    State.failLaunch_mem, State.haltCheck_wf, State.modLaunch_mem, State.dispatch_wf]

theorem execContextSaveComplete_wf (id : Nat) (s : State) (h : s.mem.wf = true) :
    LeavesWf (execContextSaveComplete id s) := by
  unfold execContextSaveComplete
  dsimp only
  repeat' split
  all_goals grind [leavesWf_next, State.dispatch_wf, State.modLaunch_mem]

theorem execContextRestore_wf (id : Nat) (s : State) (h : s.mem.wf = true) : LeavesWf (execContextRestore id s) := by
  unfold execContextRestore
  dsimp only
  repeat' split
  all_goals grind [leavesWf_next, State.onDie_wf, State.restoreDie_wf, State.dispatch_wf, State.runRota_mem,
    State.backRota_mem, State.modLaunch_mem, foldl_wf]

/-! ### Loss.lean -/

theorem execScrubRead_wf (bay : BayIx) (s : State) (h : s.mem.wf = true) : LeavesWf (execScrubRead bay s) := by
  unfold execScrubRead
  dsimp only
  grind [leavesWf_next, State.decodeWord_wf, State.modErr_mem, State.after_mem]

/-- Rebuilding a word of a bank clears what is stored of its errors and poisons it where it cannot be rebuilt. -/
theorem State.rebuildMarks_wf (s : State) (w c : Nat) (bad : Bool) (h : s.mem.wf = true) :
    (s.modMem fun m => { m with
      ecc := SMap.put .ok m.ecc w .ok
      chk := SMap.put .ok m.chk c .ok
      pz := if bad then SMap.put false m.pz w true else m.pz }).mem.wf = true := by
  obtain ⟨⟨hc, hp, hn, he, hk⟩, hrest⟩ := Mem.wf_iff.1 h
  refine Mem.wf_iff.2 ⟨⟨hc, ?_, hn, SMap.put_wf _ _ he, SMap.put_wf _ _ hk⟩, hrest⟩
  cases bad
  · exact hp
  · exact SMap.put_wf _ _ hp

theorem execBankRebuildWord_wf (s : State) (h : s.mem.wf = true) : LeavesWf (execBankRebuildWord s) := by
  unfold execBankRebuildWord
  extract_lets e at_ a row u
  split
  · simpa using h
  · split
    · simpa using h
    · split
      next v b hvb =>
        have hv : (v, b).1.mem.wf = true := hvb ▸ foldl_fst_wf row h fun _ _ hx => State.decodeWord_wf _ _ hx
        extract_lets chk u1 bad u2 u3 u4
        have h1 : u1.mem.wf = true := by grind [State.event_mem]
        have h2 : u2.mem.wf = true := State.rebuildMarks_wf u1 _ _ bad h1
        have h3 : u3.mem.wf = true := by grind [State.event_mem]
        have h4 : u4.mem.wf = true := h3
        clear_value u4
        rw [leavesWf_next]
        split <;> simpa using h4

theorem execBankRebuildComplete_wf (s : State) (h : s.mem.wf = true) : LeavesWf (execBankRebuildComplete s) := by
  unfold execBankRebuildComplete
  dsimp only
  repeat' split
  all_goals simpa using h

theorem execUcieLaneError_wf (port : Nat) (lane : Option Nat) (s : State) (h : s.mem.wf = true) :
    LeavesWf (execUcieLaneError port lane s) := by
  unfold execUcieLaneError
  dsimp only
  repeat' split
  all_goals simpa using h

theorem execLaneReplacementDone_wf (port : Nat) (s : State) (h : s.mem.wf = true) :
    LeavesWf (execLaneReplacementDone port s) := by
  unfold execLaneReplacementDone
  dsimp only
  grind [leavesWf_next, State.event_mem, State.modErr_mem, foldl_wf]

theorem execHeartbeatPoll_wf (s : State) (h : s.mem.wf = true) : LeavesWf (execHeartbeatPoll s) := by
  unfold execHeartbeatPoll
  dsimp only
  repeat' split
  all_goals grind [leavesWf_next, State.modDisp_mem, State.at_mem, State.dispatch_wf, State.onDie_wf,
    State.declareLost_wf, foldl_wf]

theorem execIslandFailure_wf (die : DieIx) (s : State) (h : s.mem.wf = true) : LeavesWf (execIslandFailure die s) := by
  unfold execIslandFailure
  grind [leavesWf_next, State.loseDie_wf]

theorem execUciePortFailure_wf (die : DieIx) (s : State) (h : s.mem.wf = true) :
    LeavesWf (execUciePortFailure die s) := by
  unfold execUciePortFailure
  grind [leavesWf_next, State.loseDie_wf]

theorem execDieLossNotice_wf (s : State) (h : s.mem.wf = true) : LeavesWf (execDieLossNotice s) := by
  unfold execDieLossNotice
  grind [leavesWf_next, State.modDisp_mem, State.dispatch_wf, State.dieGone_wf]

theorem execUnansweringPackageLost_wf (s : State) (h : s.mem.wf = true) : LeavesWf (execUnansweringPackageLost s) := by
  unfold execUnansweringPackageLost
  dsimp only
  repeat' split
  all_goals grind [leavesWf_next, State.modDisp_mem, State.dispatch_wf, State.dieGone_wf, State.repeatRecoveries_wf,
    foldl_wf]

/-! ### Command.lean -/

theorem execQset_wf (q : BitVec 16) (word : BitVec 3) (value mask : Word) (s : State) (h : s.mem.wf = true) :
    LeavesWf (execQset q word value mask s) := by
  unfold execQset
  refine leavesWf_next.2 (State.served_wf _ h fun u hu => ?_)
  dsimp only
  repeat' split
  all_goals grind [State.reply_wf, State.poke_mem, State.effQueue_mem, State.modQueue_mem]

theorem execCtxset_wf (ctx : BitVec 16) (addr : Word) (s : State) (h : s.mem.wf = true) :
    LeavesWf (execCtxset ctx addr s) := by
  unfold execCtxset
  refine leavesWf_next.2 (State.served_wf _ h fun u hu => ?_)
  dsimp only
  repeat' split
  all_goals grind [State.reply_wf, State.modCtxDesc_mem]

theorem execRegion_wf (n : BitVec 16) (die : BitVec 8) (addr count : Word) (s : State) (h : s.mem.wf = true) :
    LeavesWf (execRegion n die addr count s) := by
  unfold execRegion
  refine leavesWf_next.2 (State.served_wf _ h fun u hu => ?_)
  dsimp only
  repeat' split
  all_goals grind [State.reply_wf, State.modDisp_mem, State.poke_mem]

theorem execTier_wf (sel value : Word) (s : State) (h : s.mem.wf = true) : LeavesWf (execTier sel value s) := by
  unfold execTier
  refine leavesWf_next.2 (State.served_wf _ h fun u hu => ?_)
  dsimp only
  repeat' split
  all_goals grind [State.reply_wf, State.modDisp_mem, State.poke_mem, State.effQueue_mem, foldl_wf]

theorem execTierMigration_wf (ctx leaf dframe : Word) (dtier : Bool) (s : State) (h : s.mem.wf = true) :
    LeavesWf (execTierMigration ctx leaf dframe dtier s) := by
  unfold execTierMigration
  refine leavesWf_next.2 (State.served_wf _ h fun u hu => ?_)
  dsimp only
  repeat' split
  all_goals grind [State.reply_wf, State.onDie_wf, State.migrStart_wf]

theorem execRecover_wf (q : BitVec 16) (addr : Word) (s : State) (h : s.mem.wf = true) :
    LeavesWf (execRecover q addr s) := by
  unfold execRecover
  refine leavesWf_next.2 (State.served_wf _ h fun u hu => ?_)
  dsimp only
  repeat' split
  all_goals grind [State.reply_wf, State.modDisp_mem]

theorem execFaults_wf (addr max : Word) (s : State) (h : s.mem.wf = true) : LeavesWf (execFaults addr max s) := by
  unfold execFaults
  dsimp only
  repeat' split
  all_goals grind [leavesWf_next, leavesWf_fault, State.hostPut_wf, State.reply_wf, State.modDisp_mem]

theorem execResync_wf (addr : Word) (s : State) (h : s.mem.wf = true) : LeavesWf (execResync addr s) := by
  unfold execResync
  grind [leavesWf_next, State.hostPut_wf, State.reply_wf]

theorem execRetireDie_wf (die : BitVec 3) (s : State) (h : s.mem.wf = true) : LeavesWf (execRetireDie die s) := by
  unfold execRetireDie
  refine leavesWf_next.2 (State.served_wf _ h fun u hu => ?_)
  dsimp only
  grind [State.modHost_mem, State.reply_wf, State.dispatch_wf, State.onDie_wf, State.declareLost_wf]

theorem execRetireBank_wf (die bay : BitVec 3) (bank : BitVec 7) (s : State) (h : s.mem.wf = true) :
    LeavesWf (execRetireBank die bay bank s) := by
  unfold execRetireBank
  dsimp only
  repeat' split
  all_goals grind [leavesWf_next, State.onDie_wf, State.retireBank_mem, State.served_wf, State.reply_wf]

theorem execFwload_wf (addr len : Word) (s : State) (h : s.mem.wf = true) : LeavesWf (execFwload addr len s) := by
  unfold execFwload
  dsimp only
  repeat' split
  all_goals grind [leavesWf_next, State.reply_wf, State.modHost_mem, State.restartBringUp_wf]

theorem execAttest_wf (n0 n1 n2 n3 addr : Word) (s : State) (h : s.mem.wf = true) :
    LeavesWf (execAttest n0 n1 n2 n3 addr s) := by
  unfold execAttest
  refine leavesWf_next.2 (State.served_wf _ h fun u hu => ?_)
  dsimp only
  repeat' split
  all_goals grind [State.reply_wf, State.hostPut_wf, State.modHost_mem]

theorem execDomainJoin_wf (pkg : BitVec 5) (s : State) (h : s.mem.wf = true) : LeavesWf (execDomainJoin pkg s) := by
  unfold execDomainJoin
  refine leavesWf_next.2 (State.served_wf _ h fun u hu => ?_)
  dsimp only
  repeat' split
  all_goals grind [State.reply_wf, State.takeWait_mem, State.setDelays_mem, State.modHost_mem, State.gateAll_mem]

theorem execDomainLeave_wf (pkg : BitVec 5) (s : State) (h : s.mem.wf = true) : LeavesWf (execDomainLeave pkg s) := by
  unfold execDomainLeave
  refine leavesWf_next.2 (State.served_wf _ h fun u hu => ?_)
  dsimp only
  repeat' split
  all_goals grind [State.reply_wf, State.takeWait_mem, State.setDelays_mem, State.modHost_mem, State.gateAll_mem]

theorem execPcap_wf (watts : Word) (s : State) (h : s.mem.wf = true) : LeavesWf (execPcap watts s) := by
  unfold execPcap
  refine leavesWf_next.2 (State.served_wf _ h fun u hu => ?_)
  dsimp only
  repeat' split
  all_goals grind [State.reply_wf, State.modHost_mem, State.eachDie_wf, State.modErr_mem]

/-! ### Gang.lean -/

theorem execGangPrepare_wf (s : State) (h : s.mem.wf = true) : LeavesWf (execGangPrepare s) := by
  unfold execGangPrepare
  dsimp only
  repeat' split
  all_goals grind [leavesWf_next, State.headOf_wf, State.launchLoads_wf, State.startReady_wf, State.grant_wf]

theorem execGangReady_wf (s : State) (h : s.mem.wf = true) : LeavesWf (execGangReady s) := by
  unfold execGangReady
  grind [leavesWf_next, State.modLaunch_mem]

theorem execGangReadyDeadline_wf (s : State) (h : s.mem.wf = true) : LeavesWf (execGangReadyDeadline s) := by
  unfold execGangReadyDeadline
  dsimp only
  repeat' split
  all_goals grind [leavesWf_next, State.push_mem]

theorem execGoToken_wf (s : State) (h : s.mem.wf = true) : LeavesWf (execGoToken s) := by
  unfold execGoToken
  dsimp only
  repeat' split
  all_goals grind [leavesWf_next, State.onDies_wf, State.modLaunch_mem, State.modCtx_mem, State.at_mem]

theorem execGangCancel_wf (s : State) (h : s.mem.wf = true) : LeavesWf (execGangCancel s) := by
  unfold execGangCancel
  dsimp only
  repeat' split
  all_goals grind [leavesWf_next, State.cancelGang_mem, State.dispatch_wf, State.modQueue_mem, State.completeRecord_wf]

theorem execGangStart_wf (s : State) (h : s.mem.wf = true) : LeavesWf (execGangStart s) := by
  unfold execGangStart
  dsimp only
  repeat' split
  all_goals grind [leavesWf_next, State.headAt_wf, State.push_mem, State.goDies_mem, State.at_mem]

theorem execGangStarted_wf (s : State) (h : s.mem.wf = true) : LeavesWf (execGangStarted s) := by
  unfold execGangStarted
  dsimp only
  repeat' split
  all_goals grind [leavesWf_next, State.modLaunch_mem, State.push_mem]

theorem execGangAckDeadline_wf (s : State) (h : s.mem.wf = true) : LeavesWf (execGangAckDeadline s) := by
  unfold execGangAckDeadline
  grind [leavesWf_next, State.push_mem]

theorem execGangConfirm_wf (s : State) (h : s.mem.wf = true) : LeavesWf (execGangConfirm s) := by
  unfold execGangConfirm
  dsimp only
  repeat' split
  all_goals grind [leavesWf_next, State.release_mem, State.releaseLate_mem, State.onDies_wf, State.modCtx_mem,
    State.endCheck_wf, State.modLaunch_mem]

theorem execGangAbort_wf (s : State) (h : s.mem.wf = true) : LeavesWf (execGangAbort s) := by
  unfold execGangAbort
  dsimp only
  repeat' split
  all_goals grind [leavesWf_next, State.onDies_wf, State.abortEffects_mem, State.dispatch_wf, State.haltCheck_wf,
    State.modLaunch_mem, State.onDie_wf, State.abortDie_mem, State.endLaunch_wf, State.cancelGang_mem,
    State.completeRecord_wf, foldl_wf]

/-! ### Host.lean -/

/-- Power leaves the host's memory and clears the others. -/
theorem State.powered_mem (s : State) : s.powered.mem = { host := s.mem.host } := (rfl)

theorem State.powered_wf (s : State) (h : s.mem.wf = true) : s.powered.mem.wf = true := by
  rw [State.powered_mem]
  obtain ⟨-, -, -, hh⟩ := Mem.wf_iff.1 h
  exact Mem.wf_iff.2 ⟨⟨rfl, rfl, rfl, rfl, rfl⟩, ⟨rfl, rfl, rfl⟩, ⟨rfl, rfl⟩, hh⟩

theorem execPowerOn_wf (fails : Option Nat) (s : State) (h : s.mem.wf = true) : LeavesWf (execPowerOn fails s) :=
  leavesWf_next.2 (State.bringUp_wf _ fails (State.powered_wf s h))

theorem execHostRegisterWrite_wf (s : State) (h : s.mem.wf = true) : LeavesWf (execHostRegisterWrite s) := by
  unfold execHostRegisterWrite
  grind [leavesWf_next, State.ring_mem, State.modHost_mem]

theorem execHostReservoirRead_wf (s : State) (h : s.mem.wf = true) : LeavesWf (execHostReservoirRead s) := by
  unfold execHostReservoirRead
  dsimp only
  repeat' split
  all_goals grind [leavesWf_next, leavesWf_fault, State.modHost_mem]

theorem execHostReservoirWrite_wf (s : State) (h : s.mem.wf = true) : LeavesWf (execHostReservoirWrite s) := by
  unfold execHostReservoirWrite
  grind [leavesWf_next, leavesWf_fault, State.resPut_wf]

theorem execDebuggerWrite_wf (s : State) (h : s.mem.wf = true) : LeavesWf (execDebuggerWrite s) := by
  unfold execDebuggerWrite
  grind [leavesWf_next, State.debugWrite_mem]

/-! ### Walker.lean -/

theorem execWalkerKernelNode_wf (s : State) (h : s.mem.wf = true) : LeavesWf (execWalkerKernelNode s) := by
  unfold execWalkerKernelNode
  dsimp only
  repeat' split
  all_goals grind [leavesWf_next, State.node_wf, State.walkerError_wf, State.walkerTo_wf, State.runKernel_mem,
    State.modCtx_mem]

theorem execWalkerConditionalNode_wf (s : State) (h : s.mem.wf = true) : LeavesWf (execWalkerConditionalNode s) := by
  unfold execWalkerConditionalNode
  grind [leavesWf_next, State.node_wf, State.walkerError_wf, State.nodeCond_wf, State.walkerTo_wf]

theorem execWalkerWhileNode_wf (s : State) (h : s.mem.wf = true) : LeavesWf (execWalkerWhileNode s) := by
  unfold execWalkerWhileNode
  dsimp only
  repeat' split
  all_goals grind [leavesWf_next, State.node_wf, State.walkerError_wf, State.nodeCond_wf, State.walkerTo_wf,
    State.modCtx_mem]

theorem execWalkerJoinNode_wf (s : State) (h : s.mem.wf = true) : LeavesWf (execWalkerJoinNode s) := by
  unfold execWalkerJoinNode
  grind [leavesWf_next, State.node_wf, State.walkerError_wf, State.nodeCond_wf, State.walkerTo_wf,
    State.walkerHalt_mem, State.after_mem]

theorem execKernelEnd_wf (s : State) (h : s.mem.wf = true) : LeavesWf (execKernelEnd s) := by
  unfold execKernelEnd
  grind [leavesWf_next, State.dispatch_wf, State.partEnded_wf, State.modLaunch_mem, State.kernelEnd_wf]

/-! ### Dispatch.lean and Step.lean -/

/-- Every instruction keeps the canonical form. The slots of a kind go together. -/
theorem exec_wf (i : Instr) (s : State) (h : s.mem.wf = true) : LeavesWf (exec i s) := by
  unfold exec
  cases i with
  | nmcFade | nmcAxpy | nmcAdd | nmcScale | nmcFill =>
    exact nmcRun_wf h
  | add | sub | and | or | xor | andn | shl | shr | sar | min | max | minu | maxu | clz | popc | sel | addi | andi |
  ori | xori | shli | shri | sari | movi | movhi | pmovsToScalar | hget =>
    exact aluSlot_wf h
  | mul | mulh | mulhu =>
    exact mulSlot_wf h
  | cmpEq | cmpNe | cmpLt | cmpLtu | cmpLe | cmpLeu | cmpiEq | cmpiLt =>
    exact cmpSlot_wf h
  | pand | por | pxor | pandn =>
    exact predSlot_wf h
  | fadd | fsub | fmul | ffma | fmin | fmax | fcvt =>
    exact fpSlot_wf h
  | ld | lds | chk =>
    exact loadSlot_wf h
  | getVerbArrival | remoteStoreVerbArrival | signalVerbArrival | atomicVerbArrival =>
    exact verbArrival_wf h
  | sumpAdd | sumpMax | sumpMin | sumpCnt =>
    exact sumpSlot_wf h
  | scanPsum | scanPmax | scanPmin | scanSpsum | scanRsum | scanRmax | scanRmin | scanAmax | scanCmpct | scanArgmax |
  scanTopk | scanRank =>
    exact scanSlot_wf h
  | vadd | vsub | vmin | vmax | vabs | vneg | vand | vor | vxor | vandn | vshl | vshr | vsar | vmov | vsel | vmul |
  vfma | vfms | vfnma =>
    exact vecSlot_wf h
  | vcmpEq | vcmpNe | vcmpLt | vcmpLe | vcmpUn =>
    exact vcmpSlot_wf h
  | vmand | vmor | vmxor | vmandn | vmset =>
    exact maskSlot_wf h
  | vexp2 | vlog2 | vrcp | vrsqrt | vsqrt | vtanh | vsigm =>
    exact transSlot_wf h
  | vcvt | vrint | vpack | vunpk =>
    exact cvSlot_wf h
  | br | jnext | jseg | lbrk | exit | tret | csrr | csrw | csrs | csrc | pumpLd | pumpIdle | pumpStat | nmFence | copy
  | copySt | pageReq | probeInv | probeTag | pmovsFromScalar | fcmp | st | signal | mark | hld | hst | hset | hmov |
  sumpSnap | sumpClr | shadowFree | publish | waitA | fence | fenceRc | qwait | bar | rdgtc | goWait | nop | trap |
  dbrk | tlbSync | domsw | mxPush | mxAcc | mxShift | mxHold | mxZero | mxMode | mxScale | mxSnap | mxSwap | qBind |
  qUnbind | qSkip | qDrain | qRmask | qXfer | stnLd | stnCut | stnWait | stnPasses =>
    exact slotRun_wf_of_mem h fun _ => by simp
  | brv | loop | lcont | pumpGo | pumpActr | nmStat | probe | realign | mxDrain =>
    refine slotRun_wf_of_mem h fun u => ?_
    dsimp only
    repeat' split
    all_goals simp
  | loopLevelWrite | registerWrite | pumpSkip | pumpRdPresent | tableResume | refreshDebtAccrual |
  routingCounterUpdate | quantumChange | portGated | mxStepLanding | mxModePartialClear | mxSnapTargetWrite |
  streamEntryArrival | xferDelivery | freezeCycle | spanEntryArrival | spanSlip | hostDoorbellWrite =>
    exact leavesWf_next.2 (by simpa using h)
  | act => exact execAct_wf _ _ _ h
  | pre => exact execPre_wf _ _ h
  | prea => exact execPrea_wf _ _ h
  | refr => exact execRefr_wf _ _ _ h
  | rd => exact execRd_wf _ _ _ _ h
  | wr => exact execWr_wf _ _ _ _ h
  | pumpDead => exact execPumpDead_wf _ _ _ h
  | pumpStageComplete => exact execPumpStageComplete_wf _ h
  | nmcCompletion => exact execNmcCompletion_wf _ h
  | pumpWrSend => exact execPumpWrSend_wf _ h
  | rdDataReturn => exact execRdDataReturn_wf _ h
  | idleRowIssue => exact execIdleRowIssue_wf _ h
  | idleSequenceEntry => exact execIdleSequenceEntry_wf _ h
  | idleRunEnd => exact execIdleRunEnd_wf _ h
  | segmentExpansionDone => exact execSegmentExpansionDone_wf _ _ h
  | copyCompletion => exact execCopyCompletion_wf _ h
  | probeFillCompletion => exact execProbeFillCompletion_wf _ h
  | pageRequestRefusal => exact execPageRequestRefusal_wf _ _ h
  | getResponse => exact execGetResponse_wf _ h
  | queuedLoadPerform => exact execQueuedLoadPerform_wf _ h
  | queuedStorePerform => exact execQueuedStorePerform_wf _ h
  | combiningEntryClose => exact execCombiningEntryClose_wf _ _ h
  | dieCommitAck => exact execDieCommitAck_wf _ h
  | sumpGroupApply => exact execSumpGroupApply_wf _ h
  | sumpSnapWrite => exact execSumpSnapWrite_wf _ h
  | sumpRd => exact execSumpRd_wf _ _ _ h
  | migrationComplete => exact execMigrationComplete_wf _ h
  | shadow => exact execShadow_wf _ _ _ _ h
  | quantumBoundary => exact execQuantumBoundary_wf _ h
  | ringLock => exact execRingLock_wf _ _ _ h
  | portGateWrite => exact execPortGateWrite_wf _ _ _ h
  | fabctlModeWrite => exact execFabctlModeWrite_wf _ _ h
  | flitSend => exact execFlitSend_wf _ h
  | bulkFlitReceive => exact execBulkFlitReceive_wf _ h
  | atomFlitReceive => exact execAtomFlitReceive_wf _ h
  | flitLossTimeout => exact execFlitLossTimeout_wf _ h
  | commitAcknowledgement => exact execCommitAcknowledgement_wf _ h
  | refusalReport => exact execRefusalReport_wf _ h
  | pathEpochFlit => exact execPathEpochFlit_wf _ h
  | timeExchangeFlit => exact execTimeExchangeFlit_wf _ h
  | pathDisconnect => exact execPathDisconnect_wf _ h
  | servicePathSequence => exact execServicePathSequence_wf _ h
  | pathReconnect => exact execPathReconnect_wf _ h
  | rotaSlotStart => exact execRotaSlotStart_wf _ _ h
  | fabricManagerCommand => exact execFabricManagerCommand_wf _ h
  | laserRemoval => exact execLaserRemoval_wf _ _ h
  | laserInsertion => exact execLaserInsertion_wf _ _ h
  | unsyncTimeout => exact execUnsyncTimeout_wf _ h
  | mxDrainPresent => exact execMxDrainPresent_wf _ _ _ _ h
  | qXferLand => exact execQXferLand_wf _ _ _ h
  | timelineResultLanding => exact execTimelineResultLanding_wf _ _ h
  | pourBankWrite => exact execPourBankWrite_wf _ _ h
  | stnLdCompletion => exact execStnLdCompletion_wf _ h
  | stnCutCompletion => exact execStnCutCompletion_wf _ h
  | stallCycle => exact execStallCycle_wf _ h
  | commitBufferOverflow => exact execCommitBufferOverflow_wf _ h
  | bundleIssue => exact execBundleIssue_wf _ h
  | holdCycle => exact execHoldCycle_wf _ h
  | spanSlot => exact execSpanSlot_wf _ _ h
  | doorbellPoll => exact execDoorbellPoll_wf _ h
  | sliceEnd => exact execSliceEnd_wf _ _ h
  | preemptionRequest => exact execPreemptionRequest_wf _ h
  | preemptionHalt => exact execPreemptionHalt_wf _ h
  | contextSaveComplete => exact execContextSaveComplete_wf _ _ h
  | contextRestore => exact execContextRestore_wf _ _ h
  | scrubRead => exact execScrubRead_wf _ _ h
  | bankRebuildWord => exact execBankRebuildWord_wf _ h
  | bankRebuildComplete => exact execBankRebuildComplete_wf _ h
  | ucieLaneError => exact execUcieLaneError_wf _ _ _ h
  | laneReplacementDone => exact execLaneReplacementDone_wf _ _ h
  | heartbeatPoll => exact execHeartbeatPoll_wf _ h
  | islandFailure => exact execIslandFailure_wf _ _ h
  | uciePortFailure => exact execUciePortFailure_wf _ _ h
  | dieLossNotice => exact execDieLossNotice_wf _ h
  | unansweringPackageLost => exact execUnansweringPackageLost_wf _ h
  | qset => exact execQset_wf _ _ _ _ _ h
  | ctxset => exact execCtxset_wf _ _ _ h
  | region => exact execRegion_wf _ _ _ _ _ h
  | tier => exact execTier_wf _ _ _ h
  | tierMigration => exact execTierMigration_wf _ _ _ _ _ h
  | recover => exact execRecover_wf _ _ _ h
  | faults => exact execFaults_wf _ _ _ h
  | resync => exact execResync_wf _ _ h
  | retireDie => exact execRetireDie_wf _ _ h
  | retireBank => exact execRetireBank_wf _ _ _ _ h
  | fwload => exact execFwload_wf _ _ _ h
  | attest => exact execAttest_wf _ _ _ _ _ _ h
  | domainJoin => exact execDomainJoin_wf _ _ h
  | domainLeave => exact execDomainLeave_wf _ _ h
  | pcap => exact execPcap_wf _ _ h
  | gangPrepare => exact execGangPrepare_wf _ h
  | gangReady => exact execGangReady_wf _ h
  | gangReadyDeadline => exact execGangReadyDeadline_wf _ h
  | goToken => exact execGoToken_wf _ h
  | gangCancel => exact execGangCancel_wf _ h
  | gangStart => exact execGangStart_wf _ h
  | gangStarted => exact execGangStarted_wf _ h
  | gangAckDeadline => exact execGangAckDeadline_wf _ h
  | gangConfirm => exact execGangConfirm_wf _ h
  | gangAbort => exact execGangAbort_wf _ h
  | powerOn => exact execPowerOn_wf _ _ h
  | hostRegisterWrite => exact execHostRegisterWrite_wf _ h
  | hostReservoirRead => exact execHostReservoirRead_wf _ h
  | hostReservoirWrite => exact execHostReservoirWrite_wf _ h
  | debuggerWrite => exact execDebuggerWrite_wf _ h
  | walkerKernelNode => exact execWalkerKernelNode_wf _ h
  | walkerConditionalNode => exact execWalkerConditionalNode_wf _ h
  | walkerWhileNode => exact execWalkerWhileNode_wf _ h
  | walkerJoinNode => exact execWalkerJoinNode_wf _ h
  | kernelEnd => exact execKernelEnd_wf _ h

theorem step_wf (s : State) (h : s.mem.wf = true) : LeavesWf (step s) := by
  have ht := State.take_wf s h
  unfold step
  split
  next t i hst =>
    rw [hst] at ht
    exact exec_wf i t ht
  next t hst =>
    rw [hst] at ht
    exact leavesWf_next.2 ht

end Sys2Proof.Machine

open Sys2Proof.Machine in
/-- Settles O60: what chooses the next instruction keeps the form (`State.take_wf`), and so does each instruction
(`exec_wf`). -/
theorem everyStepKeepsTheMemoriesCanonical : Obligations.EveryStepKeepsTheMemoriesCanonical := by
  unfold Obligations.EveryStepKeepsTheMemoriesCanonical
  intro s t h hst
  exact step_wf s h t hst

/-!
SUPPORT. Scalar floating point: the operands that PREC selects, when a compare is invalid, and that a code converted to its
own format comes back as it is.
-/

namespace Sys2Proof.Machine

theorem bitsAt_zero (x w : Nat) : bitsAt x 0 w = x % 2 ^ w := by simp [bitsAt]

theorem State.fpReg_eq (s : State) (prec : Bool) (r : BitVec 6) :
    s.fpReg prec r = if prec = true then (s.rs r).toNat else (s.rs r).toNat % 2 ^ 32 := by
  rw [State.fpReg, bitsAt_zero]

/-- A scalar floating-point slot of a bundle that issues has the register and the flags of its meaning land. -/
theorem GivesResult.of_fp {i : Instr} {s : State} {d : BitVec 6} {v : State → Nat × Flags} {y : Nat × Flags}
    (h : s.Issues) (hi : exec i s = fpSlot i d v s) (hv : v s = y) :
    GivesResult i s 4 (.sreg d (.ofNat 64 y.1) y.2) :=
  hv ▸ ⟨_, hi.trans (fpSlot_issues h), s.later_landsAt _ _ _⟩

/-! ### Compares (R132) -/

theorem isNan_of_isSnan {f : FFmt} {x : Nat} (h : isSnan f x = true) : isNan f x = true := by
  unfold isSnan at h
  unfold isNan
  split at h
  · rfl
  · exact absurd h (by simp)

/-- Only a NaN operand makes a compare invalid. -/
theorem isNan_of_fpCmp_invalid {f : FFmt} {c : FCond} {a b : Nat} (h : (fpCmp f c a b).2 = true) :
    isNan f a = true ∨ isNan f b = true := by
  have hs : isSnan f a = true ∨ isSnan f b = true → isNan f a = true ∨ isNan f b = true :=
    Or.imp isNan_of_isSnan isNan_of_isSnan
  cases c <;> simp only [fpCmp, Bool.or_eq_true] at h
  case lt | le => exact h
  all_goals exact hs h

/-- `EQ`, `LT` and `LE` hold of numbers only. -/
theorem not_isNan_of_fpCmp {f : FFmt} {c : BitVec 3} {a b : Nat} (hc : c.toNat ≤ 2)
    (h : (fpCmp f (fcondOf c) a b).1 = true) : isNan f a = false ∧ isNan f b = false := by
  have hn : (!(isNan f a || isNan f b)) = true → isNan f a = false ∧ isNan f b = false := by simp
  unfold fcondOf at h
  split at h
  · exact hn (Bool.and_eq_true_iff.1 h).1
  · exact hn (Bool.and_eq_true_iff.1 h).1
  · exact hn (Bool.and_eq_true_iff.1 h).1
  · next h0 h1 h2 =>
    have : ∀ n : Nat, n ≤ 2 → n ≠ 0 → n ≠ 1 → n ≠ 2 → False := by omega
    exact (this _ hc h0 h1 h2).elim

/-! ### Conversion of a format to itself (R41) -/

/-- A format of the IEEE form: its largest finite value has the last exponent code but one and a mantissa of ones. -/
structure FFmt.Ieee (f : FFmt) : Prop where
  ieee : f.ieee = true
  maxE : f.maxE + 2 = 2 ^ f.eb
  maxM : f.maxM + 1 = 2 ^ f.mb

theorem fp32_ieee : fp32.Ieee := ⟨rfl, rfl, rfl⟩

theorem fp64_ieee : fp64.Ieee := ⟨rfl, rfl, rfl⟩

/-- A code is made of its sign, its exponent field and its mantissa field. -/
theorem packBits_fields {f : FFmt} {x : Nat} (hx : x < 2 ^ (f.eb + f.mb + 1)) :
    packBits f (signOf f x) (bitsAt x f.mb f.eb) (bitsAt x 0 f.mb) = x := by
  have hp : 2 ^ (f.eb + f.mb) = 2 ^ f.mb * 2 ^ f.eb := by rw [pow_add, mul_comm]
  have hs : b2n (signOf f x) = x / 2 ^ (f.eb + f.mb) := by
    have h2 : x / 2 ^ (f.eb + f.mb) < 2 := Nat.div_lt_of_lt_mul (by rwa [pow_succ] at hx)
    simp only [signOf, bitAt, b2n, beq_iff_eq]
    generalize x / 2 ^ (f.eb + f.mb) = n at h2 ⊢
    split <;> omega
  have he := Nat.div_add_mod (x / 2 ^ f.mb) (2 ^ f.eb)
  have hm := Nat.div_add_mod x (2 ^ f.mb)
  rw [packBits, hs, bitsAt_zero, bitsAt, hp, ← Nat.div_div_eq_div_mul]
  calc x / 2 ^ f.mb / 2 ^ f.eb * (2 ^ f.mb * 2 ^ f.eb) + x / 2 ^ f.mb % 2 ^ f.eb * 2 ^ f.mb + x % 2 ^ f.mb
      = 2 ^ f.mb * (2 ^ f.eb * (x / 2 ^ f.mb / 2 ^ f.eb) + x / 2 ^ f.mb % 2 ^ f.eb) + x % 2 ^ f.mb := by ring
    _ = x := by rw [he, hm]

/-- A multiple of the last place is its own rounding. -/
theorem roundAt_self (md : RMode) (s : Bool) (m : Nat) (e : Int) : roundAt md s m e e = (m, false) := by
  simp [roundAt]

/-- A zero or a subnormal value is its own rounding. -/
theorem roundTo_subnormal (f : FFmt) (md : RMode) (sat s : Bool) {m : Nat} (hm : m < 2 ^ f.mb) :
    roundTo f md sat s m (emin f) = (packBits f s 0 m, noFlags) := by
  by_cases h0 : m = 0
  · simp [roundTo, h0]
  · have hlog : Nat.log2 m < f.mb := (Nat.log2_lt h0).2 hm
    have hq : emin f + ((Nat.log2 m + 1 : Nat) : Int) - ((f.mb : Int) + 1) < emin f := by omega
    have hne : m ≠ 2 ^ (f.mb + 1) := by rw [pow_succ]; omega
    simp only [roundTo, if_neg h0, if_pos hq, roundAt_self, if_neg hne, if_pos hm, Bool.and_false]
    rfl

/-- A normal value is its own rounding. -/
theorem roundTo_normal {f : FFmt} (hf : f.Ieee) (md : RMode) (sat s : Bool) {e m : Nat} (he : e ≠ 0) (he' : e ≤ f.maxE)
    (hm : m < 2 ^ f.mb) :
    roundTo f md sat s (2 ^ f.mb + m) ((e : Int) - f.bias - f.mb) = (packBits f s e m, noFlags) := by
  have h0 : 2 ^ f.mb + m ≠ 0 := by have := Nat.two_pow_pos f.mb; omega
  have hlog : Nat.log2 (2 ^ f.mb + m) = f.mb := by
    rw [Nat.log2_eq_iff h0, pow_succ]
    omega
  have htop : (e : Int) - f.bias - f.mb + ((f.mb + 1 : Nat) : Int) - ((f.mb : Int) + 1) = (e : Int) - f.bias - f.mb := by
    push_cast
    ring
  have hq : ¬ (e : Int) - f.bias - f.mb < emin f := by unfold emin; omega
  have hne : 2 ^ f.mb + m ≠ 2 ^ (f.mb + 1) := by rw [pow_succ]; omega
  have hec : ((e : Int) - f.bias - f.mb + f.bias + f.mb).toNat = e := by omega
  have hmax : ¬ (f.maxE < e ∨ e = f.maxE ∧ f.maxM < m) := by have := hf.maxM; omega
  have hnorm : ¬ 2 ^ f.mb + m < 2 ^ f.mb := by omega
  simp only [roundTo, if_neg h0, hlog, htop, if_neg hq, roundAt_self, if_neg hne, if_neg hnorm, hec,
    Nat.add_sub_cancel_left, if_neg hmax, Bool.and_false]
  rfl

/-- A code of an IEEE format converted to the same format comes back, a NaN and an infinity included, and sets no flag. -/
theorem cvt_self {c : Nat} {f : FFmt} (hf : f.Ieee) (hc : ffmtOf c = some f) (hw : elemBits c = f.eb + f.mb + 1)
    (md : RMode) (sat : Bool) (x : Nat) : cvt c c md sat x = (x % 2 ^ elemBits c, noFlags) := by
  have hx : x % 2 ^ elemBits c < 2 ^ (f.eb + f.mb + 1) := by
    rw [hw]
    exact Nat.mod_lt _ (Nat.two_pow_pos _)
  have h10 : (c == 10) = false := beq_false_of_ne fun h => by simp [h, ffmtOf] at hc
  have hv : valueOf c x = unpack f (x % 2 ^ elemBits c) := by simp [valueOf, hc]
  generalize x % 2 ^ elemBits c = y at hx hv
  have hpack := packBits_fields hx
  have he : bitsAt y f.mb f.eb < 2 ^ f.eb := Nat.mod_lt _ (Nat.two_pow_pos _)
  have hm : bitsAt y 0 f.mb < 2 ^ f.mb := Nat.mod_lt _ (Nat.two_pow_pos _)
  have hmax := hf.maxE
  simp only [unpack, hf.ieee, Bool.true_and, Bool.not_true, Bool.false_and, Bool.false_eq_true, if_false, beq_iff_eq] at hv
  by_cases htop : bitsAt y f.mb f.eb = 2 ^ f.eb - 1
  · rw [if_pos htop] at hv
    by_cases hm0 : bitsAt y 0 f.mb = 0
    · rw [if_pos hm0] at hv
      rw [hm0, htop] at hpack
      simp [cvt, hv, hc, h10, roundFV, hf.ieee, infCode, hpack, orFlags, noFlags]
    · rw [if_neg hm0] at hv
      simp [cvt, hv, hc, h10, hasNan, hf.ieee, noFlags]
  · rw [if_neg htop] at hv
    by_cases he0 : bitsAt y f.mb f.eb = 0
    · rw [if_pos he0] at hv
      rw [he0] at hpack
      simp [cvt, hv, hc, h10, roundTo_subnormal f md sat _ hm, hpack, orFlags, noFlags]
    · rw [if_neg he0] at hv
      simp [cvt, hv, hc, h10, roundTo_normal hf md sat _ he0 (by omega) hm, hpack, orFlags, noFlags]

theorem cvt_fp32_self (md : RMode) (sat : Bool) (x : Nat) : cvt 0 0 md sat x = (x % 2 ^ 32, noFlags) :=
  cvt_self fp32_ieee rfl rfl md sat x

theorem cvt_fp64_self (md : RMode) (sat : Bool) (x : Nat) : cvt 11 11 md sat x = (x % 2 ^ 64, noFlags) :=
  cvt_self fp64_ieee rfl rfl md sat x

/-- The two's complement value of 32 bits as a code of INT32. -/
theorem intCode_sextNat (x : Nat) : intCode 9 (sextNat x 32) = x % 2 ^ 32 := by
  simp only [intCode, sextNat, elemBits]
  split <;> omega

/-- An INT32 converted to INT32 comes back and sets no flag. -/
theorem cvt_int32_self (md : RMode) (sat : Bool) (x : Nat) : cvt 9 9 md sat x = (x % 2 ^ 32, noFlags) := by
  have hv : valueOf 9 x = .fin (decide (sextNat x 32 < 0)) (sextNat x 32).natAbs 0 := rfl
  have hlo : ¬ sextNat x 32 < -2147483648 := by simp only [sextNat]; split <;> omega
  have hhi : ¬ 2147483647 < sextNat x 32 := by simp only [sextNat]; split <;> omega
  have hr : roundInt md (decide (sextNat x 32 < 0)) (sextNat x 32).natAbs 0 = (sextNat x 32, false) := by
    simp only [roundInt, roundAt_self, decide_eq_true_eq, Prod.mk.injEq, and_true]
    split <;> omega
  simp [cvt, hv, ffmtOf, hr, intRange, hlo, hhi, satInt, intCode_sextNat, orFlags, noFlags]

end Sys2Proof.Machine

open Sys2Proof Sys2Proof.Machine in
/-- Settles O5: the slots by `GivesResult.of_fp`, the compares by the cases of the condition, and the conversions to the same
format by `cvt_self` and `cvt_int32_self`. -/
theorem scalarFloatSlotsGiveResultAndFlags : Obligations.ScalarFloatSlotsGiveResultAndFlags := by
  unfold Obligations.ScalarFloatSlotsGiveResultAndFlags
  intro s o h f x m gives test code
  have hx : s.fpReg o.prec = x := funext (s.fpReg_eq o.prec)
  have hcvt : gives (.fcvt o)
      (if o.tf = 9 then ((BitVec.ofNat 32 code.1).signExtend 64).toNat else code.1, code.2) :=
    .of_fp h (exec_fcvt o s) (by rw [bitsAt_zero])
  refine ⟨.of_fp h (exec_fadd o s) (by rw [hx]; rfl), .of_fp h (exec_fsub o s) (by rw [hx]; rfl),
    .of_fp h (exec_fmul o s) (by rw [hx]; rfl), .of_fp h (exec_ffma o s) (by rw [hx]; rfl),
    .of_fp h (exec_fmin o s) (by rw [hx]; rfl), .of_fp h (exec_fmax o s) (by rw [hx]; rfl), ?_,
    fun ht hc => not_isNan_of_fpCmp hc ht, isNan_of_fpCmp_invalid, hcvt, ?_, ?_, ?_⟩
  · refine ⟨_, (exec_fcmp o s).trans (slotRun_issues h), ?_⟩
    rw [hx]
    exact s.later_landsAt _ _ _
  · intro he h0
    have hcode : code = ((s.rs o.a).toNat % 2 ^ 32, noFlags) := by
      simp only [code, ← he, h0]
      exact (cvt_fp32_self m o.sat _).trans (by rw [if_neg (by decide), Nat.mod_mod])
    rw [if_neg (by rw [← he, h0]; decide), hcode] at hcvt
    exact hcvt
  · intro he h11
    have hcode : code = ((s.rs o.a).toNat, noFlags) := by
      simp only [code, ← he, h11]
      exact (cvt_fp64_self m o.sat _).trans (by rw [if_pos trivial, Nat.mod_eq_of_lt (s.rs o.a).isLt])
    rw [if_neg (by rw [← he, h11]; decide), hcode] at hcvt
    exact hcvt
  · intro he h9
    have hcode : code = ((s.rs o.a).toNat % 2 ^ 32, noFlags) := by
      simp only [code, ← he, h9]
      exact (cvt_int32_self m o.sat _).trans (by rw [if_neg (by decide), Nat.mod_mod])
    have hlow : BitVec.ofNat 32 code.1 = (s.rs o.a).setWidth 32 := by
      rw [hcode]
      exact BitVec.eq_of_toNat_eq (by simp)
    rw [if_pos (he ▸ h9), hlow, hcode] at hcvt
    refine ⟨_, ?_, hcvt⟩
    simpa using BitVec.toInt_signExtend_of_le (x := (s.rs o.a).setWidth 32) (show 32 ≤ 64 by decide)

/-!
SUPPORT. Writes of control registers: which part of the state holds a register, and what a write does to that part.
-/

namespace Sys2Proof.Machine

/-- The register is one of the context: neither the pump, the ordering state, the window, the ports, the fabric nor the error
state of the die holds it. -/
def ctxHolds (n : Nat) : Bool :=
  !(decide (0x080 ≤ n) && decide (n ≤ 0x086)) && !(decide (0x0C0 ≤ n) && decide (n ≤ 0x0C2)) &&
    !(decide (0x0C8 ≤ n) && decide (n ≤ 0x0CE)) && !(decide (0x0E0 ≤ n) && decide (n ≤ 0x0F0)) &&
    !(decide (0x100 ≤ n) && decide (n ≤ 0x10C))

variable (s : State) {n : Nat} (how : Nat) (v : Word)

theorem State.csrWrite_ctx (hn : ctxHolds n = true) :
    s.csrWrite n how v = s.modCtx fun c => c.csrWrite n how v (csrValue how (s.csrRead n) v) := by
  simp only [ctxHolds, Bool.and_eq_true, Bool.not_eq_true', Bool.and_eq_false_iff, decide_eq_false_iff_not] at hn
  unfold State.csrWrite
  dsimp only
  rw [if_neg (by omega), if_neg (by omega), if_neg (by omega), if_neg (by omega), if_neg (by omega), if_neg (by omega)]

theorem State.csrWrite_pump (hn : 0x080 ≤ n ∧ n ≤ 0x086) :
    s.csrWrite n how v = s.modPump fun p => p.csrWrite n how v (csrValue how (s.csrRead n) v) := if_pos hn

theorem State.csrWrite_ord (hn : 0x0C0 ≤ n ∧ n ≤ 0x0C2) :
    s.csrWrite n how v = s.modOrd fun o => o.csrWrite n how v (csrValue how (s.csrRead n) v) := by
  unfold State.csrWrite
  dsimp only
  rw [if_neg (by omega), if_pos hn]

theorem State.csrWrite_win (hn : 0x0C8 ≤ n ∧ n ≤ 0x0CE) :
    s.csrWrite n how v =
      s.modDie fun d => { d with win := d.win.csrWrite n how v (csrValue how (s.csrRead n) v) } := by
  unfold State.csrWrite
  dsimp only
  rw [if_neg (by omega), if_neg (by omega), if_pos hn]

theorem State.csrWrite_err (hn : 0x100 ≤ n ∧ n ≤ 0x10C) :
    s.csrWrite n how v = s.modErr fun e => e.csrWrite n how v (csrValue how (s.csrRead n) v) := by
  unfold State.csrWrite
  dsimp only
  rw [if_neg (by omega), if_neg (by omega), if_neg (by omega), if_neg (by omega), if_neg (by omega), if_pos hn]

/-- A read-only register of the context keeps its value. -/
theorem Ctx.csrWrite_readOnly (c : Ctx) (new : Word)
    (hn : n ∉ [0x010, 0x011, 0x012, 0x030, 0x031, 0x064, 0x065, 0x066, 0x067, 0x068, 0x069, 0x06A, 0x06B]) :
    c.csrWrite n how v new = c := by
  unfold Ctx.csrWrite
  split
  case h_14 => rfl
  all_goals exact (hn (by decide)).elim

theorem Pump.csrWrite_idle (p : Pump) (new : Word) : p.csrWrite 0x080 how v new =
    { p with idleThresh := max 16 (new.toNat % 2 ^ 16), refpost := new.toNat / 2 ^ 16 % 2 ^ 4 } := by
  rw [Pump.csrWrite, bitsAt_zero, bitsAt]

theorem Pump.csrWrite_trefw (p : Pump) (new : Word) :
    p.csrWrite 0x085 how v new = { p with trefw := new.toNat % 2 ^ 32 } := by
  rw [Pump.csrWrite, bitsAt_zero]

theorem Order.csrWrite_qctl (o : Order) (new : Word) : o.csrWrite 0x0C0 how v new =
    { o with qlog2 := new.toNat % 2 ^ 4, cbwait := new.toNat / 2 ^ 8 % 2 ^ 8 } := by
  rw [Order.csrWrite, bitsAt_zero, bitsAt]

theorem Win.csrWrite_treal (w : Win) (new : Word) :
    w.csrWrite 0x0CE how v new = { w with treal := new.toNat % 2 ^ 32 } := by
  rw [Win.csrWrite, bitsAt_zero]

theorem Err.csrWrite_limit (e : Err) (new : Word) : e.csrWrite 0x109 how v new =
    { e with limit := new.toNat % 2 ^ 24, limEn := new.getLsbD 24 } := by
  simp only [Err.csrWrite, bitsAt_zero]

/-- A step that writes a register answers the state after the write. -/
theorem registerWrite_completes {s t : State} {csr : BitVec 12} {how : BitVec 2} {v : Word}
    (h : s.csrWrite csr.toNat how.toNat v = t) : Completes (.registerWrite csr how v) s fun u => u = t :=
  ⟨_, exec_registerWrite csr how v s, h⟩

/-- A write to a register of the context, of which `f` says what it does. -/
theorem registerWrite_ctx {s : State} {csr : BitVec 12} {how : BitVec 2} {v : Word} {f : Ctx → Ctx}
    (hn : ctxHolds csr.toNat = true)
    (hf : ∀ c : Ctx, c.csrWrite csr.toNat how.toNat v (csrValue how.toNat (s.csrRead csr.toNat) v) = f c) :
    Completes (.registerWrite csr how v) s fun u => u = s.modCtx f :=
  registerWrite_completes ((s.csrWrite_ctx _ _ hn).trans (congrArg s.modCtx (funext hf)))

end Sys2Proof.Machine

open Sys2Proof Sys2Proof.Machine in
/-- Settles O37: the part of the state that holds the register takes the write (`State.csrWrite_ctx` and its like), and the
equation of the register says what changes of it. -/
theorem registerWritesChangeTheirFields : Obligations.RegisterWritesChangeTheirFields := by
  unfold Obligations.RegisterWritesChangeTheirFields
  intro s how v new write ctx
  have hset : how ≠ 3 → (how.toNat != 3) = true := fun h =>
    bne_iff_ne.2 fun e => h (BitVec.eq_of_toNat_eq e)
  have hkept : ∀ n ∈ [0x013, 0x060, 0x061, 0x062, 0x063, 0x06C, 0x140, 0x141, 0x142, 0x143, 0x144, 0x145, 0x147],
      ctxHolds (BitVec.ofNat 12 n).toNat = true ∧ (BitVec.ofNat 12 n).toNat ∉
        [0x010, 0x011, 0x012, 0x030, 0x031, 0x064, 0x065, 0x066, 0x067, 0x068, 0x069, 0x06A, 0x06B] := by decide
  refine ⟨registerWrite_ctx rfl fun _ => rfl, fun h => ?_, fun h => ?_, registerWrite_ctx rfl fun _ => rfl,
    registerWrite_ctx rfl fun _ => rfl, fun h => ?_, registerWrite_ctx rfl fun _ => rfl, registerWrite_ctx rfl fun _ => rfl,
    registerWrite_ctx rfl fun _ => rfl, registerWrite_ctx rfl fun _ => rfl, fun k => ?_, fun n hn => ?_,
    registerWrite_completes ?_, registerWrite_completes ?_, registerWrite_completes ?_, registerWrite_completes ?_,
    registerWrite_completes ?_, registerWrite_completes ?_⟩
  · -- `CSRC` leaves a field whose ones clear it.
    subst h
    exact registerWrite_ctx rfl fun c => by simp [Ctx.csrWrite]
  · exact registerWrite_ctx rfl fun c => by simp [Ctx.csrWrite, hset h]
  · have h3 : how.toNat ≠ 3 := bne_iff_ne.1 (hset h)
    exact registerWrite_ctx rfl fun c => by simp [Ctx.csrWrite, h3]
  · fin_cases k <;> exact registerWrite_ctx rfl fun _ => rfl
  · obtain ⟨hc, hr⟩ := hkept n hn
    exact registerWrite_completes ((s.csrWrite_ctx _ _ hc).trans
      ((congrArg s.modCtx (funext fun c => c.csrWrite_readOnly _ _ _ hr)).trans s.modCtx_id))
  · exact (s.csrWrite_pump _ _ (by decide)).trans (congrArg s.modPump (funext fun p => p.csrWrite_idle _ _ _))
  · exact (s.csrWrite_pump _ _ (by decide)).trans (congrArg s.modPump (funext fun p => p.csrWrite_trefw _ _ _))
  · exact (s.csrWrite_ord _ _ (by decide)).trans (congrArg s.modOrd (funext fun o => o.csrWrite_qctl _ _ _))
  · exact s.csrWrite_win _ _ (by decide)
  · exact (s.csrWrite_win _ _ (by decide)).trans
      (congrArg s.modDie (funext fun d => congrArg (fun w => { d with win := w }) (d.win.csrWrite_treal _ _ _)))
  · exact (s.csrWrite_err _ _ (by decide)).trans (congrArg s.modErr (funext fun e => e.csrWrite_limit _ _ _))

/-!
SUPPORT. Sparse maps that a fold changes key by key: what is read afterwards.
-/

namespace Sys2Proof

/-- A fold each of whose steps changes what is read at the step's own key, the keys all different: afterwards each key of
the fold has been changed once, and every other key reads as before. -/
theorem foldl_reads {σ ι β : Type} {read : σ → Nat → β} {ok : σ → Prop} {step : σ → ι → σ} {key : ι → Nat}
    {h : ι → β → β} (hok : ∀ x i, ok x → ok (step x i))
    (hstep : ∀ x i k, ok x → read (step x i) k = if k = key i then h i (read x k) else read x k)
    (l : List ι) (hl : (l.map key).Nodup) {x : σ} (hx : ok x) :
    (∀ i ∈ l, read (l.foldl step x) (key i) = h i (read x (key i))) ∧
      ∀ k, k ∉ l.map key → read (l.foldl step x) k = read x k := by
  induction l generalizing x with
  | nil => simp
  | cons i l ih =>
    obtain ⟨hi, hl⟩ := List.nodup_cons.1 hl
    obtain ⟨h1, h2⟩ := ih hl (hok x i hx)
    refine ⟨fun j hj => ?_, fun k hk => ?_⟩
    · rw [List.foldl_cons]
      rcases List.mem_cons.1 hj with rfl | hj
      · rw [h2 _ hi, hstep x j _ hx, if_pos rfl]
      · have hne : key j ≠ key i := fun e => hi (e ▸ List.mem_map_of_mem hj)
        rw [h1 j hj, hstep x i _ hx, if_neg hne]
    · obtain ⟨hki, hkl⟩ := not_or.1 (mt List.mem_cons.2 hk)
      rw [List.foldl_cons, h2 k hkl, hstep x i k hx, if_neg hki]

namespace SMap

variable {α : Type}

/-- What is read after a write. -/
theorem get_put [DecidableEq α] {d : α} {m : SMap α} (a b : Nat) (v : α) (h : wf d m = true) :
    get d (put d m a v) b = if b = a then v else get d m b := by
  split
  · next hb => rw [hb, get_put_self a v h]
  · next hb => exact get_put_ne v h hb

/-- A key that is not listed reads as the default. -/
theorem get_of_not_mem {d : α} {m : SMap α} {k : Nat} (h : k ∉ m.map Prod.fst) : get d m k = d := by
  induction m with
  | nil => rfl
  | cons p m ih =>
    obtain ⟨hp, hm⟩ := not_or.1 (mt List.mem_cons.2 h)
    rw [get, if_neg hp, ih hm, ite_self]

/-- A fold each of whose steps writes one key of a map, the keys all different: afterwards each key of the fold has been
changed once, and every other key reads as before. -/
theorem get_foldl_put [DecidableEq α] {σ : Type} {d : α} {map : σ → SMap α} {step : σ → Nat → σ}
    {h : Nat → α → α} (hstep : ∀ x k, map (step x k) = put d (map x) k (h k (get d (map x) k))) {ks : List Nat}
    (hk : ks.Nodup) {x : σ} (hx : wf d (map x) = true) (k : Nat) :
    get d (map (ks.foldl step x)) k = if k ∈ ks then h k (get d (map x) k) else get d (map x) k := by
  obtain ⟨h1, h2⟩ := foldl_reads (read := fun x => get d (map x)) (ok := fun x => wf d (map x) = true) (key := id)
    (h := h) (step := step) (fun x k hx => hstep x k ▸ put_wf _ _ hx)
    (fun x i k hx => by
      rw [hstep, get_put _ _ _ hx, id]
      split
      · next e => rw [e]
      · rfl) ks (by rwa [List.map_id]) hx
  split
  · next hm => exact h1 k hm
  · next hm => exact h2 k (by rwa [List.map_id])

end SMap

end Sys2Proof

/-!
SUPPORT. The cells that a step of the matrix array changes, and that the others would not change: a product with a lane of
zero is a zero (R44, R45, R47, R175).
-/

namespace Sys2Proof.Machine

/-! ### The array -/

@[simp] theorem Mxu.acc_setSteps (m : Mxu) (b c : Bool) (n : BitVec 32) : (m.setSteps b n).acc c = m.acc c := by
  cases b <;> rfl

@[simp] theorem Mxu.p_setSteps (m : Mxu) (b : Bool) (n : BitVec 32) : (m.setSteps b n).p = m.p := by cases b <;> rfl

@[simp] theorem Mxu.pf_setSteps (m : Mxu) (b : Bool) (n : BitVec 32) : (m.setSteps b n).pf = m.pf := by cases b <;> rfl

@[simp] theorem Mxu.acc_setAcc_self (m : Mxu) (b : Bool) (x : SMap Word32) : (m.setAcc b x).acc b = x := by
  cases b <;> rfl

@[simp] theorem State.bayAt_setFlags (s : State) (f : Flags) (b : BayIx) : (s.setFlags f).bayAt b = s.bayAt b := by
  simp [State.bayAt, Ctx.bayAt, State.setFlags]

theorem Mxu.land_products (m : Mxu) {x : MxStep} (hh : x.hold = false) (hf : x.fa ≠ 11) :
    m.land x = (m.setSteps x.bank (m.steps x.bank + 1)).products x := by
  rw [Mxu.land, if_neg hf, hh, if_neg Bool.false_ne_true]

/-- A step that lands leaves in its bay the array that its products make, of the cells as they stood. -/
theorem mxStepLanding_completes {s : State} {x : MxStep} {P : Mxu → Prop} (hh : x.hold = false) (hf : x.fa ≠ 11)
    (hP : ∀ m : Mxu, m.acc x.bank = (s.bayAt x.bay).mxu.acc x.bank → m.p = (s.bayAt x.bay).mxu.p →
      m.pf = (s.bayAt x.bay).mxu.pf → P (m.products x).1) :
    Completes (.mxStepLanding x) s fun t => P (t.bayAt x.bay).mxu := by
  have he : exec (.mxStepLanding x) s = .next ((s.modMxu x.bay fun _ => ((s.bayAt x.bay).mxu.land x).1).setFlags
      ((s.bayAt x.bay).mxu.land x).2) := rfl
  refine ⟨_, he, ?_⟩
  simp only [State.bayAt_setFlags, State.modMxu, State.bayAt_modBay_self, Mxu.land_products _ hh hf]
  exact hP _ (by simp) (by simp) (by simp)

/-- Every cell of a list is changed once, and the others stay. -/
theorem get_overCells (f : Nat → Word32 → Word32 × Flags) {ks : List Nat} (hk : ks.Nodup) {m : SMap Word32}
    (hm : SMap.wf 0 m = true) (k : Nat) :
    SMap.get 0 (overCells f ks m).1 k = if k ∈ ks then (f k (SMap.get 0 m k)).1 else SMap.get 0 m k :=
  SMap.get_foldl_put (map := Prod.fst) (h := fun k v => (f k v).1) (fun _ _ => rfl) hk (x := (m, noFlags)) hm k

/-! ### The cells of a step -/

theorem mem_busy {l : List Lane} {i : Nat} (hi : i < l.length) (h : l.getD i 0 ≠ 0) : i ∈ busy l := by
  simp only [busy, List.mem_map, List.mem_filter, bne_iff_ne]
  refine ⟨(l.getD i 0, i), ⟨?_, h⟩, rfl⟩
  rw [List.mk_mem_zipIdx_iff_getElem?, List.getD_eq_getElem _ _ hi, List.getElem?_eq_getElem hi]

theorem stepCells_nodup {α : Type} (fa fb : Nat) (a b : List Lane) (m : SMap α) : (stepCells fa fb a b m).Nodup := by
  unfold stepCells
  split
  · exact List.nodup_range
  · exact List.nodup_dedup _

/-- What holds of a cell that a step need not change: no lane has an infinity or a NaN, the cell is not listed, and the lane
of its row or that of its column is zero. -/
theorem of_not_mem_stepCells {α : Type} {fa fb : Nat} {a b : List Lane} {m : SMap α} {k : Nat} (hk : k < 65536)
    (ha : a.length = 256) (hb : b.length = 256) (h : k ∉ stepCells fa fb a b m) :
    (special fa (a.getD (k / 256) 0) = false ∧ special fb (b.getD (k % 256) 0) = false) ∧ k ∉ m.map Prod.fst ∧
      (a.getD (k / 256) 0 = 0 ∨ b.getD (k % 256) 0 = 0) := by
  have hi : k / 256 < a.length := by omega
  have hj : k % 256 < b.length := by omega
  unfold stepCells at h
  split at h
  · exact absurd (List.mem_range.2 hk) h
  · next hs =>
    simp only [Bool.or_eq_true, List.any_eq_true, not_or, not_exists, not_and, Bool.not_eq_true] at hs
    simp only [List.mem_dedup, List.mem_append, List.mem_flatMap, not_or, not_exists, not_and] at h
    refine ⟨⟨hs.1 _ ?_, hs.2 _ ?_⟩, h.1, ?_⟩
    · rw [List.getD_eq_getElem _ _ hi]
      exact List.getElem_mem hi
    · rw [List.getD_eq_getElem _ _ hj]
      exact List.getElem_mem hj
    · by_contra hne
      obtain ⟨h1, h2⟩ := not_or.1 hne
      exact h.2 _ (mem_busy hi h1) (List.mem_map.2 ⟨_, mem_busy hj h2, by omega⟩)

/-! ### Zeros -/

/-- A zero of either sign. -/
def FV.IsZero (v : FV) : Prop := ∃ s e, v = .fin s 0 e

theorem eb_of_ffmtOf {c : Nat} {f : FFmt} (h : ffmtOf c = some f) : f.eb ≠ 0 := by
  unfold ffmtOf at h
  split at h <;> cases h <;> decide

theorem unpack_zero {f : FFmt} (h : f.eb ≠ 0) : unpack f 0 = .fin false 0 (emin f) := by
  have h1 : 0 ≠ 2 ^ f.eb - 1 := by have := Nat.one_lt_two_pow h; omega
  simp [unpack, signOf, bitAt, bitsAt, h1]

theorem eq_zero_of_mem_laneElems {c e : Nat} (h : e ∈ laneElems c 0) : e = 0 := by
  unfold laneElems at h
  dsimp only at h
  split at h
  · cases h
  · obtain ⟨j, -, rfl⟩ := List.mem_map.1 h
    simp [elemAt, bitsAt]

/-- Every element of a lane without an infinity or a NaN is finite. -/
theorem finite_of_not_special {c : Nat} {f : FFmt} {x : Lane} (hf : ffmtOf c = some f) (hx : special c x = false) {e : Nat}
    (he : e ∈ laneElems c x) : ∃ s m q, unpack f e = .fin s m q := by
  simp only [special, hf, List.any_eq_false] at hx
  have := hx e he
  split at this
  · next h => exact ⟨_, _, _, h⟩
  · exact absurd rfl this

theorem beatProduct_fin {f g : FFmt} {x y : Nat} {s t : Bool} {m n : Nat} {p q : Int} (hx : unpack f x = .fin s m p)
    (hy : unpack g y = .fin t n q) : beatProduct f g x y = (some (.fin (s != t) (m * n) (p + q)), false) := by
  simp [beatProduct, isNan, hx, hy, mulFV]

/-- Without infinities and NaNs, the products of a zero lane are zeros that set no flag. -/
theorem cellProducts_zero {fa fb : Nat} {a b : Lane} (ha : special fa a = false) (hb : special fb b = false)
    (h : a = 0 ∨ b = 0) : ∀ p ∈ cellProducts fa fb a b, ∃ v, p = (some v, false) ∧ v.IsZero := by
  intro p hp
  unfold cellProducts at hp
  split at hp
  · next f g hf hg =>
    rw [← List.map_uncurry_zip_eq_zipWith] at hp
    obtain ⟨⟨x, y⟩, hxy, rfl⟩ := List.mem_map.1 hp
    obtain ⟨hx, hy⟩ := List.of_mem_zip hxy
    obtain ⟨s, m, e, hux⟩ := finite_of_not_special hf ha hx
    obtain ⟨t, n, e', huy⟩ := finite_of_not_special hg hb hy
    have hmn : m * n = 0 := by
      rcases h with rfl | rfl
      · rw [eq_zero_of_mem_laneElems hx, unpack_zero (eb_of_ffmtOf hf)] at hux
        cases hux
        exact Nat.zero_mul n
      · rw [eq_zero_of_mem_laneElems hy, unpack_zero (eb_of_ffmtOf hg)] at huy
        cases huy
        exact Nat.mul_zero m
    exact ⟨_, beatProduct_fin hux huy, s != t, e + e', by rw [hmn]⟩
  · cases hp

/-! ### Cells of a zero lane -/

theorem minExp_zeros {l : List FV} (h : ∀ v ∈ l, v.IsZero) : minExp l = none := by
  induction l with
  | nil => rfl
  | cons v l ih =>
    obtain ⟨s, e, rfl⟩ := h v List.mem_cons_self
    rw [minExp, if_pos rfl, ih fun w hw => h w (List.mem_cons_of_mem _ hw)]

theorem any_inf_zeros {l : List FV} (h : ∀ v ∈ l, v.IsZero) (s : Bool) : (l.any fun v => v == .inf s) = false := by
  rw [List.any_eq_false]
  intro v hv
  obtain ⟨t, e, rfl⟩ := h v hv
  simp

/-- The sum of +0 and zeros is +0, rounded to nearest. -/
theorem sumFV_zeros {e : Int} {l : List FV} (h : ∀ v ∈ l, v.IsZero) :
    sumFV .rne (.fin false 0 e :: l) = some (.fin false 0 0) := by
  have hl : ∀ v ∈ FV.fin false 0 e :: l, v.IsZero := List.forall_mem_cons.2 ⟨⟨false, e, rfl⟩, h⟩
  have hneg : allZero true (.fin false 0 e :: l) = false := rfl
  have hrne : (RMode.rne == RMode.rdn) = false := rfl
  simp only [sumFV, any_inf_zeros hl, minExp_zeros hl, hneg, hrne]
  simp

/-- An accumulator that holds +0 keeps it when zeros are added. -/
theorem accAdd_zeros {l : List FV} (h : ∀ v ∈ l, v.IsZero) : (accAdd 0 l).1 = 0 := by
  have hn : isNan fp32 0 = false := rfl
  have hu : unpack fp32 0 = .fin false 0 (emin fp32) := rfl
  rw [accAdd, hn, if_neg Bool.false_ne_true, hu, sumFV_zeros h]
  rfl

/-- A step leaves +0 in a cell of a zero lane. -/
theorem fpCell_zero {fa fb : Nat} {a b : Lane} (ha : special fa a = false) (hb : special fb b = false)
    (h : a = 0 ∨ b = 0) : (fpCell fa fb a b 0).1 = 0 := by
  have hp := cellProducts_zero ha hb h
  have hany : ((cellProducts fa fb a b).any fun p => p.1 == none) = false := by
    rw [List.any_eq_false]
    intro p hm
    obtain ⟨v, rfl, -⟩ := hp p hm
    simp
  rw [fpCell, hany, if_neg Bool.false_ne_true]
  refine accAdd_zeros fun v hv => ?_
  obtain ⟨p, hm, hpv⟩ := List.mem_filterMap.1 hv
  obtain ⟨w, rfl, hw⟩ := hp p hm
  cases hpv
  exact hw

/-- A zero adds nothing to a partial sum. -/
theorem partialOf_zero (q : Int) (s : Bool) (e : Int) : partialOf q s 0 e = 0 := by
  simp [partialOf, roundAt, roundUp, b2n]

/-- A step adds nothing to the partial sum of a cell of a zero lane, and sets no flag of it. -/
theorem mxCell_zero {fa fb : Nat} {a b : Lane} (ha : special fa a = false) (hb : special fb b = false)
    (h : a = 0 ∨ b = 0) : mxCell fa fb a b = (0, 0, false) := by
  have hp := cellProducts_zero ha hb h
  unfold mxCell
  generalize cellProducts fa fb a b = l at hp
  induction l with
  | nil => rfl
  | cons p l ih =>
    obtain ⟨v, rfl, s, e, rfl⟩ := hp p List.mem_cons_self
    rw [List.foldl_cons]
    simpa [partialOf_zero] using ih fun q hq => hp q (List.mem_cons_of_mem _ hq)

/-- A zero lane selects nothing. -/
theorem ternSel_zero (t : Nat) : ternSel 0 t = 0 := by
  unfold ternSel
  split <;> rfl

/-- A selected activation is at most 128 in size. -/
theorem ternSel_bounds (a : Byte) (t : Nat) : -128 ≤ ternSel a t ∧ ternSel a t ≤ 128 := by
  have h1 := a.toInt_lt
  have h2 := a.le_toInt
  unfold ternSel
  split <;> omega

theorem ternCell_eq (tsel : Nat) (a b : Lane) (v : Word32) : ternCell tsel a b v = v + BitVec.ofInt 32
    (ternSel (a.setWidth 8) (b.toNat / 2 ^ (4 * tsel) % 4) +
      ternSel ((a >>> 8).setWidth 8) (b.toNat / 2 ^ (4 * tsel + 2) % 4)) := rfl

/-- A ternary step changes a cell by the sum of the two activations that its digits select (R47). -/
theorem ternCell_sub_toInt (tsel : Nat) (a b : Lane) (v : Word32) : (ternCell tsel a b v - v).toInt =
    ternSel (a.setWidth 8) (b.toNat / 2 ^ (4 * tsel) % 4) +
      ternSel ((a >>> 8).setWidth 8) (b.toNat / 2 ^ (4 * tsel + 2) % 4) := by
  have h1 := ternSel_bounds (a.setWidth 8) (b.toNat / 2 ^ (4 * tsel) % 4)
  have h2 := ternSel_bounds ((a >>> 8).setWidth 8) (b.toNat / 2 ^ (4 * tsel + 2) % 4)
  rw [ternCell_eq, add_sub_cancel_left]
  exact BitVec.toInt_ofInt_eq_self (by decide) (by omega) (by omega)

/-- A ternary step leaves a cell of a zero lane. -/
theorem ternCell_zero {a b : Lane} (tsel : Nat) (v : Word32) (h : a = 0 ∨ b = 0) : ternCell tsel a b v = v := by
  have hb : ∀ n : Nat, (0 : Lane).toNat / 2 ^ n % 4 = 0 := by simp
  rcases h with rfl | rfl
  · have h8 : ((0 : Lane) >>> 8).setWidth 8 = (0 : Byte) := rfl
    have h0 : (0 : Lane).setWidth 8 = (0 : Byte) := rfl
    rw [ternCell_eq, h0, h8, ternSel_zero, ternSel_zero]
    exact BitVec.add_zero v
  · simp only [ternCell_eq, hb]
    exact BitVec.add_zero v

/-- What an MX step adds to the partial sum of cell `k`, the flags it sets there, and invalid (R45). -/
def mxCellOf (x : MxStep) (k : Nat) : Int × BitVec 3 × Bool :=
  mxCell x.fa x.fb (x.a.getD (k / 256) 0) (x.b.getD (k % 256) 0)

/-- An MX step changes cell `k`. -/
def mxChange (x : MxStep) (acc : Mxu × Flags) (k : Nat) : Mxu × Flags :=
  ({ acc.1 with
     p := SMap.put 0 acc.1.p k (SMap.get 0 acc.1.p k + BitVec.ofInt 48 (mxCellOf x k).1)
     pf := SMap.put 0 acc.1.pf k (SMap.get 0 acc.1.pf k ||| (mxCellOf x k).2.1) },
    orFlags acc.2 { iv := (mxCellOf x k).2.2 })

theorem Mxu.products_mxChange {x : MxStep} (m : Mxu) (hf : 5 ≤ x.fa ∧ x.fa ≤ 7) :
    m.products x = (stepCells x.fa x.fb x.a x.b ([] : SMap Word32)).foldl (mxChange x) (m, noFlags) := by
  simp only [Mxu.products, if_neg (show ¬ x.fa = 8 by omega), if_pos hf]
  rfl

/-! ### What the products of a step leave in a cell -/

section Products

variable {m : Mxu} {x : MxStep} {k : Nat} (hk : k < 65536) (ha : x.a.length = 256) (hb : x.b.length = 256)

include hk ha hb

/-- The BF16, FP16 and FP8 modes (R44). -/
theorem Mxu.products_fp (hf : x.fa ≤ 4) (hm : SMap.wf 0 (m.acc x.bank) = true) :
    SMap.get 0 ((m.products x).1.acc x.bank) k = .ofNat 32 (fpCell x.fa x.fb (x.a.getD (k / 256) 0) (x.b.getD (k % 256) 0)
      (SMap.get 0 (m.acc x.bank) k).toNat).1 := by
  simp only [Mxu.products, if_neg (show ¬ x.fa = 8 by omega), if_neg (show ¬ (5 ≤ x.fa ∧ x.fa ≤ 7) by omega),
    Mxu.acc_setAcc_self]
  rw [get_overCells _ (stepCells_nodup ..) hm]
  split
  · rfl
  · next h =>
    obtain ⟨⟨h1, h2⟩, h3, h4⟩ := of_not_mem_stepCells hk ha hb h
    rw [SMap.get_of_not_mem h3]
    exact (congrArg (BitVec.ofNat 32) (fpCell_zero h1 h2 h4)).symm

/-- The ternary mode (R47): the cell changes by the selected activations, modulo 2^32. -/
theorem Mxu.products_tern (hf : x.fa = 8) (hm : SMap.wf 0 (m.acc x.bank) = true) :
    SMap.get 0 ((m.products x).1.acc x.bank) k =
      ternCell x.tsel (x.a.getD (k / 256) 0) (x.b.getD (k % 256) 0) (SMap.get 0 (m.acc x.bank) k) := by
  simp only [Mxu.products, if_pos hf, Mxu.acc_setAcc_self]
  rw [get_overCells _ (stepCells_nodup ..) hm]
  split
  · rfl
  · next h =>
    obtain ⟨-, -, h0⟩ := of_not_mem_stepCells hk ha hb h
    exact (ternCell_zero _ _ h0).symm

/-- The MX modes (R45): what the step adds to the partial sum and the flags it sets. -/
theorem Mxu.products_mx (hf : 5 ≤ x.fa ∧ x.fa ≤ 7) (hp : SMap.wf 0 m.p = true) (hpf : SMap.wf 0 m.pf = true) :
    SMap.get 0 (m.products x).1.p k = SMap.get 0 m.p k + .ofInt 48 (mxCellOf x k).1 ∧
      SMap.get 0 (m.products x).1.pf k = SMap.get 0 m.pf k ||| (mxCellOf x k).2.1 := by
  have hnd := stepCells_nodup x.fa x.fb x.a x.b ([] : SMap Word32)
  have h1 := SMap.get_foldl_put (map := fun y : Mxu × Flags => y.1.p) (h := fun k v => v + .ofInt 48 (mxCellOf x k).1)
    (step := mxChange x) (fun _ _ => rfl) hnd (x := (m, noFlags)) hp k
  have h2 := SMap.get_foldl_put (map := fun y : Mxu × Flags => y.1.pf) (h := fun k v => v ||| (mxCellOf x k).2.1)
    (step := mxChange x) (fun _ _ => rfl) hnd (x := (m, noFlags)) hpf k
  rw [m.products_mxChange hf, h1, h2]
  split
  · exact ⟨rfl, rfl⟩
  · next h =>
    obtain ⟨⟨ha0, hb0⟩, -, h0⟩ := of_not_mem_stepCells hk ha hb h
    rw [mxCellOf, mxCell_zero ha0 hb0 h0]
    exact ⟨(BitVec.add_zero _).symm, BitVec.or_zero.symm⟩

end Products

end Sys2Proof.Machine

open Sys2Proof Sys2Proof.Machine in
/-- Settles O20: of the cells that the model lists by `get_overCells` and `foldl_reads`; of the others because a zero lane
changes nothing (`of_not_mem_stepCells`). -/
theorem matrixStepUpdatesEveryCell : Obligations.MatrixStepUpdatesEveryCell := by
  unfold Obligations.MatrixStepUpdatesEveryCell
  intro s x k hk ha hb hh m row col old hacc hp hpf
  refine ⟨fun hf => ?_, fun hf => ?_, fun hf => ?_⟩
  · refine mxStepLanding_completes (P := fun m' => SMap.get 0 (m'.acc x.bank) k = _) hh (by omega) fun m' h1 _ _ => ?_
    rw [Mxu.products_fp hk ha hb hf.2.1 (h1 ▸ hacc), h1]
  · refine mxStepLanding_completes (P := fun m' => (SMap.get 0 (m'.acc x.bank) k - old).toInt = _) hh (by omega)
      fun m' h1 _ _ => ?_
    rw [Mxu.products_tern hk ha hb hf.1 (h1 ▸ hacc), h1]
    exact ternCell_sub_toInt _ _ _ _
  · refine mxStepLanding_completes (P := fun m' => SMap.get 0 m'.p k = _ ∧ SMap.get 0 m'.pf k = _) hh (by omega)
      fun m' _ h2 h3 => ?_
    rw [← h2, ← h3]
    exact Mxu.products_mx hk ha hb ⟨hf.1, hf.2.1⟩ (h2 ▸ hp) (h3 ▸ hpf)

/-!
SUPPORT. Results that land (R67): what a write of a register leaves of the context, what a vector result leaves of a register
file, and the write of a part of a word that has no error.
-/

namespace Sys2Proof.Machine

/-! ### Registers (R123, R148) -/

@[simp] theorem Ctx.rp_ws (c : Ctx) (r : BitVec 6) (v : Word) (q : BitVec 4) : (c.ws r v).rp q = c.rp q := by
  unfold Ctx.ws
  split <;> rfl

@[simp] theorem Ctx.rh_ws (c : Ctx) (r : BitVec 6) (v : Word) (q : BitVec 4) : (c.ws r v).rh q = c.rh q := by
  unfold Ctx.ws
  split <;> rfl

@[simp] theorem Ctx.hoist_ws (c : Ctx) (r : BitVec 6) (v : Word) : (c.ws r v).hoist = c.hoist := by
  unfold Ctx.ws
  split <;> rfl

@[simp] theorem Ctx.bay_ws (c : Ctx) (r : BitVec 6) (v : Word) : (c.ws r v).bay = c.bay := by
  unfold Ctx.ws
  split <;> rfl

@[simp] theorem Ctx.rs_wp (c : Ctx) (r : BitVec 4) (v : Bool) (q : BitVec 6) : (c.wp r v).rs q = c.rs q := by
  unfold Ctx.wp
  split <;> rfl

@[simp] theorem Ctx.rh_wp (c : Ctx) (r : BitVec 4) (v : Bool) (q : BitVec 4) : (c.wp r v).rh q = c.rh q := by
  unfold Ctx.wp
  split <;> rfl

@[simp] theorem Ctx.hoist_wp (c : Ctx) (r : BitVec 4) (v : Bool) : (c.wp r v).hoist = c.hoist := by
  unfold Ctx.wp
  split <;> rfl

@[simp] theorem Ctx.bay_wp (c : Ctx) (r : BitVec 4) (v : Bool) : (c.wp r v).bay = c.bay := by
  unfold Ctx.wp
  split <;> rfl

/-- What is read of the scalar register that was written. -/
theorem Ctx.rs_ws (c : Ctx) (r : BitVec 6) (v : Word) : (c.ws r v).rs r = if r = 0 then 0 else v := by
  split
  · next h => rw [h, Ctx.rs_zero]
  · next h => exact c.rs_ws_self v h

/-- What is read of the predicate that was written. -/
theorem Ctx.rp_wp (c : Ctx) (r : BitVec 4) (v : Bool) : (c.wp r v).rp r = if r = 0 then true else v := by
  split
  · next h => rw [h, Ctx.rp_zero]
  · next h => exact c.rp_wp_self v h

/-- What is read of the predicates when all are written. -/
theorem Ctx.rp_preds (c : Ctx) (v : BitVec 16) (q : BitVec 4) :
    ({ c with p := v ||| 1 } : Ctx).rp q = (decide (q = 0) || v.getLsbD q.toNat) := by
  by_cases hq : q = 0
  · simp [Ctx.rp, hq]
  · have h1 : (1#16).getLsbD q.toNat = false := by
      have h0 : q.toNat ≠ 0 := fun e => hq (BitVec.eq_of_toNat_eq e)
      simp [h0]
    simp [Ctx.rp, h1]

/-- A context differs from another in its registers, its hoist table and its bays only. -/
def Ctx.OnlyRegs (c c' : Ctx) : Prop :=
  c' = { c with s := c'.s, p := c'.p, h := c'.h, hoist := c'.hoist, bay := c'.bay }

theorem Ctx.OnlyRegs.ws (c : Ctx) (r : BitVec 6) (v : Word) : Ctx.OnlyRegs c ((c.unhoist r).ws r v) := by
  unfold Ctx.OnlyRegs Ctx.ws
  split <;> rfl

theorem Ctx.OnlyRegs.wp (c : Ctx) (r : BitVec 4) (v : Bool) : Ctx.OnlyRegs c (c.wp r v) := by
  unfold Ctx.OnlyRegs Ctx.wp
  split <;> rfl

/-! ### Results -/

theorem orFlags_none (f : Flags) : orFlags f {} = f := by simp [orFlags]

theorem State.setFlags_none (s : State) : s.setFlags {} = s := by
  simp only [State.setFlags, orFlags_none]
  exact s.modCtx_id

/-- The flags of a result land with it; every other special register, the steps in flight, the memory and the other dies are
the same. -/
def FlagsLanded (s t : State) (f : Flags) : Prop :=
  t.ctx.fpstat = orFlags s.ctx.fpstat f ∧ SameSpecial s (t.modCtx fun c => { c with fpstat := s.ctx.fpstat }) ∧
    t.ctx.pend = s.ctx.pend ∧ t.mem = s.mem ∧ SameOtherDies s t

/-- A result that lands in the context: what it writes there, and the flags. -/
theorem landing_ctx {s : State} {r : Result} {g : Ctx → Ctx} {f : Flags} {P : State → Prop}
    (h : s.landResult r = (s.modCtx g).setFlags f) (hg : s.ctx.OnlyRegs (g s.ctx))
    (hP : ∀ t : State, t.ctx = { g s.ctx with fpstat := orFlags s.ctx.fpstat f } → FlagsLanded s t f → P t) :
    Completes (.timelineResultLanding r) s P := by
  have hf : (g s.ctx).fpstat = s.ctx.fpstat := by rw [hg]
  have ht : ((s.modCtx g).setFlags f).ctx = { g s.ctx with fpstat := orFlags s.ctx.fpstat f } := by
    rw [State.setFlags_ctx, State.ctx_modCtx, hf]
  refine ⟨_, congrArg Host.Outcome.next h, hP _ ht ⟨?_, ?_, ?_, rfl, fun i hi => ?_⟩⟩
  · rw [ht]
  · rw [SameSpecial, State.ctx_modCtx, ht, hg]
    simp
  · rw [ht, hg]
  · rw [State.setFlags, State.modCtx_modCtx]
    exact s.modCtx_dieAt_ne _ hi

/-- A result that lands in a bay: what it makes of the bay, and the flags. -/
theorem landing_bay {s : State} {r : Result} {b : BayIx} {g : Bay → Bay} {f : Flags} {P : State → Prop}
    (h : s.landResult r = (s.modBay b g).setFlags f)
    (hP : ∀ t : State, t.bayAt b = g (s.bayAt b) → (∀ b', b' ≠ b → t.bayAt b' = s.bayAt b') →
      FlagsLanded s t f → SameRegs s t → P t) :
    Completes (.timelineResultLanding r) s P := by
  refine landing_ctx (g := fun c => c.setBay b (g (c.bayAt b))) h rfl fun t ht hf => hP t ?_ (fun b' hb => ?_) hf ?_
  · rw [State.bayAt, ht]
    exact Ctx.bayAt_setBay_self _ _ _
  · rw [State.bayAt, ht]
    exact Ctx.bayAt_setBay_ne _ _ hb
  · rw [SameRegs, ht]
    exact ⟨fun _ => rfl, fun _ => rfl, fun _ => rfl⟩

/-! ### Vector results (R151, R152) -/

/-- The lanes that a mask enables are written to an entry of a register file, and nothing else of the file. -/
theorem laneWrite_written {m : SMap Word32} (hm : SMap.wf 0 m = true) (r : Nat) {vs : List Word32} (hl : vs.length = 128)
    (en : BitVec 128) :
    (∀ k, k < 128 → SMap.get 0 (laneWrite m r vs en) (128 * r + k) =
      if en.getLsbD k = true then vs.getD k 0 else SMap.get 0 m (128 * r + k)) ∧
    ∀ k, k < 128 * r ∨ 128 * r + 128 ≤ k → SMap.get 0 (laneWrite m r vs en) k = SMap.get 0 m k := by
  have hkeys : vs.zipIdx.map (fun x => 128 * r + x.2) = (List.range 128).map (128 * r + ·) := by
    rw [List.range_eq_range', ← hl, ← List.zipIdx_map_snd, List.map_map]
    rfl
  have hnd : (vs.zipIdx.map fun x => 128 * r + x.2).Nodup := by
    rw [hkeys]
    exact List.nodup_range.map fun i j h => Nat.add_left_cancel h
  obtain ⟨h1, h2⟩ := foldl_reads (read := SMap.get 0) (ok := fun m => SMap.wf 0 m = true)
    (key := fun x : Word32 × Nat => 128 * r + x.2) (h := fun x v => if en.getLsbD x.2 then x.1 else v)
    (step := fun m x => if en.getLsbD x.2 then SMap.put 0 m (128 * r + x.2) x.1 else m)
    (fun y x hy => by
      split
      · exact SMap.put_wf _ _ hy
      · exact hy)
    (fun y x k hy => by
      split
      · exact SMap.get_put _ _ _ hy
      · rw [ite_self]) vs.zipIdx hnd hm
  refine ⟨fun k hk => ?_, fun k hk => h2 k ?_⟩
  · have hkl : k < vs.length := by omega
    rw [List.getD_eq_getElem _ _ hkl]
    exact h1 (vs[k], k) (List.mk_mem_zipIdx_iff_getElem?.2 (List.getElem?_eq_getElem hkl))
  · rw [hkeys, List.mem_map]
    rintro ⟨i, hi, rfl⟩
    have := List.mem_range.1 hi
    omega

theorem Bay.landVec_k (x : Bay) (u : VUnit) (d : VDst) (vs : List Word32) (en : BitVec 128) :
    (x.landVec u d vs en).k = laneWrite x.k (latchIx u) vs en := by cases d <;> rfl

theorem Bay.landVec_rest (x : Bay) (u : VUnit) (d : VDst) (vs : List Word32) (en : BitVec 128) :
    { x.landVec u d vs en with v := x.v, o := x.o, k := x.k, full := x.full } = x := by cases d <;> rfl

theorem Bay.mask_setMask (x : Bay) {m : Nat} (hm : m < 8) (k : BitVec 3) (v : BitVec 128) :
    (x.setMask (.ofNat 3 m) v).mask k = if k.toNat = m then v else x.mask k := by
  have hn : (BitVec.ofNat 3 m).toNat = m := by simpa using hm
  simp only [Bay.mask, Bay.setMask, Vector.getElem_set, hn, eq_comm]

/-! ### The LOST bit (R309) -/

theorem State.decodeWord_sound {s : State} {wa : Nat} (h : s.soundWord wa) (tl : Bool) :
    s.decodeWord wa tl = (s, .good, false) := by
  obtain ⟨hu, he, hp⟩ := h
  simp [State.decodeWord, hu, he, hp]

/-- A write to a word without an error or poison: its bytes, its clean state, and the hoist table of its die. -/
theorem State.putWord_sound {s : State} {wa : Nat} (h : s.soundWord wa) {bs : List (Nat × Byte)} (hb : bs ≠ [])
    (tl : Bool) : s.putWord wa bs tl = (s.modMem fun m => { m with
      cistern := bs.foldl (fun m p => SMap.put 0 m (wa * 16 + p.1) p.2) m.cistern
      pz := SMap.put false m.pz wa false
      nr := SMap.put false m.nr wa false
      ecc := SMap.put .ok m.ecc wa .ok }).onDie (adDie (wa * 16))
        fun s => s.modCtx fun c => c.hoistBytes (bs.map fun p => wa * 16 + p.1) := by
  have hst : ∀ b : Bool,
      (if b then (s, WordSt.good) else ((s.decodeWord wa tl).1, (s.decodeWord wa tl).2.1)) = (s, .good) := by
    simp [State.decodeWord_sound h]
  simp only [State.putWord, if_neg hb, hst]
  simp

/-- A change of the hoist table of some die changes of the running context at most the hoist table. -/
theorem State.onDie_hoistBytes_ctx (s : State) (i : DieIx) (as : List Nat) :
    ∃ l, (s.onDie i fun s => s.modCtx fun c => c.hoistBytes as).ctx = { s.ctx with hoist := l } := by
  by_cases hi : i = s.cur
  · subst hi
    exact ⟨(s.ctx.hoistBytes as).hoist, s.ctx_modCtx fun c => c.hoistBytes as⟩
  · exact ⟨s.ctx.hoist, congrArg Die.ctx
      (State.modCtx_dieAt_ne { s with cur := i } (fun c => c.hoistBytes as) (Ne.symm hi))⟩

theorem State.engAddr_plain {s : State} {a : Nat} (h : s.plainAt a) : s.engAddr a = a := by
  simp [State.engAddr, h.2]

/-- The LOST bit of a leaf is set in its word, and of the context at most the hoist table changes. -/
theorem leafLost_completes {s : State} {a : Nat} (ha : a % 16 = 0) (hp : s.plainAt a) (hs : s.soundWord (a / 16)) :
    Completes (.timelineResultLanding (.leafLost a)) s fun t =>
      (∀ x, t.byteAt x = if x = a + 10 then s.byteAt x ||| 0x80#8 else s.byteAt x) ∧
        ∃ l, t.ctx = { s.ctx with hoist := l } := by
  have hw : SMap.wf 0 s.mem.cistern = true := (Mem.wf_iff.1 hp.1).1.1
  have ha' : a / 16 * 16 + 10 = a + 10 := by omega
  refine ⟨_, rfl, ?_⟩
  rw [State.landResult, State.leafLost, State.engAddr_plain hp, State.putWord_sound hs (List.cons_ne_nil _ _)]
  refine ⟨fun x => ?_, State.onDie_hoistBytes_ctx _ _ _⟩
  have hx := SMap.get_put (a + 10) x (SMap.get 0 s.mem.cistern (a + 10) ||| 0x80#8) hw
  simp only [State.byteAt, State.onDie_mem, State.modCtx_mem, State.modMem, List.foldl_cons, List.foldl_nil, ha', hx]
  split
  · next h => rw [h]
  · rfl

end Sys2Proof.Machine

open Sys2Proof Sys2Proof.Machine in
/-- Settles O40: results in the context by `landing_ctx`, results in a bay by `landing_bay`, and the LOST bit as a write of
one byte of a sound word. -/
theorem landedResultsWriteTheirRegisters : Obligations.LandedResultsWriteTheirRegisters := by
  unfold Obligations.LandedResultsWriteTheirRegisters
  intro s flags
  refine ⟨fun r v f => ?_, fun r v f => ?_, fun v => ?_, fun r v => ?_, fun b m v f hm => ?_, fun b u d vs en f hl => ?_,
    fun b os => ?_, fun a ha _ hp hs => ?_⟩
  · refine landing_ctx (g := fun c => (c.unhoist r).ws r v) rfl (.ws _ r v) fun t ht hf => ?_
    rw [SameBays, ht]
    exact ⟨Ctx.rs_ws _ r v, fun q hq => Ctx.rs_ws_ne _ v hq, fun q => Ctx.rp_ws _ r v q, fun q => Ctx.rh_ws _ r v q,
      Ctx.hoist_ws _ r v, hf, Ctx.bay_ws _ r v⟩
  · refine landing_ctx (g := fun c => c.wp r v) rfl (.wp _ r v) fun t ht hf => ?_
    rw [SameBays, ht]
    exact ⟨Ctx.rp_wp _ r v, fun q hq => Ctx.rp_wp_ne _ v hq, fun q => Ctx.rs_wp _ r v q, fun q => Ctx.rh_wp _ r v q,
      Ctx.hoist_wp _ r v, hf, Ctx.bay_wp _ r v⟩
  · refine landing_ctx (g := fun c => { c with p := v ||| 1 }) (State.setFlags_none _).symm rfl fun t ht hf => ?_
    rw [SameBays, ht]
    exact ⟨fun q => Ctx.rp_preds s.ctx v q, fun _ => rfl, fun _ => rfl, rfl, hf, rfl⟩
  · refine landing_ctx (g := fun c => c.wh r v) (State.setFlags_none _).symm rfl fun t ht hf => ?_
    rw [SameBays, ht]
    exact ⟨Ctx.rh_wh_self _ r v, fun q hq => Ctx.rh_wh_ne _ v hq, fun _ => rfl, fun _ => rfl, rfl, hf, rfl⟩
  · refine landing_bay (g := fun x => x.setMask (.ofNat 3 m) v) rfl fun t hb hb' hf hr => ?_
    rw [hb]
    exact ⟨fun k => Bay.mask_setMask _ hm k v, rfl, hb', hf, hr⟩
  · intro x written hv ho hk
    refine landing_bay (g := fun x => x.landVec u d vs en) rfl fun t hb hb' hf hr => ?_
    rw [hb]
    refine ⟨?_, ?_, x.landVec_rest u d vs en, hb', hf, hr⟩
    · rw [Bay.landVec_k]
      cases u <;> exact laneWrite_written hk _ hl en
    · cases d with
      | v r => exact ⟨laneWrite_written hv r hl en, rfl, rfl⟩
      | o r => exact ⟨laneWrite_written ho r hl en, rfl, rfl⟩
      | none => exact ⟨rfl, rfl, rfl⟩
  · exact landing_bay (g := fun x => { x with full := x.full &&& ~~~os }) (State.setFlags_none _).symm
      fun t hb hb' hf hr => ⟨hb, hb', hf, hr⟩
  · obtain ⟨t, ht, hmem, l, hctx⟩ := leafLost_completes ha hp hs
    refine ⟨t, ht, hmem, ?_, ?_, ?_⟩
    · rw [SameRegs, hctx]
      exact ⟨fun _ => rfl, fun _ => rfl, fun _ => rfl⟩
    · rw [SameSpecial, hctx]
      simp
    · rw [SameBays, hctx]

/-! ## Bundles, words and encodings -/

section

-- One declaration is elaborated at a time, which bounds the memory that this text takes.
set_option Elab.async false


open Sys2Proof in
/-- Settles O56: each word is read by its own evaluation. -/
theorem writtenOutWordsDecode : Obligations.WrittenOutWordsDecode := by
  unfold Obligations.WrittenOutWordsDecode
  have hbays : decodeSlot 0x2001101450000010 = .error .bays := rfl
  refine ⟨rfl, rfl, rfl, rfl, rfl, rfl, ⟨_, rfl, rfl, rfl, rfl, rfl⟩, rfl, rfl, rfl, rfl, rfl, rfl, rfl, rfl, rfl, ?_, ?_⟩
  · rw [hbays]
    exact nofun
  · rw [hbays]
    exact fun _ => nofun

/-! SUPPORT. What a step does with the work that stands first, by the kind of the work (log 2). -/

namespace Sys2Proof.Machine

/-! ### The guard and the number of a word from outside -/

theorem Ctx.acts_of_guard_zero {c : Ctx} {w : Nat} (hg : (guardOf w).1 = 0) (hn : (guardOf w).2 = false) :
    c.acts w = true := by
  have hw : guardOf w = (0, false) := Prod.ext hg hn
  rw [Ctx.acts, hw]
  rfl

/-- The slot in which a word from outside stands holds what the word decodes to. -/
theorem slotInstr_of_decodeSlot {w : Nat} {i : Instr} (h : decodeSlot w = .ok i) :
    slotInstr (if bitsAt w 61 3 = 0 then 1 else 2) w = some i := by
  rw [slotInstr, h]
  split <;> simp_all

/-! ### One step by its work -/

variable {s : State} {d : DieIx} {l : List Task}

theorem step_slot_zero {n : Nat} (h : s.todo = ⟨d, .slot 0 n⟩ :: l) :
    step s = exec .nop { s with todo := l, cur := d, slot := n, msg := .none } := by
  simp [step, State.take, h, State.takeSlot]

theorem step_slot_of_instr {w n : Nat} {i : Instr} (h : s.todo = ⟨d, .slot w n⟩ :: l) (hw : w ≠ 0)
    (ha : ({ s with todo := l, cur := d, slot := n, msg := .none } : State).ctx.acts w = true)
    (hi : slotInstr n w = some i) :
    step s = exec i { s with todo := l, cur := d, slot := n, msg := .none } := by
  simp [step, State.take, h, State.takeSlot, hw, ha, hi]

theorem step_slot_of_not_acts {w n : Nat} (h : s.todo = ⟨d, .slot w n⟩ :: l) (hw : w ≠ 0)
    (ha : ({ s with todo := l, cur := d, slot := n, msg := .none } : State).ctx.acts w = false) :
    step s = .next { s with todo := l, cur := d, slot := n, msg := .none } := by
  simp [step, State.take, h, State.takeSlot, hw, ha]

theorem step_slot_of_none {w n : Nat} (h : s.todo = ⟨d, .slot w n⟩ :: l) (hw : w ≠ 0)
    (ha : ({ s with todo := l, cur := d, slot := n, msg := .none } : State).ctx.acts w = true)
    (hi : slotInstr n w = none) :
    step s = .next (({ s with todo := l, cur := d, slot := n, msg := .none } : State).slotRaise ⟨0x02, 0, 0⟩) := by
  simp [step, State.take, h, State.takeSlot, hw, ha, hi]

theorem step_pump {w : Nat} {half : Option Nat} {i : Instr} (h : s.todo = ⟨d, .pump w half⟩ :: l)
    (hd : decodePump w half = .ok i) : step s = exec i { s with todo := l, cur := d, msg := .none } := by
  simp [step, State.take, h, State.takePump, hd]

theorem step_command {ws : List Nat} {i : Instr} (h : s.todo = ⟨d, .command ws⟩ :: l)
    (hd : decodeCommand ws = .ok i) : step s = exec i { s with todo := l, cur := d, msg := .none } := by
  simp [step, State.take, h, State.takeCommand, hd]

/-- A malformed command is answered with status 1, and with 2 in failsafe where its opcode is not one that failsafe serves. -/
theorem step_command_error {ws : List Nat} {e : DecodeErr} (h : s.todo = ⟨d, .command ws⟩ :: l)
    (hd : decodeCommand ws = .error e) :
    step s = .next (({ s with todo := l, cur := d } : State).reply
      (if s.host.failsafe = true ∧ ws.headD 0 % 256 ≠ 6 ∧ ws.headD 0 % 256 ≠ 7 ∧ ws.headD 0 % 256 ≠ 9 then 2 else 1) 0) := by
  simp only [step, State.take, h, State.takeCommand, hd]
  congr 3
  simp [and_assoc]

theorem step_instr {i : Instr} {m : Msg} (h : s.todo = ⟨d, .instr i m⟩ :: l) :
    step s = exec i { s with todo := l, cur := d, msg := m } := by
  simp [step, State.take, h]

theorem step_nil (h : s.todo = []) : step s = .next s.tick := by
  simp [step, State.take, h]

/-! ### The clock -/

@[simp] theorem State.clock_now (s : State) : s.clock.now = s.now + 1 := by
  unfold State.clock
  dsimp only
  split_ifs <;> rfl

@[simp] theorem State.vector2_now (s : State) : s.vector2.now = s.now := by
  unfold State.vector2
  split <;> rfl

theorem State.hostPut_getD_now (s : State) (a : Nat) (bs : List Byte) : ((s.hostPut a bs).getD s).now = s.now := by
  unfold State.hostPut
  split <;> rfl

@[simp] theorem State.reply_now (s : State) (st : Nat) (v : Word) : (s.reply st v).now = s.now := by
  unfold State.reply
  dsimp only
  split
  · rfl
  · exact State.hostPut_getD_now _ _ _

@[simp] theorem State.ringTask_now (s : State) : s.ringTask.1.now = s.now := by
  unfold State.ringTask
  dsimp only
  split
  · rfl
  · split
    · rfl
    · exact State.reply_now _ _ _

@[simp] theorem State.tick_now (s : State) : s.tick.now = s.now + 1 := by
  have hreach : ∀ t : State, (if t.half then t else t.noteReach).now = t.now := fun t => by split <;> rfl
  calc s.tick.now = (if s.clock.vector2.half then s.clock.vector2 else s.clock.vector2.noteReach).ringTask.1.now := rfl
    _ = s.now + 1 := by rw [State.ringTask_now, hreach, State.vector2_now, State.clock_now]

end Sys2Proof.Machine

open Sys2Proof Sys2Proof.Machine in
/-- Settles O54: by the kind of the work that stands first, and by the clock when none does. -/
theorem stepRunsTheDecodedSlot : Obligations.StepRunsTheDecodedSlot := by
  unfold Obligations.StepRunsTheDecodedSlot
  refine ⟨fun s d l w n h => ⟨?_, fun i hw ha hi => step_slot_of_instr h hw ha hi, fun hw ha => step_slot_of_not_acts h hw ha,
      fun hw ha hi => step_slot_of_none h hw ha hi⟩,
    fun s d l w half i h hd => step_pump h hd, fun s d l ws i h hd => step_command h hd, fun s d l ws e h hd => ⟨?_, ?_⟩,
    fun s d l i m h => step_instr h, fun s w i hi hne hg hn hw => ?_, fun s h => ⟨_, step_nil h, s.tick_now⟩⟩
  · rintro rfl
    exact step_slot_zero h
  · intro hf ho
    rw [step_command_error h hd, if_pos ⟨hf, ho⟩]
  · intro hf
    rw [step_command_error h hd, if_neg (by rintro ⟨hf', ho⟩; simp_all)]
  · have hw0 : w ≠ 0 := by
      rintro rfl
      exact hne (Except.ok.inj hi).symm
    refine step_slot_of_instr (d := s.cur) (l := s.todo) ?_ hw0 (Ctx.acts_of_guard_zero hg hn) (slotInstr_of_decodeSlot hi)
    simp [State.withFetchWord, workOf, hw0]

/-! SUPPORT. A `NOP` of its own on a die that waits, which refutes O55. -/

namespace Sys2Proof.Machine

/-- A machine at reset but for a wait of the context on die 0 that has begun, in which a zero word runs on its own. -/
def zeroWordWhileWaiting : State :=
  { State.reset.modCtx fun c => { c with wait := [{ instr := .bar 0, gtc := 0 }] } with todo := [⟨0, .slot 0 1⟩] }

/-- The waits of the present context after a step. -/
def waitsAfterStep (s : State) : List Wait :=
  match step s with
  | .next t => t.ctx.wait
  | _ => s.ctx.wait

theorem waitsAfterStep_zeroWordWhileWaiting : waitsAfterStep zeroWordWhileWaiting = [] := rfl

end Sys2Proof.Machine

open Sys2Proof Sys2Proof.Machine in
/-- Refutes O55: a zero word that runs on its own, outside the issue cycle of a bundle, is checked and run as any slot is
(`slotRun`), and then the waits that have begun are dropped. In `zeroWordWhileWaiting` the wait of a `BAR` is lost, so the
step is not without effect. The clause fails for `.slot 0 n` work alone: slots of a bundle are taken from `slotsOf`, which
leaves zero words out. -/
theorem not_zeroWordIsNopAndControlWordsStandInSlotOne :
    ¬ Obligations.ZeroWordIsNopAndControlWordsStandInSlotOne := by
  unfold Obligations.ZeroWordIsNopAndControlWordsStandInSlotOne
  rintro ⟨hzero, -⟩
  have hstep := hzero zeroWordWhileWaiting 0 [] 1 rfl
  have hwait := waitsAfterStep_zeroWordWhileWaiting
  rw [waitsAfterStep, hstep] at hwait
  exact absurd hwait nofun

/-! SUPPORT. The level of a slot (R66), and the mask that names slots in a trap record (R65). -/

namespace Sys2Proof

@[simp] theorem b2n_le_one (b : Bool) : b2n b ≤ 1 := by cases b <;> decide

theorem b2n_lt (b : Bool) : b2n b < 2 ^ 1 := Nat.lt_succ_of_le (b2n_le_one b)

end Sys2Proof

namespace Sys2Proof.Machine

/-! ### The mask of slots -/

/-- The mask of some slots has the bit of each. -/
theorem testBit_slotMask {l : List Nat} {n : Nat} (hpos : ∀ m ∈ l, 0 < m) (hn : n ∈ l) :
    (slotMask l).testBit (n - 1) = true := by
  have hmask : slotMask l = ∑ k ∈ l.dedup.toFinset.image (· - 1), 2 ^ k := by
    have hinj : Set.InjOn (· - 1) (l.dedup.toFinset : Set Nat) := by
      intro a ha b hb hab
      have hab' : a - 1 = b - 1 := hab
      have ha' := hpos a (by simpa using ha)
      have hb' := hpos b (by simpa using hb)
      omega
    rw [Finset.sum_image hinj, List.sum_toFinset _ l.nodup_dedup, slotMask]
    refine congrArg List.sum (List.map_congr_left fun m hm => ?_)
    exact if_neg (hpos m (List.mem_dedup.1 hm)).ne'
  rw [hmask, ← Nat.mem_bitIndices, ← List.mem_toFinset, Finset.toFinset_bitIndices_sum_two_pow]
  exact Finset.mem_image_of_mem _ (by simpa using hn)

theorem slotsOf_pos {ws : List Nat} {x : Nat × Nat} (h : x ∈ slotsOf ws) : 0 < x.1 := by
  simp only [slotsOf, List.mem_filter, List.mem_map] at h
  obtain ⟨⟨y, -, rfl⟩, -⟩ := h
  exact Nat.succ_pos _

/-! ### The level of a slot -/

/-- The five instructions of system level (R66). -/
def SystemFive (i : Instr) : Prop :=
  (∃ a b, i = .tret a b) ∨ (∃ d a c, i = .pumpActr d a c) ∨ (∃ d, i = .realign d) ∨ (∃ a, i = .tlbSync a) ∨
    ∃ a, i = .domsw a

/-- A slot of system level: one of five instructions, or one that names a control register above user level (R66). -/
def SystemSlot (i : Instr) : Prop :=
  (∃ a b, i = .tret a b) ∨ (∃ d a c, i = .pumpActr d a c) ∨ (∃ d, i = .realign d) ∨ (∃ a, i = .tlbSync a) ∨
    (∃ a, i = .domsw a) ∨ ∃ n, csrOf i = some n ∧ 1 ≤ csrLevel n

/-- What gives a slot its level: nothing, the control register that it names, or its instruction. -/
inductive SlotLevel (i : Instr) : Prop
  | user (level : (slotNames i).sys = 0) (csr : csrOf i = none)
  | register (n : Nat) (csr : csrOf i = some n) (level : (slotNames i).sys = csrLevel n)
  | system (five : SystemFive i)

theorem slotLevel (i : Instr) : SlotLevel i := by
  cases i
  case tret => exact .system (.inl ⟨_, _, rfl⟩)
  case pumpActr => exact .system (.inr (.inl ⟨_, _, _, rfl⟩))
  case realign => exact .system (.inr (.inr (.inl ⟨_, rfl⟩)))
  case tlbSync => exact .system (.inr (.inr (.inr (.inl ⟨_, rfl⟩))))
  case domsw => exact .system (.inr (.inr (.inr (.inr ⟨_, rfl⟩))))
  case csrr | csrw | csrs | csrc => exact .register _ rfl rfl
  all_goals as_aux_lemma => exact .user (Eq.refl 0) rfl

theorem systemSlot_iff {i : Instr} : SystemSlot i ↔ SystemFive i ∨ ∃ n, csrOf i = some n ∧ 1 ≤ csrLevel n := by
  simp only [SystemSlot, SystemFive, or_assoc]

theorem sys_of_systemFive {i : Instr} (h : SystemFive i) : (slotNames i).sys = 1 := by
  obtain ⟨a, b, rfl⟩ | ⟨d, a, c, rfl⟩ | ⟨d, rfl⟩ | ⟨a, rfl⟩ | ⟨a, rfl⟩ := h
  all_goals exact Eq.refl 1

theorem one_le_sys_iff {i : Instr} : 1 ≤ (slotNames i).sys ↔ SystemSlot i := by
  rw [systemSlot_iff]
  obtain ⟨hl, hc⟩ | ⟨n, hc, hl⟩ | h := slotLevel i
  · have hi : ¬ SystemFive i := fun h => by simpa [hl] using sys_of_systemFive h
    simp [hl, hc, hi]
  · have hi : SystemFive i → 1 ≤ csrLevel n := fun h => (hl.symm.trans (sys_of_systemFive h)).ge
    simpa [hl, hc] using hi
  · exact iff_of_true (sys_of_systemFive h).ge (.inl h)

theorem Ctx.privTrap_of_le {c : Ctx} {i : Instr} (h : (slotNames i).sys ≤ c.priv) : c.privTrap i = none :=
  if_neg (by simpa using h)

theorem Ctx.privTrap_of_lt {c : Ctx} {i : Instr} (h : c.priv < (slotNames i).sys) :
    c.privTrap i = some ⟨0x0D, (csrOf i).getD 0, 0⟩ :=
  if_pos (by simpa using h)

theorem Ctx.privTrap_cause {c : Ctx} {i : Instr} {t : Trap} (h : c.privTrap i = some t) : t.cause = 0x0D := by
  unfold Ctx.privTrap trapIf at h
  split at h
  · cases h; rfl
  · cases h

/-! ### A bundle with slots above its level -/

/-- The slots of the bundle that are above its level, with their numbers. -/
def Ctx.privSlots (c : Ctx) : List (Nat × Instr) :=
  ((slotsOf c.bundle).filterMap fun x => (slotInstr x.1 x.2).map (x.1, ·)).filter fun x => (c.privTrap x.2).isSome

theorem Ctx.mem_privSlots {c : Ctx} {n : Nat} {i : Instr} : (n, i) ∈ c.privSlots ↔
    (∃ w, (n, w) ∈ slotsOf c.bundle ∧ slotInstr n w = some i) ∧ (c.privTrap i).isSome = true := by
  simp [Ctx.privSlots]

theorem Ctx.privSlots_pos {c : Ctx} {m : Nat} (h : m ∈ c.privSlots.map Prod.fst) : 0 < m := by
  obtain ⟨⟨n, i⟩, hx, rfl⟩ := List.mem_map.1 h
  obtain ⟨⟨w, hw, -⟩, -⟩ := Ctx.mem_privSlots.1 hx
  exact slotsOf_pos hw

/-- Step 3 of R65: with a sound header and no slot that holds no instruction, slots above the bundle's level trap. -/
theorem Ctx.staticTrap_of_privSlots {c : Ctx} (hh : hdrBad c.bundle = false)
    (hs : ∀ x ∈ slotsOf c.bundle, (slotInstr x.1 x.2).isSome = true) (hp : c.privSlots ≠ []) :
    ∃ aux, c.staticTrap = some (c.atBundle 0x0D (slotMask (c.privSlots.map Prod.fst)) aux 0) := by
  obtain ⟨x, l, hl⟩ := List.exists_cons_of_ne_nil hp
  have hx : (c.privTrap x.2).isSome = true := (Ctx.mem_privSlots.1 (hl ▸ List.mem_cons_self)).2
  obtain ⟨t, ht⟩ := Option.isSome_iff_exists.1 hx
  have hbad : ((slotsOf c.bundle).filter fun x => (slotInstr x.1 x.2).isNone) = [] := by
    exact List.filter_eq_nil_iff.2 fun x hx => by simpa using Option.isSome_iff_ne_none.1 (hs x hx)
  refine ⟨t.aux, ?_⟩
  unfold Ctx.staticTrap
  change firstOf [_, _, (c.privSlots.head?.bind fun x => c.privTrap x.2).map fun t =>
    c.atBundle t.cause (slotMask (c.privSlots.map Prod.fst)) t.aux 0, _] = _
  rw [hbad]
  simp only [hh, hl, List.head?_cons, Option.bind_some, ht, Option.map_some, Ctx.privTrap_cause ht]
  rfl

/-! ### A bundle that comes to issue with a trap of its own -/

theorem State.modCtx_of_fixed {s : State} {f : Ctx → Ctx} (h : f s.ctx = s.ctx) : s.modCtx f = s := by
  have hd : ({ s.die with ctx := f s.ctx } : Die) = s.die := congrArg (fun x => ({ s.die with ctx := x } : Die)) h
  exact (congrArg s.setDie hd).trans (s.setDieAt_dieAt s.cur)

theorem State.closeGroups_of_sump_nil {s : State} (h : s.ctx.sump = []) (p : BayIx → Bool) : s.closeGroups p = s := by
  have hf : (s.ctx.sump.filter fun g => !p g.bay) = s.ctx.sump := by rw [h, List.filter_nil]
  have hc : ({ s.ctx with sump := s.ctx.sump.filter fun g => !p g.bay } : Ctx) = s.ctx :=
    congrArg (fun l => ({ s.ctx with sump := l } : Ctx)) hf
  rw [State.closeGroups, State.modCtx_of_fixed (f := fun c => { c with sump := c.sump.filter fun g => !p g.bay }) hc, h]
  rfl

/-- A bundle at no safe point, with no trap due and nothing in flight, delivers the trap of its own checks. -/
theorem State.tryIssue_of_staticTrap {s : State} {r : TrapRec} (hsafe : hdrSafe s.ctx.bundle = false)
    (hb : s.ctx.safeB = false) (hdue : s.ctx.due = []) (hsump : s.ctx.sump = []) (hpend : s.ctx.pend = [])
    (ht : s.ctx.staticTrap = some r) : s.tryIssue = s.deliver r := by
  have hnow : s.ctx.dueNow = none := by simp [Ctx.dueNow, hdue]
  simp [State.tryIssue, hsafe, hb, State.closeIdleGroups, State.closeGroups_of_sump_nil hsump, hnow, ht, State.raise, hpend]

theorem State.attempt_of_ready {s : State} {n : Nat} (hr : s.ctx.restored = false) (ht : s.ctx.target = none)
    (hrem : s.ctx.removed = false) : s.attempt (n + 1) = s.tryIssue := by
  simp [State.attempt, hr, State.follow, ht, hrem]

end Sys2Proof.Machine

open Sys2Proof Sys2Proof.Machine in
/-- Settles O45: the level of a slot is `Names.sys`, which is above user level for the slots of system level and no others. -/
theorem privilegedSlotsTrapAtUserLevel : Obligations.PrivilegedSlotsTrapAtUserLevel := by
  unfold Obligations.PrivilegedSlotsTrapAtUserLevel
  intro system
  have hsys : ∀ i, system i ↔ 1 ≤ (slotNames i).sys := fun i => one_le_sys_iff.symm
  refine ⟨fun c hpriv hh hs hex => ?_, fun c i hi => ?_, fun c i hpriv hcsr => ?_,
    fun s r hr ht hrem hsafe hb hdue hsump hpend hst => ⟨_, rfl, ?_⟩⟩
  · have hmem : ∀ x ∈ slotsOf c.bundle, ∀ i, slotInstr x.1 x.2 = some i → system i → (x.1, i) ∈ c.privSlots := by
      intro x hx i hi hsi
      rw [Ctx.mem_privSlots, Ctx.privTrap_of_lt (hpriv ▸ (hsys i).1 hsi)]
      exact ⟨⟨x.2, hx, hi⟩, rfl⟩
    obtain ⟨x, hx, i, hi, hsi⟩ := hex
    obtain ⟨aux, hst⟩ := Ctx.staticTrap_of_privSlots hh hs (List.ne_nil_of_mem (hmem x hx i hi hsi))
    refine ⟨_, hst, rfl, rfl, rfl, rfl, rfl, fun y hy j hj hsj => ?_⟩
    exact testBit_slotMask (fun m hm => Ctx.privSlots_pos hm) (List.mem_map_of_mem (f := Prod.fst) (hmem y hy j hj hsj))
  · rw [hsys] at hi
    exact Ctx.privTrap_of_le (by omega)
  · refine Ctx.privTrap_of_le ?_
    obtain ⟨hl, -⟩ | ⟨n, hc, hl⟩ | h := slotLevel i
    · rw [hl]
      exact Nat.zero_le _
    · rw [hl]
      exact hcsr n hc
    · rw [sys_of_systemFive h]
      exact hpriv
  · exact (State.attempt_of_ready (n := 1023) hr ht hrem).trans
      (State.tryIssue_of_staticTrap hsafe hb hdue hsump hpend hst)

/-! SUPPORT. The record of a trap (R256), and the three ways in which a trap is delivered (R258, R379, R381). -/

namespace Sys2Proof.Machine

/-! ### The record of a trap -/

theorem Ctx.depth_lt (c : Ctx) : c.depth < 8 := by
  have h := List.length_filter_le (fun l : Level => l.act) c.loops.toList
  rw [Vector.length_toList] at h
  exact Nat.lt_of_le_of_lt h (by decide)

theorem add_mul_mod_of_lt {a k : Nat} (b : Nat) (h : a < k) : (a + k * b) % k = a := by
  rw [Nat.add_mul_mod_self_left, Nat.mod_eq_of_lt h]

theorem add_mul_div_of_lt {a k : Nat} (b : Nat) (h : a < k) : (a + k * b) / k = b := by
  rw [Nat.add_mul_div_left _ _ (Nat.zero_lt_of_lt h), Nat.div_eq_of_lt h, Nat.zero_add]

/-- The fields of word 0 of a record. -/
theorem recWord0_fields {r : TrapRec} {depth : Nat} (hc : r.cause < 2 ^ 8) (hs : r.slots < 2 ^ 15) (hb : r.bays < 2 ^ 8)
    (hd : depth < 8) :
    recWord0 r depth < 2 ^ 35 ∧ recWord0 r depth % 2 ^ 8 = r.cause ∧ recWord0 r depth / 2 ^ 8 % 2 ^ 15 = r.slots ∧
      recWord0 r depth / 2 ^ 23 % 2 ^ 8 = r.bays ∧ recWord0 r depth / 2 ^ 31 % 2 ^ 3 = depth ∧
      recWord0 r depth / 2 ^ 34 = b2n r.stale := by
  have hst := b2n_lt r.stale
  have h : recWord0 r depth =
      r.cause + 2 ^ 8 * (r.slots + 2 ^ 15 * (r.bays + 2 ^ 8 * (depth + 2 ^ 3 * b2n r.stale))) := by
    rw [recWord0, Nat.mod_eq_of_lt hs, Nat.mod_eq_of_lt hd, Nat.mod_eq_of_lt (b := 256) hc, Nat.mod_eq_of_lt (b := 256) hb]
    omega
  have h8 : recWord0 r depth / 2 ^ 8 = _ := h ▸ add_mul_div_of_lt _ hc
  have h23 : recWord0 r depth / 2 ^ 23 = _ :=
    (Nat.div_div_eq_div_mul _ (2 ^ 8) (2 ^ 15)).symm.trans (h8 ▸ add_mul_div_of_lt _ hs)
  have h31 : recWord0 r depth / 2 ^ 31 = _ :=
    (Nat.div_div_eq_div_mul _ (2 ^ 23) (2 ^ 8)).symm.trans (h23 ▸ add_mul_div_of_lt _ hb)
  have h34 : recWord0 r depth / 2 ^ 34 = _ :=
    (Nat.div_div_eq_div_mul _ (2 ^ 31) (2 ^ 3)).symm.trans (h31 ▸ add_mul_div_of_lt _ hd)
  refine ⟨by omega, h ▸ add_mul_mod_of_lt _ hc, h8 ▸ add_mul_mod_of_lt _ hs, h23 ▸ add_mul_mod_of_lt _ hb,
    h31 ▸ add_mul_mod_of_lt _ hd, h34⟩

theorem locWord_fields (va idx : Nat) :
    locWord va idx < 2 ^ 64 ∧ locWord va idx % 2 ^ 8 = idx % 2 ^ 8 ∧ locWord va idx / 2 ^ 8 = va / 2 ^ 7 % 2 ^ 56 := by
  have hi : idx % 2 ^ 8 < 2 ^ 8 := Nat.mod_lt _ (by decide)
  have hv : va / 2 ^ 7 % 2 ^ 56 < 2 ^ 56 := Nat.mod_lt _ (by decide)
  have h : locWord va idx = idx % 2 ^ 8 + 2 ^ 8 * (va / 2 ^ 7 % 2 ^ 56) := by rw [Nat.add_comm, Nat.mul_comm]; rfl
  rw [h]
  exact ⟨by omega, add_mul_mod_of_lt _ hi, add_mul_div_of_lt _ hi⟩

/-- The words of a record, read as numbers. -/
theorem recWords_get_zero {r : TrapRec} {depth gtc : Nat} (hc : r.cause < 2 ^ 8) (hs : r.slots < 2 ^ 15) (hb : r.bays < 2 ^ 8)
    (hd : depth < 8) : ((recWords r depth gtc).get 0).toNat = recWord0 r depth := by
  obtain ⟨hlt, -⟩ := recWord0_fields hc hs hb hd
  have hget : (recWords r depth gtc).get 0 = .ofNat 64 (recWord0 r depth) := rfl
  rw [hget, BitVec.toNat_ofNat, Nat.mod_eq_of_lt (Nat.lt_trans hlt (by decide))]

theorem toNat_locWord (va idx : Nat) : (BitVec.ofNat 64 (locWord va idx)).toNat = locWord va idx := by
  rw [BitVec.toNat_ofNat, Nat.mod_eq_of_lt (locWord_fields va idx).1]

/-- Bit 34 of word 0 is STALE. -/
theorem recWords_stale {r : TrapRec} {depth gtc : Nat} (hc : r.cause < 2 ^ 8) (hs : r.slots < 2 ^ 15) (hb : r.bays < 2 ^ 8)
    (hd : depth < 8) : ((recWords r depth gtc).get 0).getLsbD 34 = r.stale := by
  obtain ⟨-, -, -, -, -, hst⟩ := recWord0_fields hc hs hb hd
  rw [BitVec.getLsbD, recWords_get_zero hc hs hb hd, Nat.testBit, Nat.shiftRight_eq_div_pow, hst]
  cases r.stale <;> rfl

/-! ### A turn with a trap -/

theorem step_turn {s : State} {d : DieIx} {l : List Task} (h : s.todo = ⟨d, .turn⟩ :: l) :
    step s = .next ({ s with todo := l, cur := d } : State).turn := by
  simp [step, State.take, h]

theorem State.turn_of_trap {s : State} {r : TrapRec} (hr : s.die.running = true) (ha : s.die.alive = true)
    (ht : s.ctx.trap = some r) :
    s.turn = if s.ctx.pend = [] then s.deliver r else s.drain.push [.instr .stallCycle .none] := by
  simp [State.turn, hr, ha, ht]

@[simp] theorem State.push_ctx (s : State) (ws : List Work) : (s.push ws).ctx = s.ctx := rfl

@[simp] theorem State.push_die (s : State) (ws : List Work) : (s.push ws).die = s.die := rfl

@[simp] theorem State.drain_ctx (s : State) : s.drain.ctx = s.ctx := State.ctx_modDie s _

@[simp] theorem State.drain_adv (s : State) : s.drain.die.adv = true := by simp [State.drain]

/-! ### The handler -/

/-- The context as a trap handler finds it (R258). -/
def Ctx.inHandler (c : Ctx) (r : TrapRec) (gtc : Nat) : Ctx :=
  { c with
    trec := recWords r c.depth gtc, tepc := .ofNat 64 (locWord r.rVa r.rIdx), ppl := .ofNat 2 c.priv, inH := true,
    exw := r.exw, priv := 1, hoist := [], safecnt := 0, safeB := true, noDbrk := false, trap := none, wait := [],
    exiting := false, hold := 0, owed := c.hold, owedOf := c.holdOf, target := some { va := c.tvec.toNat, idx := 0 } }

theorem State.deliver_eq_inHandler {s : State} {r : TrapRec} (hd : toDispatcher r.cause = false) (hh : s.ctx.inH = false)
    (hv : s.ctx.tvec ≠ 0) : s.deliver r = s.modCtx fun c => c.inHandler r s.gtc := by
  have hset : ∀ f : Ctx → Ctx, s.modCtx f = s.setDie { s.die with ctx := f s.ctx } := fun _ => rfl
  rw [s.deliver_handler r hd hh hv, hset, hset, Ctx.inHandler]

/-! ### A halt for the dispatcher -/

/-- What a context keeps of a trap that its handler does not take: TREC0 to TREC3 and TEPC hold the first record. -/
def Ctx.keepTrap (c : Ctx) (r : TrapRec) (ws : Vector Word 4) : Ctx :=
  if c.inH then { c with hoist := [] } else { c with trec := ws, tepc := .ofNat 64 (locWord r.rVa r.rIdx), hoist := [] }

/-- The die halts for the dispatcher with a message. -/
def State.haltFor (s : State) (r : TrapRec) (ws : Vector Word 4) (m : Nat) : State :=
  (s.modCtx fun c => c.keepTrap r ws).stopDie.after 256 .preemptionHalt (.status m)

theorem State.deliver_double {s : State} {r : TrapRec}
    (h : s.ctx.inH = true ∨ s.ctx.tvec = 0 ∧ toDispatcher r.cause = false) :
    s.deliver r = (s.postFault (s.gdie s.cur) faultDouble (recWords r s.ctx.depth s.gtc).toList).haltFor r
      (recWords r s.ctx.depth s.gtc) (0x200 + r.cause) := by
  have hc : (s.ctx.inH || (s.ctx.tvec == 0 && !toDispatcher r.cause)) = true := by simpa using h
  simp only [State.deliver, hc, if_true]
  rfl

theorem State.deliver_dispatcher {s : State} {r : TrapRec} (hi : s.ctx.inH = false) (h : toDispatcher r.cause = true) :
    s.deliver r = s.haltFor r (recWords r s.ctx.depth s.gtc) (0x100 + r.cause) := by
  simp only [State.deliver, hi, h, Bool.not_true, Bool.and_false, Bool.or_false, Bool.false_eq_true, if_false, if_true]
  rfl

@[simp] theorem State.after_ctx (s : State) (n : Nat) (e : Instr) (m : Msg) : (s.after n e m).ctx = s.ctx := rfl

@[simp] theorem State.after_die (s : State) (n : Nat) (e : Instr) (m : Msg) : (s.after n e m).die = s.die := rfl

theorem State.haltFor_ctx (s : State) (r : TrapRec) (ws : Vector Word 4) (m : Nat) :
    (s.haltFor r ws m).ctx = { s.ctx.keepTrap r ws with trap := none, wait := [] } := by
  rw [State.haltFor, State.after_ctx, State.stopDie]
  simp

theorem State.haltFor_die (s : State) (r : TrapRec) (ws : Vector Word 4) (m : Nat) :
    (s.haltFor r ws m).die.running = false ∧ (s.haltFor r ws m).die.halting = true := by
  rw [State.haltFor, State.after_die, State.stopDie]
  simp

/-- A halt keeps the privilege, and the record of a trap that a handler serves. -/
theorem State.haltFor_trapRegs (s : State) (r : TrapRec) (ws : Vector Word 4) (m : Nat) :
    (s.haltFor r ws m).ctx.priv = s.ctx.priv ∧ (s.haltFor r ws m).ctx.inH = s.ctx.inH ∧
      (s.ctx.inH = true → (s.haltFor r ws m).ctx.trec = s.ctx.trec ∧ (s.haltFor r ws m).ctx.tepc = s.ctx.tepc) ∧
      (s.ctx.inH = false → (s.haltFor r ws m).ctx.trec = ws) := by
  rw [State.haltFor_ctx, Ctx.keepTrap]
  split
  next h => exact ⟨rfl, rfl, fun _ => ⟨rfl, rfl⟩, fun h' => absurd (h.symm.trans h') (by decide)⟩
  next h => exact ⟨rfl, rfl, fun h' => absurd h' h, fun _ => rfl⟩

theorem State.haltFor_sameRegs (s : State) (r : TrapRec) (ws : Vector Word 4) (m : Nat) : SameRegs s (s.haltFor r ws m) := by
  rw [SameRegs, State.haltFor_ctx, Ctx.keepTrap]
  split
  · exact ⟨fun _ => rfl, fun _ => rfl, fun _ => rfl⟩
  · exact ⟨fun _ => rfl, fun _ => rfl, fun _ => rfl⟩

theorem State.haltFor_sameOtherDies (s : State) (r : TrapRec) (ws : Vector Word 4) (m : Nat) :
    SameOtherDies s (s.haltFor r ws m) := by
  intro i hi
  calc (s.haltFor r ws m).dieAt i = (s.modCtx fun c => c.keepTrap r ws).stopDie.dieAt i := rfl
    _ = ((s.modCtx fun c => c.keepTrap r ws).modDie fun d => { d with running := false, halting := true }).dieAt i :=
      State.modCtx_dieAt_ne _ _ hi
    _ = (s.modCtx fun c => c.keepTrap r ws).dieAt i := State.modDie_dieAt_ne _ _ hi
    _ = s.dieAt i := State.modCtx_dieAt_ne _ _ hi

theorem State.haltFor_comesAfter (s : State) (r : TrapRec) (ws : Vector Word 4) (m : Nat) :
    ComesAfter s (s.haltFor r ws m) 256 .preemptionHalt (.status m) :=
  ⟨_, mem_insertTimer.2 (.inl rfl), rfl, rfl⟩

/-- A posted fault is the last that waits: its detail stands in the last four words (R382). -/
theorem State.postFault_faults (s : State) (die kind : Nat) {l : List Word} (hl : l.length = 4) :
    ∃ w ∈ (s.postFault die kind l).disp.faults, w.length = 8 ∧ w.drop 4 = l := by
  refine ⟨[BitVec.ofNat 64 die, .ofNat 64 kind, .ofNat 64 s.gtc, 0] ++ (l ++ List.replicate 4 0).take 4, ?_, ?_, ?_⟩
  · change _ ∈ (if _ then _ else _ : Disp).faults
    split <;> simp
  · simp [hl]
  · simp [hl]

end Sys2Proof.Machine

open Sys2Proof Sys2Proof.Machine in
/-- Settles O44: results in flight make the trap wait; with none it enters the handler (`State.deliver_eq_inHandler`), or the die
halts for a trap of a handler or of a context without one (`State.deliver_double`), or for a cause that only the dispatcher
takes (`State.deliver_dispatcher`). -/
theorem trapsSaveTheirRecordAndEnterTheHandler : Obligations.TrapsSaveTheirRecordAndEnterTheHandler := by
  unfold Obligations.TrapsSaveTheirRecordAndEnterTheHandler
  intro s r l htodo hrun halive htrap hcause hslots hbays
  let u : State := { s with todo := l, cur := s.cur }
  have hstep : step s = .next (if s.ctx.pend = [] then u.deliver r else u.drain.push [.instr .stallCycle .none]) :=
    (step_turn htodo).trans (congrArg _ (State.turn_of_trap (s := u) hrun halive htrap))
  refine ⟨fun hp => ?_, fun hp hd hh hv => ?_, fun hp hcase => ?_⟩
  · rw [if_neg hp] at hstep
    refine ⟨_, hstep, ?_⟩
    have hctx : (u.drain.push [.instr .stallCycle .none]).ctx = s.ctx := u.drain_ctx
    simp only [SameRegs, SameSpecial, hctx, htrap, State.push_die, State.drain_adv, State.push_mem, implies_true, and_self,
      true_and]
    exact ⟨rfl, rfl⟩
  · rw [if_pos hp, State.deliver_eq_inHandler (s := u) hd hh hv] at hstep
    refine ⟨_, hstep, ?_⟩
    have hctx : (u.modCtx fun c => c.inHandler r u.gtc).ctx = s.ctx.inHandler r s.gtc := State.ctx_modCtx u _
    obtain ⟨hlt, h0, h1, h2, h3, -⟩ := recWord0_fields hcause hslots hbays s.ctx.depth_lt
    obtain ⟨-, hloc0, hloc1⟩ := locWord_fields r.va r.idx
    obtain ⟨-, hres0, hres1⟩ := locWord_fields r.rVa r.rIdx
    have hw0 : ((s.ctx.inHandler r s.gtc).trec.get 0).toNat = recWord0 r s.ctx.depth :=
      recWords_get_zero hcause hslots hbays s.ctx.depth_lt
    have hw1 : ((s.ctx.inHandler r s.gtc).trec.get 1).toNat = locWord r.va r.idx := toNat_locWord r.va r.idx
    have hepc : (s.ctx.inHandler r s.gtc).tepc.toNat = locWord r.rVa r.rIdx := toNat_locWord r.rVa r.rIdx
    have hppl : (s.ctx.inHandler r s.gtc).ppl.toNat = s.ctx.priv % 4 := BitVec.toNat_ofNat s.ctx.priv 2
    simp only [hctx, hw0, hw1, hepc, State.ctx_modCtx, SameRegs, SameBays, SameSpecial]
    exact ⟨h0, h1, h2, h3, recWords_stale hcause hslots hbays s.ctx.depth_lt, Nat.div_eq_of_lt hlt, hloc0, hloc1, rfl, rfl,
      hres0, hres1, hppl, rfl, rfl, rfl, rfl, ⟨_, rfl, rfl, rfl, rfl⟩, rfl, rfl, rfl, rfl, rfl,
      ⟨fun _ => rfl, fun _ => rfl, fun _ => rfl⟩, rfl, by simp [Ctx.inHandler], rfl, fun i hi => State.modCtx_dieAt_ne u _ hi⟩
  · rw [if_pos hp] at hstep
    refine ⟨_, hstep, ?_⟩
    by_cases hdouble : s.ctx.inH = true ∨ toDispatcher r.cause = false
    · have hbranch : u.ctx.inH = true ∨ u.ctx.tvec = 0 ∧ toDispatcher r.cause = false := by
        change s.ctx.inH = true ∨ s.ctx.tvec = 0 ∧ toDispatcher r.cause = false
        grind
      rw [State.deliver_double hbranch]
      let v := u.postFault (u.gdie u.cur) faultDouble (recWords r u.ctx.depth u.gtc).toList
      obtain ⟨hrn, hhalt⟩ := v.haltFor_die r (recWords r u.ctx.depth u.gtc) (0x200 + r.cause)
      obtain ⟨hpriv, hin, hkeep, hnew⟩ := v.haltFor_trapRegs r (recWords r u.ctx.depth u.gtc) (0x200 + r.cause)
      exact ⟨hrn, hhalt, hpriv, hin, hkeep, hnew,
        fun _ => ⟨v.haltFor_comesAfter r _ _, u.postFault_faults _ _ (recWords r u.ctx.depth u.gtc).length_toList⟩,
        fun h => absurd hdouble h, v.haltFor_sameRegs r _ _, rfl, v.haltFor_sameOtherDies r _ _⟩
    · obtain ⟨hi, hd⟩ : s.ctx.inH = false ∧ toDispatcher r.cause = true := by simpa using hdouble
      rw [State.deliver_dispatcher (s := u) hi hd]
      obtain ⟨hrn, hhalt⟩ := u.haltFor_die r (recWords r u.ctx.depth u.gtc) (0x100 + r.cause)
      obtain ⟨hpriv, hin, hkeep, hnew⟩ := u.haltFor_trapRegs r (recWords r u.ctx.depth u.gtc) (0x100 + r.cause)
      exact ⟨hrn, hhalt, hpriv, hin, hkeep, hnew, fun h => absurd h hdouble,
        fun _ => ⟨u.haltFor_comesAfter r _ _, rfl⟩, u.haltFor_sameRegs r _ _, rfl, u.haltFor_sameOtherDies r _ _⟩

/-! SUPPORT. What an access changes at issue: the queue that it joins, and the time at which it is performed (R134, R137). -/

namespace Sys2Proof.Machine

/-! ### The address of an access -/

/-- A word read with a sign has the same low 32 bits. -/
theorem toInt_emod (x : Word) : x.toInt % 2 ^ 32 = (x.toNat : Int) % 2 ^ 32 := by
  rw [BitVec.toInt_eq_toNat_cond]
  split
  · rfl
  · exact Int.sub_mul_emod_self_left _ (2 ^ 32) (2 ^ 32)

theorem effAddr_eq_accessAddr (base : Word) (off : BitVec 24) : effAddr base off = accessAddr base off := by
  have he : (off.signExtend 64).toInt = off.toInt := BitVec.toInt_signExtend_of_le (by decide)
  have h : (((base + off.signExtend 64).toNat % 2 ^ 32 : Nat) : Int) = (base.toInt + off.toInt) % 2 ^ 32 := by
    rw [BitVec.toNat_add, Nat.mod_mod_of_dvd _ (by decide), Int.natCast_emod, Int.natCast_add, Nat.cast_pow, Nat.cast_ofNat,
      Int.add_emod, ← toInt_emod, ← toInt_emod, ← Int.add_emod, he]
  rw [effAddr, accessAddr, ← h, Int.toNat_natCast]

/-! ### An event at a time that the spec leaves open -/

theorem State.whenever_eq (s : State) (e : Instr) (m : Msg) : ∃ w ws, 0 < w ∧
    s.whenever e m = { s with waits := ws, timers := insertTimer ⟨s.now + w, s.cur, .instr e m⟩ s.timers } := by
  unfold State.whenever
  cases hw : s.waits with
  | nil =>
    have h : s.takeWait = (1, s) := by rw [State.takeWait, hw]
    exact ⟨1, s.waits, Nat.one_pos, by rw [h]; rfl⟩
  | cons w ws =>
    have h : s.takeWait = (max w 1, { s with waits := ws }) := by rw [State.takeWait, hw]
    exact ⟨max w 1, ws, Nat.lt_of_lt_of_le Nat.one_pos (Nat.le_max_right w 1), by rw [h]; rfl⟩

/-- The performance of an access is due on the running die of `s`. -/
def Performs (s t : State) (e : Instr) : Prop := ∃ x ∈ t.timers, x.task = ⟨s.cur, .instr e .none⟩ ∧ s.now < x.at_

/-- The context with these queues, this number of the next access and these destinations pending. -/
def Ctx.withQueues (c : Ctx) (ld st : List MemOp) (n : Nat) (ps : BitVec 64) (ph : BitVec 16) : Ctx :=
  { c with ldq := ld, stq := st, seqNo := n, pendS := ps, pendH := ph }

/-- `t` is `s` with accesses added to the queues of the running context and their performances due; beside them, only what
is pending differs. -/
structure JoinsQueues (s t : State) (ld st : List MemOp) : Prop where
  cur : t.cur = s.cur
  now : t.now = s.now
  mem : t.mem = s.mem
  otherDies : SameOtherDies s t
  timers : ∀ x ∈ s.timers, x ∈ t.timers
  ctx : ∃ ps ph, t.ctx =
    s.ctx.withQueues (s.ctx.ldq ++ ld) (s.ctx.stq ++ st) (s.ctx.seqNo + (ld.length + st.length)) ps ph
  load : ld ≠ [] → Performs s t .queuedLoadPerform
  store : st ≠ [] → Performs s t .queuedStorePerform

namespace JoinsQueues

variable {s t u : State} {ld st ld' st' : List MemOp}

theorem trans (h : JoinsQueues s t ld st) (h' : JoinsQueues t u ld' st') : JoinsQueues s u (ld ++ ld') (st ++ st') where
  cur := h'.cur.trans h.cur
  now := h'.now.trans h.now
  mem := h'.mem.trans h.mem
  otherDies i hi := (h'.otherDies i (h.cur ▸ hi)).trans (h.otherDies i hi)
  timers x hx := h'.timers x (h.timers x hx)
  ctx := by
    obtain ⟨_, _, hc⟩ := h.ctx
    obtain ⟨ps, ph, hc'⟩ := h'.ctx
    refine ⟨ps, ph, ?_⟩
    rw [hc', hc]
    show s.ctx.withQueues (s.ctx.ldq ++ ld ++ ld') (s.ctx.stq ++ st ++ st') (s.ctx.seqNo + _ + _) ps ph = _
    rw [List.append_assoc, List.append_assoc, List.length_append, List.length_append, Nat.add_assoc,
      Nat.add_add_add_comm]
  load hne := by
    by_cases hl : ld = []
    · obtain ⟨x, hx, hxt⟩ := h'.load (by simpa [hl] using hne)
      exact ⟨x, hx, by rwa [h.cur, h.now] at hxt⟩
    · obtain ⟨x, hx, hxt⟩ := h.load hl
      exact ⟨x, h'.timers x hx, hxt⟩
  store hne := by
    by_cases hl : st = []
    · obtain ⟨x, hx, hxt⟩ := h'.store (by simpa [hl] using hne)
      exact ⟨x, hx, by rwa [h.cur, h.now] at hxt⟩
    · obtain ⟨x, hx, hxt⟩ := h.store hl
      exact ⟨x, h'.timers x hx, hxt⟩

theorem sameMem (h : JoinsQueues s t ld st) : SameMem s t := by
  simp [SameMem, State.byteAt, State.resAt, h.mem]

theorem queues {i : Instr} (hi : exec i s = .next t) (h : JoinsQueues s t ld st) : Queues i s ld st := by
  obtain ⟨ps, ph, hc⟩ := h.ctx
  refine ⟨t, hi, by rw [hc]; rfl, by rw [hc]; rfl, h.load, h.store, ?_, ?_, ?_, h.sameMem, h.otherDies⟩
  · rw [SameRegs, hc]
    exact ⟨fun _ => rfl, fun _ => rfl, fun _ => rfl⟩
  · simp only [SameSpecial, hc, Ctx.withQueues, and_self]
  · simp only [SameBays, hc, Ctx.withQueues]

/-- Marking destinations as pending adds no access. -/
theorem of_pend (s : State) (f : Ctx → Ctx) (hf : ∀ c, ∃ ps ph, f c = { c with pendS := ps, pendH := ph }) :
    JoinsQueues s (s.modCtx f) [] [] where
  cur := rfl
  now := rfl
  mem := rfl
  otherDies i hi := State.modCtx_dieAt_ne s f hi
  timers x hx := hx
  ctx := by
    obtain ⟨ps, ph, h⟩ := hf s.ctx
    refine ⟨ps, ph, ?_⟩
    rw [State.ctx_modCtx, h, List.append_nil, List.append_nil]
    rfl
  load h := absurd rfl h
  store h := absurd rfl h

/-- An access joins its queue when the context takes it and its performance is due some time. -/
theorem of_whenever (s : State) {f : Ctx → Ctx} {e : Instr} (hf : ∃ ps ph, f s.ctx =
      s.ctx.withQueues (s.ctx.ldq ++ ld) (s.ctx.stq ++ st) (s.ctx.seqNo + (ld.length + st.length)) ps ph)
    (hl : ld ≠ [] → e = .queuedLoadPerform) (hs : st ≠ [] → e = .queuedStorePerform) :
    JoinsQueues s ((s.modCtx f).whenever e) ld st := by
  obtain ⟨w, ws, hw, h⟩ := State.whenever_eq (s.modCtx f) e .none
  obtain ⟨ps, ph, hf⟩ := hf
  rw [h]
  exact {
    cur := rfl
    now := rfl
    mem := rfl
    otherDies := fun i hi => State.modCtx_dieAt_ne s f hi
    timers := fun x hx => mem_insertTimer.2 (.inr hx)
    ctx := ⟨ps, ph, (State.ctx_modCtx s f).trans hf⟩
    load := fun hne => ⟨_, mem_insertTimer.2 (.inl rfl), hl hne ▸ rfl, Nat.lt_add_of_pos_right hw⟩
    store := fun hne => ⟨_, mem_insertTimer.2 (.inl rfl), hs hne ▸ rfl, Nat.lt_add_of_pos_right hw⟩ }

end JoinsQueues

/-! ### The operations of the queues -/

/-- An access of the running context that joins its queue now. -/
def State.access (s : State) (k : MemKind) (dst ea size : Nat) (u : Bool) (data : Nat) : MemOp :=
  { kind := k, dst := dst, ea := ea, size := size, uns := u, data := data, seq := s.ctx.seqNo, handler := s.ctx.inH,
    lvl := s.ctx.priv }

theorem State.toLoadQueue_joins (s : State) (k : MemKind) (dst ea size : Nat) (u : Bool) :
    JoinsQueues s (s.toLoadQueue k dst ea size u) [s.access k dst ea size u 0] [] :=
  JoinsQueues.of_whenever s ⟨s.ctx.pendS, s.ctx.pendH, by rw [List.append_nil]; rfl⟩ (fun _ => rfl) fun h => absurd rfl h

theorem State.toStoreQueue_joins (s : State) (k : MemKind) (ea size data : Nat) :
    JoinsQueues s (s.toStoreQueue k ea size data) [] [s.access k 0 ea size false data] :=
  JoinsQueues.of_whenever s ⟨s.ctx.pendS, s.ctx.pendH, by rw [List.append_nil]; rfl⟩ (fun h => absurd rfl h) fun _ => rfl

theorem State.pendScalar_joins (s : State) (d : BitVec 6) : JoinsQueues s (s.pendScalar d) [] [] := by
  unfold State.pendScalar
  split
  · simpa using JoinsQueues.of_pend s (fun c => c) fun c => ⟨c.pendS, c.pendH, rfl⟩
  · exact JoinsQueues.of_pend s _ fun c => ⟨_, c.pendH, rfl⟩

/-! ### The slots -/

theorem loadSlot_queues {i : Instr} {k : MemKind} {o : MOp} {s : State} (h : s.Issues) (hi : exec i s = loadSlot i k o s) :
    Queues i s [s.access k o.d.toNat (accessAddr (s.rs o.a) o.off) (2 ^ o.size.toNat) o.u 0] [] := by
  rw [← effAddr_eq_accessAddr]
  exact ((s.toLoadQueue_joins ..).trans (State.pendScalar_joins _ _)).queues (hi.trans (loadSlot_issues h))

/-- A store slot joins the store queue with what it stores. -/
theorem storeSlot_queues {i : Instr} {k : MemKind} {a : BitVec 6} {off : BitVec 24} {n : Nat} {x : State → Nat} {s : State}
    (h : s.Issues) (hi : exec i s = slotRun i s fun s => s.toStoreQueue k (effAddr (s.rs a) off) n (x s)) :
    Queues i s [] [s.access k 0 (accessAddr (s.rs a) off) n false (x s)] := by
  rw [← effAddr_eq_accessAddr]
  exact (s.toStoreQueue_joins ..).queues (hi.trans (slotRun_issues h))

theorem hld_queues {h : BitVec 4} {a : BitVec 6} {off : BitVec 24} {s : State} (hs : s.Issues) :
    Queues (.hld h a off) s [s.access .hld h.toNat (accessAddr (s.rs a) off) 32 false 0] [] := by
  rw [← effAddr_eq_accessAddr]
  exact ((s.toLoadQueue_joins ..).trans (JoinsQueues.of_pend _ _ fun c => ⟨c.pendS, _, rfl⟩)).queues
    ((exec_hld ..).trans (slotRun_issues hs))

theorem mark_queues {s : State} (hs : s.Issues) : Queues .mark s [s.access .mark 0 0 1 false 0]
    [{ s.access .mark 0 0 1 false 0 with seq := s.ctx.seqNo + 1 }] := by
  have h := (s.toLoadQueue_joins .mark 0 0 1 false).trans (State.toStoreQueue_joins _ .mark 0 1 0)
  obtain ⟨ps, ph, hc⟩ := (s.toLoadQueue_joins .mark 0 0 1 false).ctx
  have hseq : (s.toLoadQueue .mark 0 0 1 false).access .mark 0 0 1 false 0 =
      { s.access .mark 0 0 1 false 0 with seq := s.ctx.seqNo + 1 } := by
    rw [State.access, hc]
    rfl
  rw [hseq] at h
  exact h.queues ((exec_mark s).trans (slotRun_issues hs))

/-! ### Destinations that become pending -/

/-- A bit is in a mask with one bit more if it was, or is that bit. -/
theorem getLsbD_or_one_shiftLeft {n : Nat} (x : BitVec n) (d : Nat) {k : Nat} (hk : k < n) :
    (x ||| (1#n <<< d)).getLsbD k = (x.getLsbD k || decide (k = d)) := by
  have hbit : (1#n <<< d).getLsbD k = decide (k = d) := by
    rw [BitVec.getLsbD_shiftLeft]
    rcases Nat.lt_trichotomy k d with h | rfl | h
    · simp [h, h.ne]
    · simp [hk]
      omega
    · have h1 : k - d ≠ 0 := by omega
      simp [h.ne', h1, Nat.not_lt_of_gt h]
  rw [BitVec.getLsbD_or, hbit]

theorem State.whenever_ctx (s : State) (e : Instr) (m : Msg) : (s.whenever e m).ctx = s.ctx := by
  obtain ⟨w, ws, -, h⟩ := s.whenever_eq e m
  rw [h]
  rfl

theorem State.pendScalar_pendS (s : State) (d r : BitVec 6) :
    (s.pendScalar d).ctx.pendS.getLsbD r.toNat = (s.ctx.pendS.getLsbD r.toNat || (decide (r = d) && decide (r ≠ 0))) := by
  unfold State.pendScalar
  split
  next h0 =>
    subst h0
    simp
  next h0 =>
    have hd : decide (r = d) = (decide (r = d) && decide (r ≠ 0)) := by
      by_cases h : r = d
      · subst h
        simpa using h0
      · simp [h]
    rw [State.ctx_modCtx, getLsbD_or_one_shiftLeft _ _ r.isLt, ← hd]
    simp only [BitVec.toNat_eq]

theorem loadSlot_pends {i : Instr} {k : MemKind} {o : MOp} {s : State} (h : s.Issues) (hi : exec i s = loadSlot i k o s) :
    Completes i s fun t => ∀ r : BitVec 6,
      t.ctx.pendS.getLsbD r.toNat = (s.ctx.pendS.getLsbD r.toNat || (decide (r = o.d) && decide (r ≠ 0))) := by
  refine ⟨_, hi.trans (loadSlot_issues h), fun r => ?_⟩
  rw [State.pendScalar_pendS, State.toLoadQueue, State.whenever_ctx, State.ctx_modCtx]

theorem hld_pends {h : BitVec 4} {a : BitVec 6} {off : BitVec 24} {s : State} (hs : s.Issues) :
    Completes (.hld h a off) s fun t => ∀ r : BitVec 4,
      t.ctx.pendH.getLsbD r.toNat = (s.ctx.pendH.getLsbD r.toNat || decide (r = h)) := by
  refine ⟨_, (exec_hld ..).trans (slotRun_issues hs), fun r => ?_⟩
  rw [State.ctx_modCtx, getLsbD_or_one_shiftLeft _ _ r.isLt, State.toLoadQueue, State.whenever_ctx, State.ctx_modCtx]
  simp only [BitVec.toNat_eq]

end Sys2Proof.Machine

open Sys2Proof Sys2Proof.Machine in
/-- Settles O6: each access by the operation of its queue (`State.toLoadQueue_joins`, `State.toStoreQueue_joins`), and what
becomes pending by the mask that the slot changes. -/
theorem accessesJoinTheirQueue : Obligations.AccessesJoinTheirQueue := by
  unfold Obligations.AccessesJoinTheirQueue
  refine ⟨fun s o v a h off hs => ?_, fun s o h a off i hs => ⟨?_, hld_pends hs⟩⟩
  · exact ⟨loadSlot_queues hs rfl, loadSlot_queues hs rfl, loadSlot_queues hs rfl, hld_queues hs,
      storeSlot_queues (x := fun s => (s.rs o.d).toNat % 2 ^ (8 * 2 ^ o.size.toNat)) hs rfl,
      storeSlot_queues (x := fun s => (s.rs v).toNat) hs rfl, storeSlot_queues (x := fun s => (s.ctx.rh h).toNat) hs rfl,
      mark_queues hs⟩
  · rintro (rfl | rfl | rfl)
    · exact loadSlot_pends (k := .ld) hs rfl
    · exact loadSlot_pends (k := .lds) hs rfl
    · exact loadSlot_pends (k := .chk) hs rfl

/-!
SUPPORT. Words and their fields: a number laid out in fields reads back as those fields, and is laid out again as itself. On
this the decoders and the encoders of slot words (R55 to R62), pump words (R222, R226) and commands of the host (R414, R415)
meet.
-/

namespace Sys2Proof

/-! ### Fields of a number -/

/-- Each value fits its field. -/
abbrev Fits (ws vs : List Nat) : Prop := List.Forall₂ (fun w v => v < 2 ^ w) ws vs

theorem packF_lt (ws vs : List Nat) : packF ws vs < 2 ^ ws.sum := by
  induction ws generalizing vs with
  | nil => simp [packF]
  | cons w ws ih =>
    cases vs with
    | nil => exact Nat.two_pow_pos _
    | cons v vs =>
      have hm := Nat.mul_le_mul_right (2 ^ ws.sum) (Nat.succ_le_of_lt (Nat.mod_lt v (Nat.two_pow_pos w)))
      rw [Nat.succ_mul, ← Nat.pow_add] at hm
      rw [packF, List.sum_cons]
      exact Nat.lt_of_lt_of_le (Nat.add_lt_add_left (ih vs) _) hm

/-- What stands above the fields is not read. -/
theorem splitF_add (ws : List Nat) (a x : Nat) : splitF ws (2 ^ ws.sum * a + x) = splitF ws x := by
  induction ws generalizing a with
  | nil => rfl
  | cons w ws ih =>
    have e : 2 ^ (w :: ws).sum * a + x = 2 ^ ws.sum * (2 ^ w * a) + x := by
      rw [List.sum_cons, Nat.add_comm w, Nat.pow_add, Nat.mul_assoc]
    rw [e, splitF, splitF, ih, Nat.mul_add_div (Nat.two_pow_pos _), Nat.mul_add_mod]

theorem splitF_fits (ws : List Nat) (x : Nat) : Fits ws (splitF ws x) := by
  induction ws with
  | nil => exact .nil
  | cons w ws ih => exact .cons (Nat.mod_lt _ (Nat.two_pow_pos w)) ih

theorem splitF_packF {ws vs : List Nat} (h : Fits ws vs) : splitF ws (packF ws vs) = vs := by
  induction h with
  | nil => rfl
  | @cons w v ws vs hv _ ih =>
    rw [packF, Nat.mod_eq_of_lt hv, Nat.mul_comm, splitF, splitF_add, ih, Nat.mul_add_div (Nat.two_pow_pos _),
      Nat.div_eq_of_lt (packF_lt ws vs), Nat.add_zero, Nat.mod_eq_of_lt hv]

theorem packF_splitF (ws : List Nat) (x : Nat) : packF ws (splitF ws x) = x % 2 ^ ws.sum := by
  induction ws with
  | nil => simp [packF, Nat.mod_one]
  | cons w ws ih =>
    rw [splitF, packF, ih, Nat.mod_mod, List.sum_cons, Nat.add_comm w, Nat.pow_add, Nat.mod_mul, Nat.mul_comm,
      Nat.add_comm]

/-- A number is laid out as the fields that are read from it. -/
theorem packF_of_splitF {ws vs : List Nat} {x : Nat} (h : splitF ws x = vs) (hx : x < 2 ^ ws.sum) : packF ws vs = x := by
  rw [← h, packF_splitF, Nat.mod_eq_of_lt hx]

theorem fits_of_splitF {ws vs : List Nat} {x : Nat} (h : splitF ws x = vs) : Fits ws vs := h ▸ splitF_fits ws x

@[simp] theorem b2n_beq_one (b : Bool) : (b2n b == 1) = b := by cases b <;> rfl

theorem b2n_of_lt {x : Nat} (h : x < 2) : b2n (x == 1) = x := by
  obtain rfl | rfl : x = 0 ∨ x = 1 := by omega
  · rfl
  · rfl

theorem toNat_ofNat_of_lt {n x : Nat} (h : x < 2 ^ n) : (BitVec.ofNat n x).toNat = x := by
  rw [BitVec.toNat_ofNat, Nat.mod_eq_of_lt h]

/-! ### Slot words: from the word to its parts -/

theorem two_pow_oneBay {bays : Nat} {b : BitVec 3} (h : oneBay bays = some b) : 2 ^ b.toNat = bays := by
  unfold oneBay at h
  split at h <;> cases h <;> rfl

theorem oneBay_two_pow (b : BitVec 3) : oneBay (2 ^ b.toNat) = some b := by
  revert b
  decide

/-! ### Slot words: the layouts

Each layout answers an instruction exactly when its fields hold the operands of the instruction. -/

theorem layJnext_ok_iff {f : Nat} {mk : Instr} {i : Instr} :
    layJnext f mk = .ok i ↔
      ∃ _o : Unit, splitF [40] f = [0] ∧ mk = i := by
  constructor
  · intro h
    obtain ⟨z, hs⟩ : ∃ z, splitF [40] f = [z] := ⟨_, rfl⟩
    rw [layJnext, hs] at h
    cases z with | succ => cases h | zero =>
    exact ⟨(), hs, Except.ok.inj h⟩
  · rintro ⟨-, hs, rfl⟩
    rw [layJnext, hs]
    rfl

theorem layLbrk_ok_iff {f : Nat} {mk : BitVec 3 → Instr} {i : Instr} :
    layLbrk f mk = .ok i ↔
      ∃ o : BitVec 3, splitF [3, 37] f = [o.toNat, 0] ∧ mk o = i := by
  constructor
  · intro h
    obtain ⟨lvl, z, hs⟩ : ∃ lvl z, splitF [3, 37] f = [lvl, z] := ⟨_, _, rfl⟩
    rw [layLbrk, hs] at h
    cases z with | succ => cases h | zero =>
    cases h
    exact ⟨.ofNat 3 lvl, hs.trans (by have hv := fits_of_splitF hs; simp_all [Nat.mod_eq_of_lt]), rfl⟩
  · rintro ⟨o, hs, rfl⟩
    rw [layLbrk, hs]
    exact congrArg Except.ok (by simp)

theorem layExit_ok_iff {f : Nat} {mk : BitVec 16 → Instr} {i : Instr} :
    layExit f mk = .ok i ↔
      ∃ o : BitVec 16, splitF [24, 16] f = [0, o.toNat] ∧ mk o = i := by
  constructor
  · intro h
    obtain ⟨z, code, hs⟩ : ∃ z code, splitF [24, 16] f = [z, code] := ⟨_, _, rfl⟩
    rw [layExit, hs] at h
    cases z with | succ => cases h | zero =>
    cases h
    exact ⟨.ofNat 16 code, hs.trans (by have hv := fits_of_splitF hs; simp_all [Nat.mod_eq_of_lt]), rfl⟩
  · rintro ⟨o, hs, rfl⟩
    rw [layExit, hs]
    exact congrArg Except.ok (by simp)

theorem layAdd_ok_iff {f : Nat} {mk : BitVec 6 → BitVec 6 → BitVec 6 → Instr} {i : Instr} :
    layAdd f mk = .ok i ↔
      ∃ o : BitVec 6 × BitVec 6 × BitVec 6, splitF [6, 6, 6, 22] f = [o.1.toNat, o.2.1.toNat, o.2.2.toNat, 0] ∧
        mk o.1 o.2.1 o.2.2 = i := by
  constructor
  · intro h
    obtain ⟨d, a, b, z, hs⟩ : ∃ d a b z, splitF [6, 6, 6, 22] f = [d, a, b, z] := ⟨_, _, _, _, rfl⟩
    rw [layAdd, hs] at h
    cases z with | succ => cases h | zero =>
    cases h
    exact ⟨(.ofNat 6 d, .ofNat 6 a, .ofNat 6 b), hs.trans (by have hv := fits_of_splitF hs; simp_all [Nat.mod_eq_of_lt]), rfl⟩
  · rintro ⟨o, hs, rfl⟩
    rw [layAdd, hs]
    exact congrArg Except.ok (by simp)

theorem layClz_ok_iff {f : Nat} {mk : BitVec 6 → BitVec 6 → Instr} {i : Instr} :
    layClz f mk = .ok i ↔
      ∃ o : BitVec 6 × BitVec 6, splitF [6, 6, 28] f = [o.1.toNat, o.2.toNat, 0] ∧ mk o.1 o.2 = i := by
  constructor
  · intro h
    obtain ⟨d, a, z, hs⟩ : ∃ d a z, splitF [6, 6, 28] f = [d, a, z] := ⟨_, _, _, rfl⟩
    rw [layClz, hs] at h
    cases z with | succ => cases h | zero =>
    cases h
    exact ⟨(.ofNat 6 d, .ofNat 6 a), hs.trans (by have hv := fits_of_splitF hs; simp_all [Nat.mod_eq_of_lt]), rfl⟩
  · rintro ⟨o, hs, rfl⟩
    rw [layClz, hs]
    exact congrArg Except.ok (by simp)

theorem layAddi_ok_iff {f : Nat} {mk : BitVec 6 → BitVec 6 → BitVec 28 → Instr} {i : Instr} :
    layAddi f mk = .ok i ↔
      ∃ o : BitVec 6 × BitVec 6 × BitVec 28, splitF [6, 6, 28] f = [o.1.toNat, o.2.1.toNat, o.2.2.toNat] ∧
        mk o.1 o.2.1 o.2.2 = i := by
  constructor
  · intro h
    obtain ⟨d, a, imm, hs⟩ : ∃ d a imm, splitF [6, 6, 28] f = [d, a, imm] := ⟨_, _, _, rfl⟩
    rw [layAddi, hs] at h
    cases h
    exact ⟨(.ofNat 6 d, .ofNat 6 a, .ofNat 28 imm),
      hs.trans (by have hv := fits_of_splitF hs; simp_all [Nat.mod_eq_of_lt]), rfl⟩
  · rintro ⟨o, hs, rfl⟩
    rw [layAddi, hs]
    exact congrArg Except.ok (by simp)

theorem layShli_ok_iff {f : Nat} {mk : BitVec 6 → BitVec 6 → BitVec 6 → Instr} {i : Instr} :
    layShli f mk = .ok i ↔
      ∃ o : BitVec 6 × BitVec 6 × BitVec 6, splitF [6, 6, 22, 6] f = [o.1.toNat, o.2.1.toNat, 0, o.2.2.toNat] ∧
        mk o.1 o.2.1 o.2.2 = i := by
  constructor
  · intro h
    obtain ⟨d, a, z, imm, hs⟩ : ∃ d a z imm, splitF [6, 6, 22, 6] f = [d, a, z, imm] := ⟨_, _, _, _, rfl⟩
    rw [layShli, hs] at h
    cases z with | succ => cases h | zero =>
    cases h
    exact ⟨(.ofNat 6 d, .ofNat 6 a, .ofNat 6 imm),
      hs.trans (by have hv := fits_of_splitF hs; simp_all [Nat.mod_eq_of_lt]), rfl⟩
  · rintro ⟨o, hs, rfl⟩
    rw [layShli, hs]
    exact congrArg Except.ok (by simp)

theorem layCmpEq_ok_iff {f : Nat} {mk : BitVec 4 → BitVec 6 → BitVec 6 → BitVec 4 → Instr} {i : Instr} :
    layCmpEq f mk = .ok i ↔
      ∃ o : BitVec 4 × BitVec 6 × BitVec 6 × BitVec 4,
        splitF [2, 4, 6, 6, 4, 18] f = [0, o.1.toNat, o.2.1.toNat, o.2.2.1.toNat, o.2.2.2.toNat, 0] ∧
        mk o.1 o.2.1 o.2.2.1 o.2.2.2 = i := by
  constructor
  · intro h
    obtain ⟨z1, pd, a, b, pn, z2, hs⟩ : ∃ z1 pd a b pn z2, splitF [2, 4, 6, 6, 4, 18] f = [z1, pd, a, b, pn, z2] :=
      ⟨_, _, _, _, _, _, rfl⟩
    rw [layCmpEq, hs] at h
    cases z1 with | succ => cases h | zero =>
    cases z2 with | succ => cases h | zero =>
    cases h
    exact ⟨(.ofNat 4 pd, .ofNat 6 a, .ofNat 6 b, .ofNat 4 pn),
      hs.trans (by have hv := fits_of_splitF hs; simp_all [Nat.mod_eq_of_lt]), rfl⟩
  · rintro ⟨o, hs, rfl⟩
    rw [layCmpEq, hs]
    exact congrArg Except.ok (by simp)

theorem layCmpiEq_ok_iff {f : Nat} {mk : BitVec 4 → BitVec 6 → BitVec 4 → BitVec 24 → Instr} {i : Instr} :
    layCmpiEq f mk = .ok i ↔
      ∃ o : BitVec 4 × BitVec 6 × BitVec 4 × BitVec 24,
        splitF [2, 4, 6, 4, 24] f = [0, o.1.toNat, o.2.1.toNat, o.2.2.1.toNat, o.2.2.2.toNat] ∧
        mk o.1 o.2.1 o.2.2.1 o.2.2.2 = i := by
  constructor
  · intro h
    obtain ⟨z, pd, a, pn, imm, hs⟩ : ∃ z pd a pn imm, splitF [2, 4, 6, 4, 24] f = [z, pd, a, pn, imm] :=
      ⟨_, _, _, _, _, rfl⟩
    rw [layCmpiEq, hs] at h
    cases z with | succ => cases h | zero =>
    cases h
    exact ⟨(.ofNat 4 pd, .ofNat 6 a, .ofNat 4 pn, .ofNat 24 imm),
      hs.trans (by have hv := fits_of_splitF hs; simp_all [Nat.mod_eq_of_lt]), rfl⟩
  · rintro ⟨o, hs, rfl⟩
    rw [layCmpiEq, hs]
    exact congrArg Except.ok (by simp)

theorem layPand_ok_iff {f : Nat} {mk : POp → Instr} {i : Instr} :
    layPand f mk = .ok i ↔
      ∃ o : POp, splitF [4, 4, 1, 4, 1, 26] f = [o.pd.toNat, o.pa.toNat, b2n o.na, o.pb.toNat, b2n o.nb, 0] ∧ mk o = i := by
  constructor
  · intro h
    obtain ⟨pd, pa, na, pb, nb, z, hs⟩ : ∃ pd pa na pb nb z, splitF [4, 4, 1, 4, 1, 26] f = [pd, pa, na, pb, nb, z] :=
      ⟨_, _, _, _, _, _, rfl⟩
    rw [layPand, hs] at h
    cases z with | succ => cases h | zero =>
    cases h
    exact ⟨⟨.ofNat 4 pd, .ofNat 4 pa, na == 1, .ofNat 4 pb, nb == 1⟩,
      hs.trans (by have hv := fits_of_splitF hs; simp_all [Nat.mod_eq_of_lt, b2n_of_lt]), rfl⟩
  · rintro ⟨o, hs, rfl⟩
    rw [layPand, hs]
    exact congrArg Except.ok (by simp)

theorem layFadd_ok_iff {f : Nat} {mk : FOp → Instr} {i : Instr} :
    layFadd f mk = .ok i ↔
      ∃ o : FOp,
        splitF [6, 6, 6, 6, 1, 3, 1, 3, 4, 4] f =
          [o.d.toNat, o.a.toNat, o.b.toNat, o.c.toNat, b2n o.prec, o.rnd.toNat, b2n o.sat, o.cond.toNat, o.tf.toNat,
           o.sf.toNat] ∧
        mk o = i := by
  constructor
  · intro h
    obtain ⟨d, a, b, c, prec, rnd, sat, cond, tf, sf, hs⟩ : ∃ d a b c prec rnd sat cond tf sf,
      splitF [6, 6, 6, 6, 1, 3, 1, 3, 4, 4] f = [d, a, b, c, prec, rnd, sat, cond, tf, sf] :=
      ⟨_, _, _, _, _, _, _, _, _, _, rfl⟩
    rw [layFadd, hs] at h
    cases h
    exact ⟨⟨.ofNat 6 d, .ofNat 6 a, .ofNat 6 b, .ofNat 6 c, prec == 1, .ofNat 3 rnd, sat == 1, .ofNat 3 cond,
        .ofNat 4 tf, .ofNat 4 sf⟩,
      hs.trans (by have hv := fits_of_splitF hs; simp_all [Nat.mod_eq_of_lt, b2n_of_lt]), rfl⟩
  · rintro ⟨o, hs, rfl⟩
    rw [layFadd, hs]
    exact congrArg Except.ok (by simp)

theorem layLd_ok_iff {f : Nat} {mk : MOp → Instr} {i : Instr} :
    layLd f mk = .ok i ↔
      ∃ o : MOp, splitF [6, 6, 2, 1, 1, 24] f = [o.d.toNat, o.a.toNat, o.size.toNat, b2n o.u, 0, o.off.toNat] ∧ mk o = i := by
  constructor
  · intro h
    obtain ⟨d, a, size, u, z, off, hs⟩ : ∃ d a size u z off, splitF [6, 6, 2, 1, 1, 24] f = [d, a, size, u, z, off] :=
      ⟨_, _, _, _, _, _, rfl⟩
    rw [layLd, hs] at h
    cases z with | succ => cases h | zero =>
    cases h
    exact ⟨⟨.ofNat 6 d, .ofNat 6 a, .ofNat 2 size, u == 1, .ofNat 24 off⟩,
      hs.trans (by have hv := fits_of_splitF hs; simp_all [Nat.mod_eq_of_lt, b2n_of_lt]), rfl⟩
  · rintro ⟨o, hs, rfl⟩
    rw [layLd, hs]
    exact congrArg Except.ok (by simp)

theorem layHld_ok_iff {f : Nat} {mk : BitVec 4 → BitVec 6 → BitVec 24 → Instr} {i : Instr} :
    layHld f mk = .ok i ↔
      ∃ o : BitVec 4 × BitVec 6 × BitVec 24, splitF [4, 2, 6, 4, 24] f = [o.1.toNat, 0, o.2.1.toNat, 0, o.2.2.toNat] ∧
        mk o.1 o.2.1 o.2.2 = i := by
  constructor
  · intro h
    obtain ⟨hr, z1, a, z2, off, hs⟩ : ∃ hr z1 a z2 off, splitF [4, 2, 6, 4, 24] f = [hr, z1, a, z2, off] :=
      ⟨_, _, _, _, _, rfl⟩
    rw [layHld, hs] at h
    cases z1 with | succ => cases h | zero =>
    cases z2 with | succ => cases h | zero =>
    cases h
    exact ⟨(.ofNat 4 hr, .ofNat 6 a, .ofNat 24 off),
      hs.trans (by have hv := fits_of_splitF hs; simp_all [Nat.mod_eq_of_lt]), rfl⟩
  · rintro ⟨o, hs, rfl⟩
    rw [layHld, hs]
    exact congrArg Except.ok (by simp)

theorem layVadd_ok_iff {bays f : Nat} (hb : bays < 2 ^ 8) {mk : BitVec 8 → VOp → Instr} {i : Instr} :
    layVadd bays f mk = .ok i ↔
      ∃ o : BitVec 8 × VOp, o.1.toNat = bays ∧
        splitF [8, 8, 8, 8, 3, 2, 3] f =
          [o.2.d.toNat, o.2.a.toNat, o.2.b.toNat, o.2.c.toNat, o.2.rnd.toNat, o.2.vt.toNat, o.2.msel.toNat] ∧
        mk o.1 o.2 = i := by
  constructor
  · intro h
    obtain ⟨d, a, b, c, rnd, vt, msel, hs⟩ : ∃ d a b c rnd vt msel, splitF [8, 8, 8, 8, 3, 2, 3] f =
      [d, a, b, c, rnd, vt, msel] :=
      ⟨_, _, _, _, _, _, _, rfl⟩
    rw [layVadd, hs] at h
    cases h
    exact ⟨(.ofNat 8 bays, ⟨.ofNat 8 d, .ofNat 8 a, .ofNat 8 b, .ofNat 8 c, .ofNat 3 rnd, .ofNat 2 vt, .ofNat 3 msel⟩),
        Nat.mod_eq_of_lt hb,
      hs.trans (by have hv := fits_of_splitF hs; simp_all [Nat.mod_eq_of_lt]), rfl⟩
  · rintro ⟨o, rfl, hs, rfl⟩
    rw [layVadd, hs]
    exact congrArg Except.ok (by simp)

theorem layVmand_ok_iff {bays f : Nat} (hb : bays < 2 ^ 8) {mk : BitVec 8 → BitVec 3 → BitVec 3 → BitVec 3 → Instr}
    {i : Instr} :
    layVmand bays f mk = .ok i ↔
      ∃ o : BitVec 8 × BitVec 3 × BitVec 3 × BitVec 3, o.1.toNat = bays ∧
        splitF [5, 3, 5, 3, 5, 3, 16] f = [0, o.2.1.toNat, 0, o.2.2.1.toNat, 0, o.2.2.2.toNat, 0] ∧
        mk o.1 o.2.1 o.2.2.1 o.2.2.2 = i := by
  constructor
  · intro h
    obtain ⟨z1, d, z2, a, z3, b, z4, hs⟩ : ∃ z1 d z2 a z3 b z4, splitF [5, 3, 5, 3, 5, 3, 16] f = [z1, d, z2, a, z3, b, z4] :=
      ⟨_, _, _, _, _, _, _, rfl⟩
    rw [layVmand, hs] at h
    cases z1 with | succ => cases h | zero =>
    cases z2 with | succ => cases h | zero =>
    cases z3 with | succ => cases h | zero =>
    cases z4 with | succ => cases h | zero =>
    cases h
    exact ⟨(.ofNat 8 bays, .ofNat 3 d, .ofNat 3 a, .ofNat 3 b), Nat.mod_eq_of_lt hb,
      hs.trans (by have hv := fits_of_splitF hs; simp_all [Nat.mod_eq_of_lt]), rfl⟩
  · rintro ⟨o, rfl, hs, rfl⟩
    rw [layVmand, hs]
    exact congrArg Except.ok (by simp)

theorem layVcvt_ok_iff {bays f : Nat} (hb : bays < 2 ^ 8) {mk : BitVec 8 → CvOp → Instr} {i : Instr} :
    layVcvt bays f mk = .ok i ↔
      ∃ o : BitVec 8 × CvOp, o.1.toNat = bays ∧
        splitF [8, 8, 8, 4, 4, 3, 1, 1, 3] f =
          [o.2.d.toNat, o.2.a.toNat, o.2.b.toNat, o.2.tf.toNat, o.2.sf.toNat, o.2.rnd.toNat, b2n o.2.sat, 0,
           o.2.msel.toNat] ∧
        mk o.1 o.2 = i := by
  constructor
  · intro h
    obtain ⟨d, a, b, tf, sf, rnd, sat, z, msel, hs⟩ : ∃ d a b tf sf rnd sat z msel,
      splitF [8, 8, 8, 4, 4, 3, 1, 1, 3] f = [d, a, b, tf, sf, rnd, sat, z, msel] :=
      ⟨_, _, _, _, _, _, _, _, _, rfl⟩
    rw [layVcvt, hs] at h
    cases z with | succ => cases h | zero =>
    cases h
    exact ⟨(.ofNat 8 bays,
        ⟨.ofNat 8 d, .ofNat 8 a, .ofNat 8 b, .ofNat 4 tf, .ofNat 4 sf, .ofNat 3 rnd, sat == 1, .ofNat 3 msel⟩),
        Nat.mod_eq_of_lt hb,
      hs.trans (by have hv := fits_of_splitF hs; simp_all [Nat.mod_eq_of_lt, b2n_of_lt]), rfl⟩
  · rintro ⟨o, rfl, hs, rfl⟩
    rw [layVcvt, hs]
    exact congrArg Except.ok (by simp)

theorem layScanPsum_ok_iff {bays f : Nat} (hb : bays < 2 ^ 8) {mk : BitVec 8 → ScOp → Instr} {i : Instr} :
    layScanPsum bays f mk = .ok i ↔
      ∃ o : BitVec 8 × ScOp, o.1.toNat = bays ∧
        splitF [8, 8, 8, 4, 3, 1, 3, 1, 4] f =
          [o.2.d.toNat, o.2.a.toNat, o.2.b.toNat, o.2.fmt.toNat, o.2.lw.toNat, b2n o.2.carry, o.2.rnd.toNat,
           b2n o.2.sat, o.2.k.toNat] ∧
        mk o.1 o.2 = i := by
  constructor
  · intro h
    obtain ⟨d, a, b, fmt, lw, carry, rnd, sat, k, hs⟩ : ∃ d a b fmt lw carry rnd sat k,
      splitF [8, 8, 8, 4, 3, 1, 3, 1, 4] f = [d, a, b, fmt, lw, carry, rnd, sat, k] :=
      ⟨_, _, _, _, _, _, _, _, _, rfl⟩
    rw [layScanPsum, hs] at h
    cases h
    exact ⟨(.ofNat 8 bays,
        ⟨.ofNat 8 d, .ofNat 8 a, .ofNat 8 b, .ofNat 4 fmt, .ofNat 3 lw, carry == 1, .ofNat 3 rnd, sat == 1,
        .ofNat 4 k⟩), Nat.mod_eq_of_lt hb,
      hs.trans (by have hv := fits_of_splitF hs; simp_all [Nat.mod_eq_of_lt, b2n_of_lt]), rfl⟩
  · rintro ⟨o, rfl, hs, rfl⟩
    rw [layScanPsum, hs]
    exact congrArg Except.ok (by simp)

theorem layQUnbind_ok_iff {bays f : Nat} (hb : bays < 2 ^ 8) {mk : BitVec 8 → BitVec 5 → Instr} {i : Instr} :
    layQUnbind bays f mk = .ok i ↔
      ∃ o : BitVec 8 × BitVec 5, o.1.toNat = bays ∧ splitF [5, 35] f = [o.2.toNat, 0] ∧ mk o.1 o.2 = i := by
  constructor
  · intro h
    obtain ⟨q, z, hs⟩ : ∃ q z, splitF [5, 35] f = [q, z] := ⟨_, _, rfl⟩
    rw [layQUnbind, hs] at h
    cases z with | succ => cases h | zero =>
    cases h
    exact ⟨(.ofNat 8 bays, .ofNat 5 q), Nat.mod_eq_of_lt hb,
      hs.trans (by have hv := fits_of_splitF hs; simp_all [Nat.mod_eq_of_lt]), rfl⟩
  · rintro ⟨o, rfl, hs, rfl⟩
    rw [layQUnbind, hs]
    exact congrArg Except.ok (by simp)

theorem layStnWait_ok_iff {bays f : Nat} {mk : BitVec 3 → BitVec 6 → Instr} {i : Instr} :
    layStnWait bays f mk = .ok i ↔
      ∃ o : BitVec 3 × BitVec 6, 2 ^ o.1.toNat = bays ∧ splitF [6, 34] f = [o.2.toNat, 0] ∧ mk o.1 o.2 = i := by
  constructor
  · intro h
    obtain ⟨d, z, hs⟩ : ∃ d z, splitF [6, 34] f = [d, z] := ⟨_, _, rfl⟩
    cases hb : oneBay bays with | none => rw [layStnWait, hb] at h; cases h | some bay =>
    rw [layStnWait, hb, hs] at h
    cases z with | succ => cases h | zero =>
    cases h
    exact ⟨(_, .ofNat 6 d), two_pow_oneBay hb, hs.trans (by have hv := fits_of_splitF hs; simp_all [Nat.mod_eq_of_lt]), rfl⟩
  · rintro ⟨o, rfl, hs, rfl⟩
    rw [layStnWait, oneBay_two_pow, hs]
    exact congrArg Except.ok (by simp)

theorem layProbe_ok_iff {bays f : Nat} {mk : BitVec 3 → BitVec 4 → BitVec 6 → BitVec 6 → BitVec 6 → Instr} {i : Instr} :
    layProbe bays f mk = .ok i ↔
      ∃ o : BitVec 3 × BitVec 4 × BitVec 6 × BitVec 6 × BitVec 6, 2 ^ o.1.toNat = bays ∧
        splitF [4, 6, 6, 6, 18] f = [o.2.1.toNat, o.2.2.1.toNat, o.2.2.2.1.toNat, o.2.2.2.2.toNat, 0] ∧
        mk o.1 o.2.1 o.2.2.1 o.2.2.2.1 o.2.2.2.2 = i := by
  constructor
  · intro h
    obtain ⟨pd, d, a, v, z, hs⟩ : ∃ pd d a v z, splitF [4, 6, 6, 6, 18] f = [pd, d, a, v, z] := ⟨_, _, _, _, _, rfl⟩
    cases hb : oneBay bays with | none => rw [layProbe, hb] at h; cases h | some bay =>
    rw [layProbe, hb, hs] at h
    cases z with | succ => cases h | zero =>
    cases h
    exact ⟨(_, .ofNat 4 pd, .ofNat 6 d, .ofNat 6 a, .ofNat 6 v), two_pow_oneBay hb,
      hs.trans (by have hv := fits_of_splitF hs; simp_all [Nat.mod_eq_of_lt]), rfl⟩
  · rintro ⟨o, rfl, hs, rfl⟩
    rw [layProbe, oneBay_two_pow, hs]
    exact congrArg Except.ok (by simp)

theorem layCopy_ok_iff {bays f : Nat} {mk : BitVec 3 → BitVec 6 → BitVec 6 → BitVec 6 → BitVec 6 → BitVec 6 → Instr}
    {i : Instr} :
    layCopy bays f mk = .ok i ↔
      ∃ o : BitVec 3 × BitVec 6 × BitVec 6 × BitVec 6 × BitVec 6 × BitVec 6, 2 ^ o.1.toNat = bays ∧
        splitF [6, 6, 6, 6, 6, 10] f =
          [o.2.1.toNat, o.2.2.1.toNat, o.2.2.2.1.toNat, o.2.2.2.2.1.toNat, o.2.2.2.2.2.toNat, 0] ∧
        mk o.1 o.2.1 o.2.2.1 o.2.2.2.1 o.2.2.2.2.1 o.2.2.2.2.2 = i := by
  constructor
  · intro h
    obtain ⟨b, a, n, c, v, z, hs⟩ : ∃ b a n c v z, splitF [6, 6, 6, 6, 6, 10] f = [b, a, n, c, v, z] :=
      ⟨_, _, _, _, _, _, rfl⟩
    cases hb : oneBay bays with | none => rw [layCopy, hb] at h; cases h | some bay =>
    rw [layCopy, hb, hs] at h
    cases z with | succ => cases h | zero =>
    cases h
    exact ⟨(_, .ofNat 6 b, .ofNat 6 a, .ofNat 6 n, .ofNat 6 c, .ofNat 6 v), two_pow_oneBay hb,
      hs.trans (by have hv := fits_of_splitF hs; simp_all [Nat.mod_eq_of_lt]), rfl⟩
  · rintro ⟨o, rfl, hs, rfl⟩
    rw [layCopy, oneBay_two_pow, hs]
    exact congrArg Except.ok (by simp)

theorem laySumpAdd_ok_iff {bays f : Nat} (hb : bays < 2 ^ 8) {mk : BitVec 8 → BitVec 5 → BitVec 5 → BitVec 4 → Instr}
    {i : Instr} :
    laySumpAdd bays f mk = .ok i ↔
      ∃ o : BitVec 8 × BitVec 5 × BitVec 5 × BitVec 4, o.1.toNat = bays ∧
        splitF [5, 5, 4, 26] f = [o.2.1.toNat, o.2.2.1.toNat, o.2.2.2.toNat, 0] ∧
        mk o.1 o.2.1 o.2.2.1 o.2.2.2 = i := by
  constructor
  · intro h
    obtain ⟨qi, qv, fmt, z, hs⟩ : ∃ qi qv fmt z, splitF [5, 5, 4, 26] f = [qi, qv, fmt, z] := ⟨_, _, _, _, rfl⟩
    rw [laySumpAdd, hs] at h
    cases z with | succ => cases h | zero =>
    cases h
    exact ⟨(.ofNat 8 bays, .ofNat 5 qi, .ofNat 5 qv, .ofNat 4 fmt), Nat.mod_eq_of_lt hb,
      hs.trans (by have hv := fits_of_splitF hs; simp_all [Nat.mod_eq_of_lt]), rfl⟩
  · rintro ⟨o, rfl, hs, rfl⟩
    rw [laySumpAdd, hs]
    exact congrArg Except.ok (by simp)

theorem layPumpLd_ok_iff {bays f : Nat} {mk : BitVec 6 → BitVec 6 → Instr} {i : Instr} :
    layPumpLd bays f mk = .ok i ↔
      ∃ o : BitVec 6 × BitVec 6, 0xFF = bays ∧ splitF [6, 6, 28] f = [o.1.toNat, o.2.toNat, 0] ∧ mk o.1 o.2 = i := by
  constructor
  · intro h
    obtain ⟨a, b, z, hs⟩ : ∃ a b z, splitF [6, 6, 28] f = [a, b, z] := ⟨_, _, _, rfl⟩
    cases hb : decide (bays = 0xFF) with | false => rw [layPumpLd, hb] at h; cases h | true =>
    rw [layPumpLd, hb, hs] at h
    cases z with | succ => cases h | zero =>
    cases h
    exact ⟨(.ofNat 6 a, .ofNat 6 b), (of_decide_eq_true hb).symm,
      hs.trans (by have hv := fits_of_splitF hs; simp_all [Nat.mod_eq_of_lt]), rfl⟩
  · rintro ⟨o, rfl, hs, rfl⟩
    rw [layPumpLd, hs]
    exact congrArg Except.ok (by simp)

theorem layPumpGo_ok_iff {bays f : Nat} {mk : BitVec 6 → Instr} {i : Instr} :
    layPumpGo bays f mk = .ok i ↔
      ∃ o : BitVec 6, 0xFF = bays ∧ splitF [6, 34] f = [o.toNat, 0] ∧ mk o = i := by
  constructor
  · intro h
    obtain ⟨a, z, hs⟩ : ∃ a z, splitF [6, 34] f = [a, z] := ⟨_, _, rfl⟩
    cases hb : decide (bays = 0xFF) with | false => rw [layPumpGo, hb] at h; cases h | true =>
    rw [layPumpGo, hb, hs] at h
    cases z with | succ => cases h | zero =>
    cases h
    exact ⟨.ofNat 6 a, (of_decide_eq_true hb).symm,
      hs.trans (by have hv := fits_of_splitF hs; simp_all [Nat.mod_eq_of_lt]), rfl⟩
  · rintro ⟨o, rfl, hs, rfl⟩
    rw [layPumpGo, hs]
    exact congrArg Except.ok (by simp)

theorem layFenceRc_ok_iff {f : Nat} {mk : BitVec 6 → Instr} {i : Instr} :
    layFenceRc f mk = .ok i ↔
      ∃ o : BitVec 6, splitF [6, 34] f = [o.toNat, 0] ∧ mk o = i := by
  constructor
  · intro h
    obtain ⟨d, z, hs⟩ : ∃ d z, splitF [6, 34] f = [d, z] := ⟨_, _, rfl⟩
    rw [layFenceRc, hs] at h
    cases z with | succ => cases h | zero =>
    cases h
    exact ⟨.ofNat 6 d, hs.trans (by have hv := fits_of_splitF hs; simp_all [Nat.mod_eq_of_lt]), rfl⟩
  · rintro ⟨o, hs, rfl⟩
    rw [layFenceRc, hs]
    exact congrArg Except.ok (by simp)

theorem layCsrw_ok_iff {f : Nat} {mk : BitVec 6 → BitVec 6 → BitVec 12 → Instr} {i : Instr} :
    layCsrw f mk = .ok i ↔
      ∃ o : BitVec 6 × BitVec 6 × BitVec 12, splitF [6, 6, 12, 16] f = [o.1.toNat, o.2.1.toNat, o.2.2.toNat, 0] ∧
        mk o.1 o.2.1 o.2.2 = i := by
  constructor
  · intro h
    obtain ⟨d, a, csr, z, hs⟩ : ∃ d a csr z, splitF [6, 6, 12, 16] f = [d, a, csr, z] := ⟨_, _, _, _, rfl⟩
    rw [layCsrw, hs] at h
    cases z with | succ => cases h | zero =>
    cases h
    exact ⟨(.ofNat 6 d, .ofNat 6 a, .ofNat 12 csr),
      hs.trans (by have hv := fits_of_splitF hs; simp_all [Nat.mod_eq_of_lt]), rfl⟩
  · rintro ⟨o, hs, rfl⟩
    rw [layCsrw, hs]
    exact congrArg Except.ok (by simp)

/-! ### Slot words: from the word to its parts -/

/-- CLASS, BAYS, OPC and the operand field of the slot word of an instruction. -/
def slotParts (i : Instr) : Option (Nat × Nat × Nat × Nat) :=
  (encFields i).map fun e => (e.cls, e.bays, e.opc, packF e.ws e.vs)

/-- The parts of an instruction whose operand fields hold what stands in the operand field. -/
theorem slotParts_of_fields {c b b' o f : Nat} {ws vs : List Nat} {i : Instr} (hs : splitF ws f = vs) (hf : f < 2 ^ 40)
    (he : encFields i = some ⟨c, o, b', ws, vs⟩) (hw : ws.sum = 40) (hb : b' = b) : slotParts i = some (c, b, o, f) := by
  rw [slotParts, he, Option.map_some, packF_of_splitF hs (hw ▸ hf), hb]

/-- The same where the operands are read from the fields. -/
theorem slotParts_of_splitF {c b b' o f : Nat} {ws vs us : List Nat} {i : Instr} (hs : splitF ws f = vs) (hf : f < 2 ^ 40)
    (he : encFields i = some ⟨c, o, b', ws, us⟩) (hw : ws.sum = 40) (hb : b' = b) (hu : Fits ws vs → us = vs) :
    slotParts i = some (c, b, o, f) :=
  slotParts_of_fields hs hf (he.trans (by rw [hu (fits_of_splitF hs)])) hw hb

theorem slotParts_of_decodeControl {opc f : Nat} {i : Instr} (hf : f < 2 ^ 40) (h : decodeControl opc f = .ok i) :
    slotParts i = some (0, 0, opc, f) := by
  unfold decodeControl at h
  split at h
  case h_1 | h_2 | h_4 | h_5 | h_9 =>
    split at h
    next hs =>
      cases h
      exact slotParts_of_splitF hs hf rfl rfl rfl fun hv => by simp_all [Nat.mod_eq_of_lt, b2n_of_lt]
    next => cases h
  case h_10 => cases h
  all_goals
    simp only [layJnext_ok_iff, layLbrk_ok_iff, layExit_ok_iff] at h
    obtain ⟨o, hs, rfl⟩ := h
    exact slotParts_of_fields hs hf rfl rfl rfl

theorem slotParts_of_decodeScalar {opc f : Nat} {i : Instr} (hf : f < 2 ^ 40) (h : decodeScalar opc f = .ok i) :
    slotParts i = some (1, 0, opc, f) := by
  unfold decodeScalar at h
  split at h
  case h_16 | h_24 | h_25 | h_55 | h_58 | h_59 | h_60 =>
    split at h
    next hs =>
      cases h
      exact slotParts_of_splitF hs hf rfl rfl rfl fun hv => by simp_all [Nat.mod_eq_of_lt]
    next => cases h
  case h_41 =>
    -- `PMOVS` in the direction that DIR gives.
    split at h
    next dir hs =>
      have hv := fits_of_splitF hs
      simp only [List.forall₂_cons] at hv
      obtain rfl | rfl : dir = 0 ∨ dir = 1 := by omega
      all_goals
        cases h
        exact slotParts_of_splitF hs hf rfl rfl rfl fun hv => by simp_all [Nat.mod_eq_of_lt]
    next => cases h
  case h_61 => cases h
  all_goals
    simp only [layAdd_ok_iff, layClz_ok_iff, layAddi_ok_iff, layShli_ok_iff, layCmpEq_ok_iff, layCmpiEq_ok_iff,
      layPand_ok_iff, layFadd_ok_iff, layLd_ok_iff, layJnext_ok_iff, layHld_ok_iff] at h
    obtain ⟨o, hs, rfl⟩ := h
    exact slotParts_of_fields hs hf rfl rfl rfl

section

variable {bays opc f : Nat} {i : Instr} (hb : bays < 2 ^ 8) (hf : f < 2 ^ 40)

include hb hf

theorem slotParts_of_decodeVector (h : decodeVector bays opc f = .ok i) : slotParts i = some (2, bays, opc, f) := by
  unfold decodeVector at h
  split at h
  case h_25 =>
    split at h
    next hs =>
      cases h
      exact slotParts_of_splitF hs hf rfl rfl (toNat_ofNat_of_lt hb) fun hv => by simp_all [Nat.mod_eq_of_lt]
    next => cases h
  case h_41 => cases h
  all_goals
    simp only [layVadd_ok_iff hb, layVmand_ok_iff hb, layVcvt_ok_iff hb] at h
    obtain ⟨o, hbays, hs, rfl⟩ := h
    exact slotParts_of_fields hs hf rfl rfl hbays

theorem slotParts_of_decodeScan (h : decodeScan bays opc f = .ok i) : slotParts i = some (3, bays, opc, f) := by
  unfold decodeScan at h
  split at h
  case h_13 => cases h
  all_goals
    obtain ⟨o, hbays, hs, rfl⟩ := (layScanPsum_ok_iff hb).1 h
    exact slotParts_of_fields hs hf rfl rfl hbays

theorem slotParts_of_decodeMatrix (h : decodeMatrix bays opc f = .ok i) : slotParts i = some (4, bays, opc, f) := by
  unfold decodeMatrix at h
  split at h
  case h_11 => cases h
  all_goals
    split at h
    next hs =>
      cases h
      exact slotParts_of_splitF hs hf rfl rfl (toNat_ofNat_of_lt hb) fun hv => by simp_all [Nat.mod_eq_of_lt, b2n_of_lt]
    next => cases h

theorem slotParts_of_decodeStream (h : decodeStream bays opc f = .ok i) : slotParts i = some (5, bays, opc, f) := by
  unfold decodeStream at h
  split at h
  case h_1 | h_3 | h_4 | h_7 =>
    split at h
    next hs =>
      cases h
      exact slotParts_of_splitF hs hf rfl rfl (toNat_ofNat_of_lt hb) fun hv => by simp_all [Nat.mod_eq_of_lt, b2n_of_lt]
    next => cases h
  case h_5 =>
    -- `Q.XFER` with ROT and QD both 0 is the landing of a transfer.
    split at h
    next hs =>
      split at h
      all_goals
        cases h
        exact slotParts_of_splitF hs hf rfl rfl (toNat_ofNat_of_lt hb) fun hv => by simp_all [Nat.mod_eq_of_lt]
    next => cases h
  case h_8 =>
    split at h
    next hbay hs =>
      cases h
      exact slotParts_of_splitF hs hf rfl rfl (two_pow_oneBay hbay) fun hv => by simp_all [Nat.mod_eq_of_lt, b2n_of_lt]
    all_goals cases h
  case h_17 => cases h
  all_goals
    simp only [layQUnbind_ok_iff hb, layStnWait_ok_iff, layProbe_ok_iff, layCopy_ok_iff] at h
    obtain ⟨o, hbays, hs, rfl⟩ := h
    exact slotParts_of_fields hs hf rfl rfl hbays

theorem slotParts_of_decodeSump (h : decodeSump bays opc f = .ok i) : slotParts i = some (6, bays, opc, f) := by
  unfold decodeSump at h
  split at h
  case h_5 | h_6 | h_7 | h_11 | h_13 | h_15 =>
    split at h
    next hall hs =>
      cases h
      exact slotParts_of_splitF hs hf rfl rfl (of_decide_eq_true hall).symm fun hv => by
        simp_all [Nat.mod_eq_of_lt, b2n_of_lt]
    all_goals cases h
  case h_16 => cases h
  all_goals
    simp only [laySumpAdd_ok_iff hb, layQUnbind_ok_iff hb, layPumpLd_ok_iff, layPumpGo_ok_iff] at h
    obtain ⟨o, hbays, hs, rfl⟩ := h
    exact slotParts_of_fields hs hf rfl rfl hbays

end

theorem slotParts_of_decodeSync {opc f : Nat} {i : Instr} (hf : f < 2 ^ 40) (h : decodeSync opc f = .ok i) :
    slotParts i = some (7, 0, opc, f) := by
  unfold decodeSync at h
  split at h
  case h_1 | h_2 | h_7 | h_12 =>
    split at h
    next hs =>
      cases h
      exact slotParts_of_splitF hs hf rfl rfl rfl fun hv => by simp_all [Nat.mod_eq_of_lt, b2n_of_lt]
    next => cases h
  case h_20 => cases h
  all_goals
    simp only [layFenceRc_ok_iff, layClz_ok_iff, layAdd_ok_iff, layCsrw_ok_iff, layExit_ok_iff] at h
    obtain ⟨o, hs, rfl⟩ := h
    exact slotParts_of_fields hs hf rfl rfl rfl

/-- The instruction of a slot word by its class (R56). -/
def decodeClass (cls bays opc f : Nat) : Except DecodeErr Instr :=
  match cls with
  | 0 => if bays = 0 then decodeControl opc f else .error .bays
  | 1 => if bays = 0 then decodeScalar opc f else .error .bays
  | 2 => decodeVector bays opc f
  | 3 => decodeScan bays opc f
  | 4 => decodeMatrix bays opc f
  | 5 => decodeStream bays opc f
  | 6 => decodeSump bays opc f
  | _ => if bays = 0 then decodeSync opc f else .error .bays

section

variable {bays opc f : Nat}

theorem decodeClass_control : decodeClass 0 0 opc f = decodeControl opc f := rfl

theorem decodeClass_scalar : decodeClass 1 0 opc f = decodeScalar opc f := rfl

theorem decodeClass_vector : decodeClass 2 bays opc f = decodeVector bays opc f := rfl

theorem decodeClass_matrix : decodeClass 4 bays opc f = decodeMatrix bays opc f := rfl

theorem decodeClass_stream : decodeClass 5 bays opc f = decodeStream bays opc f := rfl

theorem decodeClass_sump : decodeClass 6 bays opc f = decodeSump bays opc f := rfl

theorem decodeClass_sync : decodeClass 7 0 opc f = decodeSync opc f := rfl

end

/-! ### Slot words: from the parts to the instruction -/

/-- A class and an opcode that fit their fields, and are not those of the all-zero word. -/
def headOk (cls opc : Nat) : Bool := decide (cls < 2 ^ 3) && decide (opc < 2 ^ 8) && !(cls == 0 && opc == 0)

/-- The parts of a word fit their fields, and decode to the instruction. -/
structure Enc.Decodes (e : Enc) (i : Instr) : Prop where
  head : headOk e.cls e.opc = true
  bays : e.bays < 2 ^ 8
  sum : e.ws.sum = 40
  fits : Fits e.ws e.vs
  decode : ∀ f, splitF e.ws f = e.vs → decodeClass e.cls e.bays e.opc f = .ok i

theorem Enc.Decodes.of {cls opc bays : Nat} {ws vs : List Nat} {e : Enc} {i : Instr}
    (he : some ⟨cls, opc, bays, ws, vs⟩ = some e)
    (hh : headOk cls opc = true) (hb : bays < 2 ^ 8) (hw : ws.sum = 40) (hv : Fits ws vs)
    (hd : ∀ f, splitF ws f = vs → decodeClass cls bays opc f = .ok i) : e.Decodes i :=
  Option.some.inj he ▸ ⟨hh, hb, hw, hv, hd⟩

theorem two_pow_lt_of_bay (b : BitVec 3) : 2 ^ b.toNat < 2 ^ 8 := Nat.pow_lt_pow_right (by decide) b.isLt

section

variable {cls opc : Nat} {e : Enc}

theorem decodes_layJnext {mk : Instr}
    (he : some ⟨cls, opc, 0, [40], [0]⟩ = some e) (hh : headOk cls opc = true)
    (hd : ∀ f, decodeClass cls 0 opc f = layJnext f mk) : e.Decodes mk :=
  .of he hh (by decide) rfl (by simp [-Nat.reducePow]) fun f hs => (hd f).trans (layJnext_ok_iff.2 ⟨(), hs, rfl⟩)

theorem decodes_layLbrk {mk : BitVec 3 → Instr} {lvl : BitVec 3}
    (he : some ⟨cls, opc, 0, [3, 37], [lvl.toNat, 0]⟩ = some e) (hh : headOk cls opc = true)
    (hd : ∀ f, decodeClass cls 0 opc f = layLbrk f mk) : e.Decodes (mk lvl) :=
  .of he hh (by decide) rfl (by simp [BitVec.isLt, -Nat.reducePow]) fun f hs => (hd f).trans (layLbrk_ok_iff.2 ⟨_, hs, rfl⟩)

theorem decodes_layExit {mk : BitVec 16 → Instr} {code : BitVec 16}
    (he : some ⟨cls, opc, 0, [24, 16], [0, code.toNat]⟩ = some e) (hh : headOk cls opc = true)
    (hd : ∀ f, decodeClass cls 0 opc f = layExit f mk) : e.Decodes (mk code) :=
  .of he hh (by decide) rfl (by simp [BitVec.isLt, -Nat.reducePow]) fun f hs => (hd f).trans (layExit_ok_iff.2 ⟨_, hs, rfl⟩)

theorem decodes_layAdd {mk : BitVec 6 → BitVec 6 → BitVec 6 → Instr} {d a b : BitVec 6}
    (he : some ⟨cls, opc, 0, [6, 6, 6, 22], [d.toNat, a.toNat, b.toNat, 0]⟩ = some e) (hh : headOk cls opc = true)
    (hd : ∀ f, decodeClass cls 0 opc f = layAdd f mk) : e.Decodes (mk d a b) :=
  .of he hh (by decide) rfl (by simp [BitVec.isLt, -Nat.reducePow]) fun f hs =>
    (hd f).trans (layAdd_ok_iff.2 ⟨(_, _, _), hs, rfl⟩)

theorem decodes_layClz {mk : BitVec 6 → BitVec 6 → Instr} {d a : BitVec 6}
    (he : some ⟨cls, opc, 0, [6, 6, 28], [d.toNat, a.toNat, 0]⟩ = some e) (hh : headOk cls opc = true)
    (hd : ∀ f, decodeClass cls 0 opc f = layClz f mk) : e.Decodes (mk d a) :=
  .of he hh (by decide) rfl (by simp [BitVec.isLt, -Nat.reducePow]) fun f hs =>
    (hd f).trans (layClz_ok_iff.2 ⟨(_, _), hs, rfl⟩)

theorem decodes_layAddi {mk : BitVec 6 → BitVec 6 → BitVec 28 → Instr} {d a : BitVec 6} {imm : BitVec 28}
    (he : some ⟨cls, opc, 0, [6, 6, 28], [d.toNat, a.toNat, imm.toNat]⟩ = some e) (hh : headOk cls opc = true)
    (hd : ∀ f, decodeClass cls 0 opc f = layAddi f mk) : e.Decodes (mk d a imm) :=
  .of he hh (by decide) rfl (by simp [BitVec.isLt, -Nat.reducePow]) fun f hs =>
    (hd f).trans (layAddi_ok_iff.2 ⟨(_, _, _), hs, rfl⟩)

theorem decodes_layShli {mk : BitVec 6 → BitVec 6 → BitVec 6 → Instr} {d a imm : BitVec 6}
    (he : some ⟨cls, opc, 0, [6, 6, 22, 6], [d.toNat, a.toNat, 0, imm.toNat]⟩ = some e) (hh : headOk cls opc = true)
    (hd : ∀ f, decodeClass cls 0 opc f = layShli f mk) : e.Decodes (mk d a imm) :=
  .of he hh (by decide) rfl (by simp [BitVec.isLt, -Nat.reducePow]) fun f hs =>
    (hd f).trans (layShli_ok_iff.2 ⟨(_, _, _), hs, rfl⟩)

theorem decodes_layCmpEq {mk : BitVec 4 → BitVec 6 → BitVec 6 → BitVec 4 → Instr} {pd : BitVec 4} {a b : BitVec 6}
    {pn : BitVec 4}
    (he : some ⟨cls, opc, 0, [2, 4, 6, 6, 4, 18], [0, pd.toNat, a.toNat, b.toNat, pn.toNat, 0]⟩ = some e)
    (hh : headOk cls opc = true)
    (hd : ∀ f, decodeClass cls 0 opc f = layCmpEq f mk) : e.Decodes (mk pd a b pn) :=
  .of he hh (by decide) rfl (by simp [BitVec.isLt, -Nat.reducePow]) fun f hs =>
    (hd f).trans (layCmpEq_ok_iff.2 ⟨(_, _, _, _), hs, rfl⟩)

theorem decodes_layCmpiEq {mk : BitVec 4 → BitVec 6 → BitVec 4 → BitVec 24 → Instr} {pd : BitVec 4} {a : BitVec 6}
    {pn : BitVec 4} {imm : BitVec 24}
    (he : some ⟨cls, opc, 0, [2, 4, 6, 4, 24], [0, pd.toNat, a.toNat, pn.toNat, imm.toNat]⟩ = some e)
    (hh : headOk cls opc = true)
    (hd : ∀ f, decodeClass cls 0 opc f = layCmpiEq f mk) : e.Decodes (mk pd a pn imm) :=
  .of he hh (by decide) rfl (by simp [BitVec.isLt, -Nat.reducePow]) fun f hs =>
    (hd f).trans (layCmpiEq_ok_iff.2 ⟨(_, _, _, _), hs, rfl⟩)

theorem decodes_layPand {mk : POp → Instr} {o : POp}
    (he : some ⟨cls, opc, 0, [4, 4, 1, 4, 1, 26], [o.pd.toNat, o.pa.toNat, b2n o.na, o.pb.toNat, b2n o.nb, 0]⟩ = some e)
    (hh : headOk cls opc = true)
    (hd : ∀ f, decodeClass cls 0 opc f = layPand f mk) : e.Decodes (mk o) :=
  .of he hh (by decide) rfl (by simp [BitVec.isLt, -Nat.reducePow]) fun f hs => (hd f).trans (layPand_ok_iff.2 ⟨_, hs, rfl⟩)

theorem decodes_layFadd {mk : FOp → Instr} {o : FOp}
    (he : some ⟨cls, opc, 0, [6, 6, 6, 6, 1, 3, 1, 3, 4, 4],
      [o.d.toNat, o.a.toNat, o.b.toNat, o.c.toNat, b2n o.prec, o.rnd.toNat, b2n o.sat, o.cond.toNat, o.tf.toNat,
      o.sf.toNat]⟩ = some e)
    (hh : headOk cls opc = true)
    (hd : ∀ f, decodeClass cls 0 opc f = layFadd f mk) : e.Decodes (mk o) :=
  .of he hh (by decide) rfl (by simp [BitVec.isLt, -Nat.reducePow]) fun f hs => (hd f).trans (layFadd_ok_iff.2 ⟨_, hs, rfl⟩)

theorem decodes_layLd {mk : MOp → Instr} {o : MOp}
    (he : some ⟨cls, opc, 0, [6, 6, 2, 1, 1, 24], [o.d.toNat, o.a.toNat, o.size.toNat, b2n o.u, 0, o.off.toNat]⟩ =
      some e)
    (hh : headOk cls opc = true)
    (hd : ∀ f, decodeClass cls 0 opc f = layLd f mk) : e.Decodes (mk o) :=
  .of he hh (by decide) rfl (by simp [BitVec.isLt, -Nat.reducePow]) fun f hs => (hd f).trans (layLd_ok_iff.2 ⟨_, hs, rfl⟩)

theorem decodes_layHld {mk : BitVec 4 → BitVec 6 → BitVec 24 → Instr} {hr : BitVec 4} {a : BitVec 6} {off : BitVec 24}
    (he : some ⟨cls, opc, 0, [4, 2, 6, 4, 24], [hr.toNat, 0, a.toNat, 0, off.toNat]⟩ = some e) (hh : headOk cls opc = true)
    (hd : ∀ f, decodeClass cls 0 opc f = layHld f mk) : e.Decodes (mk hr a off) :=
  .of he hh (by decide) rfl (by simp [BitVec.isLt, -Nat.reducePow]) fun f hs =>
    (hd f).trans (layHld_ok_iff.2 ⟨(_, _, _), hs, rfl⟩)

theorem decodes_layVadd {mk : BitVec 8 → VOp → Instr} {bays : BitVec 8} {o : VOp}
    (he : some ⟨cls, opc, bays.toNat, [8, 8, 8, 8, 3, 2, 3],
      [o.d.toNat, o.a.toNat, o.b.toNat, o.c.toNat, o.rnd.toNat, o.vt.toNat, o.msel.toNat]⟩ = some e)
    (hh : headOk cls opc = true)
    (hd : ∀ f, decodeClass cls bays.toNat opc f = layVadd bays.toNat f mk) : e.Decodes (mk bays o) :=
  .of he hh bays.isLt rfl (by simp [BitVec.isLt, -Nat.reducePow]) fun f hs =>
    (hd f).trans ((layVadd_ok_iff bays.isLt).2 ⟨(_, _), rfl, hs, rfl⟩)

theorem decodes_layVmand {mk : BitVec 8 → BitVec 3 → BitVec 3 → BitVec 3 → Instr} {bays : BitVec 8} {d a b : BitVec 3}
    (he : some ⟨cls, opc, bays.toNat, [5, 3, 5, 3, 5, 3, 16], [0, d.toNat, 0, a.toNat, 0, b.toNat, 0]⟩ = some e)
    (hh : headOk cls opc = true)
    (hd : ∀ f, decodeClass cls bays.toNat opc f = layVmand bays.toNat f mk) : e.Decodes (mk bays d a b) :=
  .of he hh bays.isLt rfl (by simp [BitVec.isLt, -Nat.reducePow]) fun f hs =>
    (hd f).trans ((layVmand_ok_iff bays.isLt).2 ⟨(_, _, _, _), rfl, hs, rfl⟩)

theorem decodes_layVcvt {mk : BitVec 8 → CvOp → Instr} {bays : BitVec 8} {o : CvOp}
    (he : some ⟨cls, opc, bays.toNat, [8, 8, 8, 4, 4, 3, 1, 1, 3],
      [o.d.toNat, o.a.toNat, o.b.toNat, o.tf.toNat, o.sf.toNat, o.rnd.toNat, b2n o.sat, 0, o.msel.toNat]⟩ = some e)
    (hh : headOk cls opc = true)
    (hd : ∀ f, decodeClass cls bays.toNat opc f = layVcvt bays.toNat f mk) : e.Decodes (mk bays o) :=
  .of he hh bays.isLt rfl (by simp [BitVec.isLt, -Nat.reducePow]) fun f hs =>
    (hd f).trans ((layVcvt_ok_iff bays.isLt).2 ⟨(_, _), rfl, hs, rfl⟩)

theorem decodes_layScanPsum {mk : BitVec 8 → ScOp → Instr} {bays : BitVec 8} {o : ScOp}
    (he : some ⟨cls, opc, bays.toNat, [8, 8, 8, 4, 3, 1, 3, 1, 4],
      [o.d.toNat, o.a.toNat, o.b.toNat, o.fmt.toNat, o.lw.toNat, b2n o.carry, o.rnd.toNat, b2n o.sat, o.k.toNat]⟩ =
      some e)
    (hh : headOk cls opc = true)
    (hd : ∀ f, decodeClass cls bays.toNat opc f = layScanPsum bays.toNat f mk) : e.Decodes (mk bays o) :=
  .of he hh bays.isLt rfl (by simp [BitVec.isLt, -Nat.reducePow]) fun f hs =>
    (hd f).trans ((layScanPsum_ok_iff bays.isLt).2 ⟨(_, _), rfl, hs, rfl⟩)

theorem decodes_layQUnbind {mk : BitVec 8 → BitVec 5 → Instr} {bays : BitVec 8} {q : BitVec 5}
    (he : some ⟨cls, opc, bays.toNat, [5, 35], [q.toNat, 0]⟩ = some e) (hh : headOk cls opc = true)
    (hd : ∀ f, decodeClass cls bays.toNat opc f = layQUnbind bays.toNat f mk) : e.Decodes (mk bays q) :=
  .of he hh bays.isLt rfl (by simp [BitVec.isLt, -Nat.reducePow]) fun f hs =>
    (hd f).trans ((layQUnbind_ok_iff bays.isLt).2 ⟨(_, _), rfl, hs, rfl⟩)

theorem decodes_layStnWait {mk : BitVec 3 → BitVec 6 → Instr} {bay : BitVec 3} {d : BitVec 6}
    (he : some ⟨cls, opc, 2 ^ bay.toNat, [6, 34], [d.toNat, 0]⟩ = some e) (hh : headOk cls opc = true)
    (hd : ∀ f, decodeClass cls (2 ^ bay.toNat) opc f = layStnWait (2 ^ bay.toNat) f mk) : e.Decodes (mk bay d) :=
  .of he hh (two_pow_lt_of_bay bay) rfl (by simp [BitVec.isLt, -Nat.reducePow]) fun f hs =>
    (hd f).trans (layStnWait_ok_iff.2 ⟨(_, _), rfl, hs, rfl⟩)

theorem decodes_layProbe {mk : BitVec 3 → BitVec 4 → BitVec 6 → BitVec 6 → BitVec 6 → Instr} {bay : BitVec 3}
    {pd : BitVec 4} {d a v : BitVec 6}
    (he : some ⟨cls, opc, 2 ^ bay.toNat, [4, 6, 6, 6, 18], [pd.toNat, d.toNat, a.toNat, v.toNat, 0]⟩ = some e)
    (hh : headOk cls opc = true)
    (hd : ∀ f, decodeClass cls (2 ^ bay.toNat) opc f = layProbe (2 ^ bay.toNat) f mk) : e.Decodes (mk bay pd d a v) :=
  .of he hh (two_pow_lt_of_bay bay) rfl (by simp [BitVec.isLt, -Nat.reducePow]) fun f hs =>
    (hd f).trans (layProbe_ok_iff.2 ⟨(_, _, _, _, _), rfl, hs, rfl⟩)

theorem decodes_layCopy {mk : BitVec 3 → BitVec 6 → BitVec 6 → BitVec 6 → BitVec 6 → BitVec 6 → Instr} {bay : BitVec 3}
    {b a n c v : BitVec 6}
    (he : some ⟨cls, opc, 2 ^ bay.toNat, [6, 6, 6, 6, 6, 10], [b.toNat, a.toNat, n.toNat, c.toNat, v.toNat, 0]⟩ =
      some e)
    (hh : headOk cls opc = true)
    (hd : ∀ f, decodeClass cls (2 ^ bay.toNat) opc f = layCopy (2 ^ bay.toNat) f mk) : e.Decodes (mk bay b a n c v) :=
  .of he hh (two_pow_lt_of_bay bay) rfl (by simp [BitVec.isLt, -Nat.reducePow]) fun f hs =>
    (hd f).trans (layCopy_ok_iff.2 ⟨(_, _, _, _, _, _), rfl, hs, rfl⟩)

theorem decodes_laySumpAdd {mk : BitVec 8 → BitVec 5 → BitVec 5 → BitVec 4 → Instr} {bays : BitVec 8} {qi qv : BitVec 5}
    {fmt : BitVec 4}
    (he : some ⟨cls, opc, bays.toNat, [5, 5, 4, 26], [qi.toNat, qv.toNat, fmt.toNat, 0]⟩ = some e)
    (hh : headOk cls opc = true)
    (hd : ∀ f, decodeClass cls bays.toNat opc f = laySumpAdd bays.toNat f mk) : e.Decodes (mk bays qi qv fmt) :=
  .of he hh bays.isLt rfl (by simp [BitVec.isLt, -Nat.reducePow]) fun f hs =>
    (hd f).trans ((laySumpAdd_ok_iff bays.isLt).2 ⟨(_, _, _, _), rfl, hs, rfl⟩)

theorem decodes_layPumpLd {mk : BitVec 6 → BitVec 6 → Instr} {a b : BitVec 6}
    (he : some ⟨cls, opc, 0xFF, [6, 6, 28], [a.toNat, b.toNat, 0]⟩ = some e) (hh : headOk cls opc = true)
    (hd : ∀ f, decodeClass cls 0xFF opc f = layPumpLd 0xFF f mk) : e.Decodes (mk a b) :=
  .of he hh (by decide) rfl (by simp [BitVec.isLt, -Nat.reducePow]) fun f hs =>
    (hd f).trans (layPumpLd_ok_iff.2 ⟨(_, _), rfl, hs, rfl⟩)

theorem decodes_layPumpGo {mk : BitVec 6 → Instr} {a : BitVec 6}
    (he : some ⟨cls, opc, 0xFF, [6, 34], [a.toNat, 0]⟩ = some e) (hh : headOk cls opc = true)
    (hd : ∀ f, decodeClass cls 0xFF opc f = layPumpGo 0xFF f mk) : e.Decodes (mk a) :=
  .of he hh (by decide) rfl (by simp [BitVec.isLt, -Nat.reducePow]) fun f hs =>
    (hd f).trans (layPumpGo_ok_iff.2 ⟨_, rfl, hs, rfl⟩)

theorem decodes_layFenceRc {mk : BitVec 6 → Instr} {d : BitVec 6}
    (he : some ⟨cls, opc, 0, [6, 34], [d.toNat, 0]⟩ = some e) (hh : headOk cls opc = true)
    (hd : ∀ f, decodeClass cls 0 opc f = layFenceRc f mk) : e.Decodes (mk d) :=
  .of he hh (by decide) rfl (by simp [BitVec.isLt, -Nat.reducePow]) fun f hs =>
    (hd f).trans (layFenceRc_ok_iff.2 ⟨_, hs, rfl⟩)

theorem decodes_layCsrw {mk : BitVec 6 → BitVec 6 → BitVec 12 → Instr} {d a : BitVec 6} {csr : BitVec 12}
    (he : some ⟨cls, opc, 0, [6, 6, 12, 16], [d.toNat, a.toNat, csr.toNat, 0]⟩ = some e) (hh : headOk cls opc = true)
    (hd : ∀ f, decodeClass cls 0 opc f = layCsrw f mk) : e.Decodes (mk d a csr) :=
  .of he hh (by decide) rfl (by simp [BitVec.isLt, -Nat.reducePow]) fun f hs =>
    (hd f).trans (layCsrw_ok_iff.2 ⟨(_, _, _), hs, rfl⟩)


end

/-- The parts of a well-formed instruction decode to it. -/
theorem decodes_of_encFields {i : Instr} {e : Enc} (hw : wf i = true) (he : encFields i = some e) : e.Decodes i := by
  cases i
  case jnext | mark => as_aux_lemma => exact decodes_layJnext he rfl fun _ => rfl
  case lbrk | lcont => as_aux_lemma => exact decodes_layLbrk he rfl fun _ => rfl
  case exit | trap | dbrk => as_aux_lemma => exact decodes_layExit he rfl fun _ => rfl
  case add | sub | and | or | xor | andn | shl | shr | sar | min | max | minu | maxu | mul | mulh | mulhu | shadow =>
    as_aux_lemma => exact decodes_layAdd he rfl fun _ => rfl
  case clz | popc | publish => as_aux_lemma => exact decodes_layClz he rfl fun _ => rfl
  case addi | andi | ori | xori => as_aux_lemma => exact decodes_layAddi he rfl fun _ => rfl
  case shli | shri | sari => as_aux_lemma => exact decodes_layShli he rfl fun _ => rfl
  case cmpEq | cmpNe | cmpLt | cmpLtu | cmpLe | cmpLeu =>
    as_aux_lemma => exact decodes_layCmpEq he rfl fun _ => rfl
  case cmpiEq | cmpiLt => as_aux_lemma => exact decodes_layCmpiEq he rfl fun _ => rfl
  case pand | por | pxor | pandn => as_aux_lemma => exact decodes_layPand he rfl fun _ => rfl
  case fadd | fsub | fmul | ffma | fmin | fmax | fcmp | fcvt =>
    as_aux_lemma => exact decodes_layFadd he rfl fun _ => rfl
  case ld | st | lds | chk => as_aux_lemma => exact decodes_layLd he rfl fun _ => rfl
  case hld | hst => as_aux_lemma => exact decodes_layHld he rfl fun _ => rfl
  case vadd | vsub | vmin | vmax | vabs | vneg | vand | vor | vxor | vandn | vshl | vshr | vsar | vmov | vsel |
      vcmpEq | vcmpNe | vcmpLt | vcmpLe | vcmpUn | vmul | vfma | vfms | vfnma | vexp2 | vlog2 | vrcp | vrsqrt |
      vsqrt | vtanh | vsigm =>
    as_aux_lemma => exact decodes_layVadd he rfl fun _ => rfl
  case vmand | vmor | vmxor | vmandn => as_aux_lemma => exact decodes_layVmand he rfl fun _ => rfl
  case vcvt | vrint | vpack | vunpk => as_aux_lemma => exact decodes_layVcvt he rfl fun _ => rfl
  case scanPsum | scanPmax | scanPmin | scanSpsum | scanRsum | scanRmax | scanRmin | scanAmax | scanCmpct |
      scanArgmax | scanTopk | scanRank =>
    as_aux_lemma => exact decodes_layScanPsum he rfl fun _ => rfl
  case qUnbind | qDrain | sumpCnt => as_aux_lemma => exact decodes_layQUnbind he rfl fun _ => rfl
  case stnWait | stnPasses | probeInv | probeTag =>
    as_aux_lemma => exact decodes_layStnWait he rfl fun _ => rfl
  case probe | pageReq => as_aux_lemma => exact decodes_layProbe he rfl fun _ => rfl
  case copy | copySt => as_aux_lemma => exact decodes_layCopy he rfl fun _ => rfl
  case sumpAdd | sumpMax | sumpMin => as_aux_lemma => exact decodes_laySumpAdd he rfl fun _ => rfl
  case pumpLd | pumpIdle => as_aux_lemma => exact decodes_layPumpLd he rfl fun _ => rfl
  case pumpGo | pumpStat | nmFence => as_aux_lemma => exact decodes_layPumpGo he rfl fun _ => rfl
  case fenceRc | shadowFree | bar | realign | rdgtc | goWait | tlbSync | domsw =>
    as_aux_lemma => exact decodes_layFenceRc he rfl fun _ => rfl
  case csrw | csrs | csrc => as_aux_lemma => exact decodes_layCsrw he rfl fun _ => rfl
  case qXfer bays qd qs rot =>
    have hr : rot ≠ 0 := bne_iff_ne.1 (Bool.and_eq_true_iff.1 hw).2
    have hr' : rot.toNat ≠ 0 := fun h => hr (BitVec.eq_of_toNat_eq h)
    as_aux_lemma =>
      exact .of he rfl bays.isLt rfl (by simp [BitVec.isLt, -Nat.reducePow]) fun f hs => by
        rw [decodeClass_stream, decodeStream, hs]
        exact congrArg Except.ok (by simp [hr'])
  case br | brv | jseg | loop | tret =>
    as_aux_lemma =>
      exact .of he rfl (by decide) rfl (by simp [BitVec.isLt, -Nat.reducePow]) fun f hs => by
        rw [decodeClass_control]
        unfold decodeControl
        rw [hs]
        exact congrArg Except.ok (by simp)
  case sel | movi | movhi | pmovsToScalar | pmovsFromScalar | hset | hget | hmov =>
    as_aux_lemma =>
      exact .of he rfl (by decide) rfl (by simp [BitVec.isLt, -Nat.reducePow]) fun f hs => by
        rw [decodeClass_scalar]
        unfold decodeScalar
        rw [hs]
        exact congrArg Except.ok (by simp)
  case signal =>
    as_aux_lemma =>
      exact .of he rfl (by decide) rfl
        (.cons (BitVec.isLt _) (.cons (BitVec.isLt _) (.cons (by decide) (.cons (by decide) (.cons (BitVec.isLt _) .nil)))))
        fun f hs => by
        rw [decodeClass_scalar]
        unfold decodeScalar
        rw [hs]
        exact congrArg Except.ok (by simp)
  case vmset =>
    as_aux_lemma =>
      exact .of he rfl (BitVec.isLt _) rfl (by simp [BitVec.isLt, -Nat.reducePow]) fun f hs => by
        rw [decodeClass_vector]
        unfold decodeVector
        rw [hs]
        exact congrArg Except.ok (by simp)
  case mxPush | mxAcc | mxShift | mxHold | mxDrain | mxZero | mxMode | mxScale | mxSnap | mxSwap =>
    as_aux_lemma =>
      exact .of he rfl (BitVec.isLt _) rfl (by simp [BitVec.isLt, -Nat.reducePow]) fun f hs => by
        rw [decodeClass_matrix]
        unfold decodeMatrix
        rw [hs]
        exact congrArg Except.ok (by simp)
  case qBind | qSkip | qRmask | qXferLand | stnLd =>
    as_aux_lemma =>
      exact .of he rfl (BitVec.isLt _) rfl (by simp [BitVec.isLt, -Nat.reducePow]) fun f hs => by
        rw [decodeClass_stream]
        unfold decodeStream
        rw [hs]
        exact congrArg Except.ok (by simp)
  case stnCut =>
    as_aux_lemma =>
      exact .of he rfl (two_pow_lt_of_bay _) rfl (by simp [BitVec.isLt, -Nat.reducePow]) fun f hs => by
        rw [decodeClass_stream, decodeStream, oneBay_two_pow, hs]
        exact congrArg Except.ok (by simp)
  case sumpSnap | sumpRd | sumpClr | pumpDead | pumpActr | nmStat =>
    as_aux_lemma =>
      exact .of he rfl (by decide) rfl (by simp [BitVec.isLt, -Nat.reducePow]) fun f hs => by
        rw [decodeClass_sump]
        unfold decodeSump
        rw [hs]
        exact congrArg Except.ok (by simp)
  case waitA | fence | qwait | csrr =>
    as_aux_lemma =>
      exact .of he rfl (by decide) rfl (by simp [BitVec.isLt, -Nat.reducePow]) fun f hs => by
        rw [decodeClass_sync]
        unfold decodeSync
        rw [hs]
        exact congrArg Except.ok (by simp)
  all_goals cases he

/-! ### Slot words: the whole word -/

/-- CLASS, GUARD, GNEG, BAYS, OPC and the operand field of a slot word (R55). -/
abbrev slotFields : List Nat := [3, 4, 1, 8, 8, 40]

theorem guardOf_of_splitF {w c g n b o f : Nat} (hs : splitF slotFields w = [c, g, n, b, o, f]) :
    guardOf w = (g, n == 1) := by
  simp only [splitF, List.cons.injEq] at hs
  obtain ⟨_, rfl, rfl, _⟩ := hs
  rfl

theorem class_cases {c : Nat} (h : c < 2 ^ 3) :
    c = 0 ∨ c = 1 ∨ c = 2 ∨ c = 3 ∨ c = 4 ∨ c = 5 ∨ c = 6 ∨ c = 7 := by omega

/-- A word is `NOP` when it is all zero, and is decoded by its class when it is not. -/
theorem decodeRaw_of_splitF {w c g n b o f : Nat} (hw : w < 2 ^ 64) (hs : splitF slotFields w = [c, g, n, b, o, f]) :
    decodeRaw w = if w = 0 then .ok .nop else decodeClass c b o f := by
  have hv := fits_of_splitF hs
  simp only [List.forall₂_cons] at hv
  split
  next h0 => subst h0; rfl
  next h0 =>
    obtain rfl | hcls := class_cases hv.1
    · have hz : ¬ (g = 0 ∧ n = 0 ∧ b = 0 ∧ o = 0 ∧ f = 0) := by
        rintro ⟨rfl, rfl, rfl, rfl, rfl⟩
        exact h0 (packF_of_splitF hs hw).symm
      rw [decodeRaw, hs]
      cases g with | succ => rfl | zero =>
      cases n with | succ => rfl | zero =>
      cases b with | succ => rfl | zero =>
      cases o with | succ => rfl | zero =>
      cases f with | succ => rfl | zero =>
      exact absurd ⟨rfl, rfl, rfl, rfl, rfl⟩ hz
    · rw [decodeRaw, hs]
      rcases hcls with rfl | rfl | rfl | rfl | rfl | rfl | rfl <;> rfl

/-- The six parts of a word. -/
theorem exists_splitF (w : Nat) : ∃ c g n b o f, splitF slotFields w = [c, g, n, b, o, f] := ⟨_, _, _, _, _, _, rfl⟩

theorem of_ite_ok {ε α : Type} {p : Prop} [Decidable p] {x : Except ε α} {e : ε} {a : α}
    (h : (if p then x else .error e) = .ok a) : p ∧ x = .ok a := by
  split at h
  next hp => exact ⟨hp, h⟩
  next => cases h

theorem slotParts_of_decodeClass {c b o f : Nat} {i : Instr} (hc : c < 2 ^ 3) (hb : b < 2 ^ 8) (hf : f < 2 ^ 40)
    (h : decodeClass c b o f = .ok i) : slotParts i = some (c, b, o, f) := by
  obtain rfl | rfl | rfl | rfl | rfl | rfl | rfl | rfl := class_cases hc
  · obtain ⟨rfl, h⟩ := of_ite_ok (x := decodeControl o f) h
    exact slotParts_of_decodeControl hf h
  · obtain ⟨rfl, h⟩ := of_ite_ok (x := decodeScalar o f) h
    exact slotParts_of_decodeScalar hf h
  · exact slotParts_of_decodeVector hb hf h
  · exact slotParts_of_decodeScan hb hf h
  · exact slotParts_of_decodeMatrix hb hf h
  · exact slotParts_of_decodeStream hb hf h
  · exact slotParts_of_decodeSump hb hf h
  · obtain ⟨rfl, h⟩ := of_ite_ok (x := decodeSync o f) h
    exact slotParts_of_decodeSync hf h

theorem decodeSlot_ok_iff {w : Nat} {i : Instr} : decodeSlot w = .ok i ↔ decodeRaw w = .ok i ∧ wf i = true := by
  unfold decodeSlot
  split
  next j hj => grind
  next => simp_all

theorem encodeGuarded_of_ne_nop {i : Instr} (g : BitVec 4) (neg : Bool) (hi : i ≠ .nop) :
    encodeGuarded g neg i = (encFields i).map fun e =>
      packF slotFields [e.cls, g.toNat, b2n neg, e.bays, e.opc, packF e.ws e.vs] := by
  cases i
  case nop => exact absurd rfl hi
  all_goals rfl

/-- An instruction with parts is no `NOP`. -/
theorem encodeGuarded_of_encFields {i : Instr} {e : Enc} (g : BitVec 4) (neg : Bool) (he : encFields i = some e) :
    encodeGuarded g neg i =
      some (packF slotFields [e.cls, g.toNat, b2n neg, e.bays, e.opc, packF e.ws e.vs]) := by
  have hi : i ≠ .nop := by
    rintro rfl
    cases he
  rw [encodeGuarded_of_ne_nop g neg hi, he, Option.map_some]

theorem encodeGuarded_some {i : Instr} {g : BitVec 4} {neg : Bool} {w : Nat} (h : encodeGuarded g neg i = some w) :
    i = .nop ∧ w = 0 ∨ ∃ e, encFields i = some e ∧
      packF slotFields [e.cls, g.toNat, b2n neg, e.bays, e.opc, packF e.ws e.vs] = w := by
  by_cases hi : i = .nop
  · subst hi
    exact .inl ⟨rfl, (Option.some.inj h).symm⟩
  · rw [encodeGuarded_of_ne_nop g neg hi] at h
    exact .inr (Option.map_eq_some_iff.1 h)

theorem decodeSlot_of_encodeGuarded {i : Instr} {g : BitVec 4} {neg : Bool} {w : Nat} (hw : wf i = true)
    (h : encodeGuarded g neg i = some w) :
    decodeSlot w = .ok i ∧ w < 2 ^ 64 ∧ (i ≠ .nop → guardOf w = (g.toNat, neg)) := by
  obtain ⟨rfl, rfl⟩ | ⟨e, he, rfl⟩ := encodeGuarded_some h
  · exact ⟨rfl, by decide, fun h => absurd rfl h⟩
  · obtain ⟨hh, hb, hws, hv, hd⟩ := decodes_of_encFields hw he
    obtain ⟨⟨hc, ho⟩, h0⟩ : (e.cls < 2 ^ 3 ∧ e.opc < 2 ^ 8) ∧ (¬ e.cls = 0 ∨ ¬ e.opc = 0) := by simpa [headOk] using hh
    have hs := splitF_packF (ws := slotFields) (vs := [e.cls, g.toNat, b2n neg, e.bays, e.opc, packF e.ws e.vs])
      (.cons hc (.cons g.isLt (.cons (b2n_lt neg) (.cons hb (.cons ho (.cons (hws ▸ packF_lt e.ws e.vs) .nil))))))
    have hlt := packF_lt slotFields [e.cls, g.toNat, b2n neg, e.bays, e.opc, packF e.ws e.vs]
    refine ⟨decodeSlot_ok_iff.2 ⟨?_, hw⟩, hlt, fun _ => by rw [guardOf_of_splitF hs, b2n_beq_one]⟩
    rw [decodeRaw_of_splitF hlt hs, if_neg, hd _ (splitF_packF hv)]
    intro hz
    rw [hz] at hs
    have hz0 : splitF slotFields 0 = [0, 0, 0, 0, 0, 0] := rfl
    rw [hz0] at hs
    injection hs with hc0 hs
    injection hs with _ hs
    injection hs with _ hs
    injection hs with _ hs
    injection hs with ho0
    exact h0.elim (fun h => h hc0.symm) fun h => h ho0.symm

theorem encodeGuarded_of_decodeSlot {w : Nat} {i : Instr} (hw : w < 2 ^ 64) (h : decodeSlot w = .ok i) :
    wf i = true ∧ encodeGuarded (.ofNat 4 (guardOf w).1) (guardOf w).2 i = some w := by
  obtain ⟨h, hi⟩ := decodeSlot_ok_iff.1 h
  refine ⟨hi, ?_⟩
  obtain ⟨c, g, n, b, o, f, hs⟩ := exists_splitF w
  rw [decodeRaw_of_splitF hw hs] at h
  split at h
  next h0 => cases h; rw [h0]; rfl
  next =>
    have hv := fits_of_splitF hs
    simp only [List.forall₂_cons] at hv
    obtain ⟨hc, hg, hn, hb, ho, hf, -⟩ := hv
    have hp := slotParts_of_decodeClass hc hb hf h
    obtain ⟨e, he, hp⟩ := Option.map_eq_some_iff.1 hp
    cases hp
    rw [encodeGuarded_of_encFields _ _ he, guardOf_of_splitF hs, BitVec.toNat_ofNat, Nat.mod_eq_of_lt hg, b2n_of_lt hn]
    exact congrArg some (packF_of_splitF hs hw)

/-! ### Pump words -/

/-- The fields of a pump command word (R222). -/
abbrev pumpFields : List Nat := [4, 6, 2, 2, 18, 32]

theorem pumpWord_lt (cmd : Nat) (b : BankId) (rc ca : Nat) : pumpWord cmd b rc ca < 2 ^ 64 := packF_lt pumpFields _

theorem splitF_pumpWord {cmd rc ca : Nat} (b : BankId) (hc : cmd < 2 ^ 4) (hr : rc < 2 ^ 18) (ha : ca < 2 ^ 32) :
    splitF pumpFields (pumpWord cmd b rc ca) = [cmd, b.pc.toNat, b.bg.toNat, b.bk.toNat, rc, ca] :=
  splitF_packF (.cons hc (.cons b.pc.isLt (.cons b.bg.isLt (.cons b.bk.isLt (.cons hr (.cons ha .nil))))))

theorem pumpWord_of_splitF {w cmd pc bg bk rc ca : Nat} (hw : w < 2 ^ 64)
    (hs : splitF pumpFields w = [cmd, pc, bg, bk, rc, ca]) :
    pumpWord cmd ⟨.ofNat 6 pc, .ofNat 2 bg, .ofNat 2 bk⟩ rc ca = w := by
  obtain ⟨_, hp, hg, hk, -⟩ : cmd < 2 ^ 4 ∧ pc < 2 ^ 6 ∧ bg < 2 ^ 2 ∧ bk < 2 ^ 2 ∧ _ := by
    simpa only [List.forall₂_cons] using fits_of_splitF hs
  rw [pumpWord, BitVec.toNat_ofNat, BitVec.toNat_ofNat, BitVec.toNat_ofNat, Nat.mod_eq_of_lt hp, Nat.mod_eq_of_lt hg,
    Nat.mod_eq_of_lt hk]
  exact packF_of_splitF hs hw

/-- The near-memory command of an operation code (R226). -/
def nmcInstr (n : NmcOp) : Nat → Option Instr
  | 0 => some (.nmcFade n)
  | 1 => some (.nmcAxpy n)
  | 2 => some (.nmcAdd n)
  | 3 => some (.nmcScale n)
  | 4 => some (.nmcFill n)
  | _ => none

theorem encodePump_nmcInstr {n : NmcOp} {op : Nat} {i : Instr} (h : nmcInstr n op = some i) :
    encodePump i = some (nmcWords op n) := by
  unfold nmcInstr at h
  split at h <;> cases h <;> rfl

theorem decodeNmc_of_splitF {pc bg bk rc ca half count op col a b : Nat} (hr : splitF [5, 3, 10] rc = [count, op, col])
    (hh : splitF [32, 32] half = [a, b]) {i : Instr} : decodeNmc pc bg bk rc ca half = .ok i ↔
      nmcInstr ⟨⟨.ofNat _ pc, .ofNat _ bg, .ofNat _ bk⟩, .ofNat _ count, .ofNat _ col, .ofNat _ ca, .ofNat _ a,
        .ofNat _ b⟩ op = some i := by
  rw [decodeNmc, hr, hh]
  unfold nmcInstr
  dsimp only
  split <;> simp

theorem decodePump_ok_iff {w : Nat} {h : Option Nat} {i : Instr} :
    decodePump w h = .ok i ↔ decodePumpRaw w h = .ok i ∧ wf i = true := by
  unfold decodePump
  split
  next j hj => grind
  next => simp_all

section

variable {w pc bg bk rc ca x : Nat} {h : Option Nat}

theorem decodePumpRaw_skip (hs : splitF pumpFields w = [0, pc, bg, bk, rc, x]) :
    decodePumpRaw w h =
      if pc = 0 ∧ bg = 0 ∧ bk = 0 ∧ rc = 0 ∧ x = 0 then .ok .pumpSkip else .error .reserved := by
  rw [decodePumpRaw, hs]
  cases pc with | succ => rfl | zero =>
  cases bg with | succ => rfl | zero =>
  cases bk with | succ => rfl | zero =>
  cases rc with | succ => rfl | zero =>
  cases x with | succ => rfl | zero =>
  rfl

theorem decodePumpRaw_act (hs : splitF pumpFields w = [1, pc, bg, bk, rc, x]) :
    decodePumpRaw w h =
      if x = 0 then .ok (.act ⟨.ofNat _ pc, .ofNat _ bg, .ofNat _ bk⟩ (.ofNat _ rc)) else .error .reserved := by
  rw [decodePumpRaw, hs]
  cases x <;> rfl

theorem decodePumpRaw_rd (hs : splitF pumpFields w = [2, pc, bg, bk, rc, ca]) :
    decodePumpRaw w h =
      if rc < 32 then .ok (.rd ⟨.ofNat _ pc, .ofNat _ bg, .ofNat _ bk⟩ (.ofNat _ rc) (.ofNat _ ca))
      else .error .reserved := by
  rw [decodePumpRaw, hs]
  rfl

theorem decodePumpRaw_wr (hs : splitF pumpFields w = [3, pc, bg, bk, rc, ca]) :
    decodePumpRaw w h =
      if rc < 32 then .ok (.wr ⟨.ofNat _ pc, .ofNat _ bg, .ofNat _ bk⟩ (.ofNat _ rc) (.ofNat _ ca))
      else .error .reserved := by
  rw [decodePumpRaw, hs]
  rfl

theorem decodePumpRaw_pre (hs : splitF pumpFields w = [4, pc, bg, bk, rc, x]) :
    decodePumpRaw w h =
      if rc = 0 ∧ x = 0 then .ok (.pre ⟨.ofNat _ pc, .ofNat _ bg, .ofNat _ bk⟩) else .error .reserved := by
  rw [decodePumpRaw, hs]
  cases rc <;> cases x <;> rfl

theorem decodePumpRaw_prea (hs : splitF pumpFields w = [5, pc, bg, bk, rc, x]) :
    decodePumpRaw w h =
      if bg = 0 ∧ bk = 0 ∧ rc = 0 ∧ x = 0 then .ok (.prea (.ofNat _ pc)) else .error .reserved := by
  rw [decodePumpRaw, hs]
  cases bg with | succ => rfl | zero =>
  cases bk with | succ => rfl | zero =>
  cases rc with | succ => rfl | zero =>
  cases x with | succ => rfl | zero =>
  rfl

theorem decodePumpRaw_refr (hs : splitF pumpFields w = [6, pc, bg, bk, rc, x]) :
    decodePumpRaw w h =
      if x = 0 then .ok (.refr ⟨.ofNat _ pc, .ofNat _ bg, .ofNat _ bk⟩ (.ofNat _ rc)) else .error .reserved := by
  rw [decodePumpRaw, hs]
  cases x <;> rfl

theorem decodePumpRaw_nmc {half : Nat} (hs : splitF pumpFields w = [7, pc, bg, bk, rc, ca]) :
    decodePumpRaw w (some half) = decodeNmc pc bg bk rc ca half := by
  rw [decodePumpRaw, hs]
  rfl

theorem decodePumpRaw_error {n : Nat} (hs : splitF pumpFields w = [n + 8, pc, bg, bk, rc, ca]) :
    decodePumpRaw w h = .error (.opcode 8 (n + 8)) := by
  rw [decodePumpRaw, hs]
  exact if_neg (Nat.not_lt_of_le (Nat.le_add_left 8 n))

end

/-- A word that fits its size and the half after it, which decode to the pump command. -/
structure PumpWords (i : Instr) (w : Nat) (h : Option Nat) : Prop where
  decode : decodePumpRaw w h = .ok i
  word : w < 2 ^ 64

theorem pumpWords_of_nmcWords {n : NmcOp} {op w : Nat} {h : Option Nat} {i : Instr} (hw : nmcWords op n = (w, h))
    (ho : op < 2 ^ 3) (hi : nmcInstr n op = some i) : PumpWords i w h := by
  obtain ⟨rfl, rfl⟩ := Prod.mk.inj hw
  have hr := splitF_packF (ws := [5, 3, 10]) (vs := [n.count.toNat, op, n.col.toNat])
    (.cons n.count.isLt (.cons ho (.cons n.col.isLt .nil)))
  have hh := splitF_packF (ws := [32, 32]) (vs := [n.a.toNat, n.b.toNat]) (.cons n.a.isLt (.cons n.b.isLt .nil))
  have hs := splitF_pumpWord (cmd := 7) n.bank (by decide) (packF_lt [5, 3, 10] [n.count.toNat, op, n.col.toNat])
    n.caddr.isLt
  refine ⟨(decodePumpRaw_nmc hs).trans ((decodeNmc_of_splitF hr hh).2 ?_), pumpWord_lt ..⟩
  simpa using hi

theorem pumpWords_of_encodePump {i : Instr} {w : Nat} {h : Option Nat} (he : encodePump i = some (w, h)) :
    PumpWords i w h := by
  have h0 : 0 < 2 ^ 18 := Nat.two_pow_pos 18
  have h0' : 0 < 2 ^ 32 := Nat.two_pow_pos 32
  refine Or.resolve_left (a := encodePump i = none) ?_ (by rw [he]; exact Option.some_ne_none _)
  cases i
  case pumpSkip => cases he; exact .inr ⟨rfl, by decide⟩
  case nmcFade | nmcAxpy | nmcAdd | nmcScale | nmcFill =>
    exact .inr (pumpWords_of_nmcWords (Option.some.inj he) (by decide) rfl)
  case act b r =>
    cases he
    exact .inr ⟨(decodePumpRaw_act (splitF_pumpWord b (by decide) r.isLt h0')).trans (by simp), pumpWord_lt ..⟩
  case refr b r =>
    cases he
    exact .inr ⟨(decodePumpRaw_refr (splitF_pumpWord b (by decide) r.isLt h0')).trans (by simp), pumpWord_lt ..⟩
  case rd b c a =>
    cases he
    have hc : c.toNat < 32 := c.isLt
    exact .inr ⟨(decodePumpRaw_rd (splitF_pumpWord b (by decide) (by omega) a.isLt)).trans (by simp [hc]), pumpWord_lt ..⟩
  case wr b c a =>
    cases he
    have hc : c.toNat < 32 := c.isLt
    exact .inr ⟨(decodePumpRaw_wr (splitF_pumpWord b (by decide) (by omega) a.isLt)).trans (by simp [hc]), pumpWord_lt ..⟩
  case pre b =>
    cases he
    exact .inr ⟨(decodePumpRaw_pre (splitF_pumpWord b (by decide) h0 h0')).trans (by simp), pumpWord_lt ..⟩
  case prea pc =>
    obtain ⟨rfl, rfl⟩ := Prod.mk.inj (Option.some.inj he)
    exact .inr ⟨(decodePumpRaw_prea (splitF_pumpWord ⟨pc, 0, 0⟩ (by decide) h0 h0')).trans (by simp), pumpWord_lt ..⟩
  all_goals exact .inl rfl

/-- The two halves of a near-memory command are those of the fields that are read from them. -/
theorem nmcWords_of_splitF {w half pc bg bk rc ca count op col a b : Nat} (hw : w < 2 ^ 64) (hh : half < 2 ^ 64)
    (hs : splitF pumpFields w = [7, pc, bg, bk, rc, ca]) (hr : splitF [5, 3, 10] rc = [count, op, col])
    (hx : splitF [32, 32] half = [a, b]) :
    nmcWords op ⟨⟨.ofNat _ pc, .ofNat _ bg, .ofNat _ bk⟩, .ofNat _ count, .ofNat _ col, .ofNat _ ca, .ofNat _ a,
      .ofNat _ b⟩ = (w, some half) := by
  have hv := fits_of_splitF hs
  have hv' := fits_of_splitF hr
  have hv'' := fits_of_splitF hx
  simp only [List.forall₂_cons] at hv hv' hv''
  obtain ⟨-, -, -, -, hrc, hca, -⟩ := hv
  obtain ⟨hcount, -, hcol, -⟩ := hv'
  obtain ⟨ha, hb, -⟩ := hv''
  rw [nmcWords]
  simp only [BitVec.toNat_ofNat, Nat.mod_eq_of_lt, hcount, hcol, hca, ha, hb]
  rw [packF_of_splitF hr hrc, packF_of_splitF hx hh, pumpWord_of_splitF hw hs]


theorem encodePump_of_decodeNmc {i : Instr} {w half pc bg bk rc ca : Nat} (hw : w < 2 ^ 64) (hh : half < 2 ^ 64)
    (hs : splitF pumpFields w = [7, pc, bg, bk, rc, ca]) (h : decodeNmc pc bg bk rc ca half = .ok i) :
    encodePump i = some (w, some half) := by
  obtain ⟨count, op, col, hr⟩ : ∃ count op col, splitF [5, 3, 10] rc = [count, op, col] := ⟨_, _, _, rfl⟩
  obtain ⟨a, b, hx⟩ : ∃ a b, splitF [32, 32] half = [a, b] := ⟨_, _, rfl⟩
  rw [decodeNmc_of_splitF hr hx] at h
  exact (encodePump_nmcInstr h).trans (congrArg some (nmcWords_of_splitF hw hh hs hr hx))

theorem encodePump_of_decodePumpRaw {i : Instr} {w : Nat} {h : Option Nat} (hw : w < 2 ^ 64)
    (hh : ∀ x, h = some x → x < 2 ^ 64) (hd : decodePumpRaw w h = .ok i) :
    encodePump i = some (w, none) ∨ encodePump i = some (w, h) := by
  obtain ⟨cmd, pc, bg, bk, rc, ca, hs⟩ : ∃ cmd pc bg bk rc ca, splitF pumpFields w = [cmd, pc, bg, bk, rc, ca] :=
    ⟨_, _, _, _, _, _, rfl⟩
  have hv := fits_of_splitF hs
  simp only [List.forall₂_cons] at hv
  obtain ⟨-, -, -, -, hrc, hca, -⟩ := hv
  match cmd, hs with
  | 0, hs =>
    rw [decodePumpRaw_skip hs] at hd
    obtain ⟨⟨rfl, rfl, rfl, rfl, rfl⟩, hd⟩ := of_ite_ok hd
    cases hd
    exact .inl (congrArg (fun x => some (x, none)) (packF_of_splitF hs hw))
  | 1, hs =>
    rw [decodePumpRaw_act hs] at hd
    obtain ⟨rfl, hd⟩ := of_ite_ok hd
    cases hd
    left
    show some (pumpWord 1 _ (BitVec.ofNat 18 rc).toNat 0, none) = _
    rw [toNat_ofNat_of_lt hrc, pumpWord_of_splitF hw hs]
  | 2, hs =>
    rw [decodePumpRaw_rd hs] at hd
    obtain ⟨hc, hd⟩ := of_ite_ok hd
    cases hd
    left
    show some (pumpWord 2 _ (BitVec.ofNat 5 rc).toNat (BitVec.ofNat 32 ca).toNat, none) = _
    rw [toNat_ofNat_of_lt hc, toNat_ofNat_of_lt hca, pumpWord_of_splitF hw hs]
  | 3, hs =>
    rw [decodePumpRaw_wr hs] at hd
    obtain ⟨hc, hd⟩ := of_ite_ok hd
    cases hd
    left
    show some (pumpWord 3 _ (BitVec.ofNat 5 rc).toNat (BitVec.ofNat 32 ca).toNat, none) = _
    rw [toNat_ofNat_of_lt hc, toNat_ofNat_of_lt hca, pumpWord_of_splitF hw hs]
  | 4, hs =>
    rw [decodePumpRaw_pre hs] at hd
    obtain ⟨⟨rfl, rfl⟩, hd⟩ := of_ite_ok hd
    cases hd
    exact .inl (congrArg (fun x => some (x, none)) (pumpWord_of_splitF hw hs))
  | 5, hs =>
    rw [decodePumpRaw_prea hs] at hd
    obtain ⟨⟨rfl, rfl, rfl, rfl⟩, hd⟩ := of_ite_ok hd
    cases hd
    exact .inl (congrArg (fun x => some (x, none)) (pumpWord_of_splitF hw hs))
  | 6, hs =>
    rw [decodePumpRaw_refr hs] at hd
    obtain ⟨rfl, hd⟩ := of_ite_ok hd
    cases hd
    left
    show some (pumpWord 6 _ (BitVec.ofNat 18 rc).toNat 0, none) = _
    rw [toNat_ofNat_of_lt hrc, pumpWord_of_splitF hw hs]
  | 7, hs =>
    cases h with
    | none => rw [decodePumpRaw, hs] at hd; cases hd
    | some half => exact .inr (encodePump_of_decodeNmc hw (hh _ rfl) hs (decodePumpRaw_nmc hs ▸ hd))
  | n + 8, hs =>
    rw [decodePumpRaw_error hs] at hd
    cases hd

theorem encodePump_of_decodePump {i : Instr} {w : Nat} {h : Option Nat} (hw : w < 2 ^ 64)
    (hh : ∀ x, h = some x → x < 2 ^ 64) (hd : decodePump w h = .ok i) :
    wf i = true ∧ ∃ h', encodePump i = some (w, h') ∧ (h' = none ∨ h' = h) := by
  obtain ⟨hd, hi⟩ := decodePump_ok_iff.1 hd
  obtain he | he := encodePump_of_decodePumpRaw hw hh hd
  · exact ⟨hi, none, he, .inl rfl⟩
  · exact ⟨hi, h, he, .inr rfl⟩

/-! ### Commands of the host -/

theorem splitF_of_packF {ws vs : List Nat} {x : Nat} (hv : Fits ws vs) (hx : packF ws vs = x) : splitF ws x = vs :=
  hx ▸ splitF_packF hv

theorem decodeCommand_ok_iff {o tag : Nat} {ws : List Nat} {i : Instr} (ho : o < 2 ^ 8) (ht : tag < 2 ^ 16)
    (hl : ws.length = 5) :
    decodeCommand ((o + 2 ^ 16 * tag) :: ws) = .ok i ↔ decodeCommandRaw o ws = .ok i ∧ wf i = true := by
  have hs : splitF [32, 16, 8, 8] (o + 2 ^ 16 * tag) = [0, tag, 0, o] :=
    splitF_of_packF (.cons (by decide) (.cons ht (.cons (by decide) (.cons ho .nil))))
      (by simp only [packF, List.sum_cons, List.sum_nil]; omega)
  have ht' : ws.take 5 = ws := List.take_of_length_le (Nat.le_of_eq hl)
  simp only [decodeCommand, List.headD_cons, hs, List.tail_cons, ht']
  split
  next j hj => grind
  next => simp_all

/-- A word that must be zero for the command to be one. -/
theorem eq_zero_of_ok {ε α : Type} (P : Nat → Except ε α) {e : ε} {x : Nat} {a : α} (h : P x = .ok a)
    (hP : ∀ n, P (n + 1) = .error e) : x = 0 := by
  cases x with
  | zero => rfl
  | succ n => rw [hP] at h; cases h

section

variable {a v c d e z b w q r n : Nat}

theorem decodeCommandRaw_qset (hs : splitF [45, 3, 16] a = [z, w, q]) :
    decodeCommandRaw 1 [a, v, c, 0, 0] =
      if z = 0 then .ok (.qset (.ofNat _ q) (.ofNat _ w) (.ofNat _ v) (.ofNat _ c)) else .error .reserved := by
  show ((match splitF [45, 3, 16] a with
    | [0, w, q] => .ok (.qset (.ofNat _ q) (.ofNat _ w) (.ofNat _ v) (.ofNat _ c))
    | _ => .error .reserved) : Except DecodeErr Instr) = _
  rw [hs]
  cases z <;> rfl

theorem decodeCommandRaw_ctxset (hs : splitF [48, 16] a = [z, q]) :
    decodeCommandRaw 2 [a, v, 0, 0, 0] = if z = 0 then .ok (.ctxset (.ofNat _ q) (.ofNat _ v)) else .error .reserved := by
  show ((match splitF [48, 16] a with
    | [0, q] => .ok (.ctxset (.ofNat _ q) (.ofNat _ v))
    | _ => .error .reserved) : Except DecodeErr Instr) = _
  rw [hs]
  cases z <;> rfl

theorem decodeCommandRaw_region (hs : splitF [40, 8, 16] a = [z, d, r]) :
    decodeCommandRaw 3 [a, v, c, 0, 0] =
      if z = 0 then .ok (.region (.ofNat _ r) (.ofNat _ d) (.ofNat _ v) (.ofNat _ c)) else .error .reserved := by
  show ((match splitF [40, 8, 16] a with
    | [0, d, r] => .ok (.region (.ofNat _ r) (.ofNat _ d) (.ofNat _ v) (.ofNat _ c))
    | _ => .error .reserved) : Except DecodeErr Instr) = _
  rw [hs]
  cases z <;> rfl

theorem decodeCommandRaw_tierMigration (hs : splitF [63, 1] e = [z, b]) :
    decodeCommandRaw 4 [16, a, c, d, e] =
      if z = 0 then .ok (.tierMigration (.ofNat _ a) (.ofNat _ c) (.ofNat _ d) (b == 1)) else .error .reserved := by
  show ((match splitF [63, 1] e with
    | [0, b] => .ok (.tierMigration (.ofNat _ a) (.ofNat _ c) (.ofNat _ d) (b == 1))
    | _ => .error .reserved) : Except DecodeErr Instr) = _
  rw [hs]
  cases z <;> rfl

/-- A first word of 16 would start a migration. -/
theorem decodeCommandRaw_tier (ha : a ≠ 16) :
    decodeCommandRaw 4 [a, v, c, d, e] =
      if c = 0 ∧ d = 0 ∧ e = 0 then .ok (.tier (.ofNat _ a) (.ofNat _ v)) else .error .reserved := by
  obtain h | ⟨n, rfl⟩ : a < 16 ∨ ∃ n, a = n + 17 := by
    obtain h | h := Nat.lt_or_gt_of_ne ha
    · exact .inl h
    · exact .inr ⟨a - 17, by omega⟩
  · cases c with | succ => interval_cases a <;> rfl | zero =>
    cases d with | succ => interval_cases a <;> rfl | zero =>
    cases e with | succ => interval_cases a <;> rfl | zero =>
    interval_cases a <;> rfl
  · cases c with | succ => rfl | zero =>
    cases d with | succ => rfl | zero =>
    cases e with | succ => rfl | zero =>
    rfl

theorem decodeCommandRaw_faults : decodeCommandRaw 6 [a, v, 0, 0, 0] = .ok (.faults (.ofNat _ a) (.ofNat _ v)) := rfl

theorem decodeCommandRaw_resync : decodeCommandRaw 7 [a, 0, 0, 0, 0] = .ok (.resync (.ofNat _ a)) := rfl

theorem decodeCommandRaw_fwload : decodeCommandRaw 9 [a, v, 0, 0, 0] = .ok (.fwload (.ofNat _ a) (.ofNat _ v)) := rfl

theorem decodeCommandRaw_attest :
    decodeCommandRaw 10 [a, v, c, d, e] =
      .ok (.attest (.ofNat _ a) (.ofNat _ v) (.ofNat _ c) (.ofNat _ d) (.ofNat _ e)) := rfl

theorem decodeCommandRaw_pcap : decodeCommandRaw 12 [a, 0, 0, 0, 0] = .ok (.pcap (.ofNat _ a)) := rfl

theorem decodeCommandRaw_recover (hs : splitF [48, 16] a = [z, q]) :
    decodeCommandRaw 5 [a, v, 0, 0, 0] = if z = 0 then .ok (.recover (.ofNat _ q) (.ofNat _ v)) else .error .reserved := by
  show ((match splitF [48, 16] a with
    | [0, q] => .ok (.recover (.ofNat _ q) (.ofNat _ v))
    | _ => .error .reserved) : Except DecodeErr Instr) = _
  rw [hs]
  cases z <;> rfl

/-- What RETIRE names, from the fields of its first word (R414). -/
def retireFields : List Nat → Except DecodeErr Instr
  | [0, b, y, 1, 0, d] => .ok (.retireBank (.ofNat _ d) (.ofNat _ y) (.ofNat _ b))
  | [0, 0, 0, 0, 0, d] => .ok (.retireDie (.ofNat _ d))
  | _ => .error .reserved

/-- What is retired is a bank or a die, by the fields. -/
theorem retireFields_ok {z b y k r d : Nat} {i : Instr} (h : retireFields [z, b, y, k, r, d] = .ok i) :
    z = 0 ∧ r = 0 ∧ (k = 1 ∧ i = .retireBank (.ofNat _ d) (.ofNat _ y) (.ofNat _ b) ∨
      b = 0 ∧ y = 0 ∧ k = 0 ∧ i = .retireDie (.ofNat _ d)) := by
  cases z with | succ => cases h | zero =>
  match k, h with
  | 0, h =>
    cases b with | succ => cases y <;> cases r <;> cases h | zero =>
    cases y with | succ => cases r <;> cases h | zero =>
    cases r with | succ => cases h | zero =>
    cases h
    exact ⟨rfl, rfl, .inr ⟨rfl, rfl, rfl, rfl⟩⟩
  | 1, h =>
    cases r with | succ => cases h | zero =>
    cases h
    exact ⟨rfl, rfl, .inl ⟨rfl, rfl⟩⟩
  | k + 2, h => cases h

theorem decodeCommandRaw_retire : decodeCommandRaw 8 [a, 0, 0, 0, 0] = retireFields (splitF [45, 7, 3, 1, 5, 3] a) := rfl

/-- What DOMAIN names, from the fields of its first word (R414). -/
def domainFields : List Nat → Except DecodeErr Instr
  | [0, 1, 0, p] => .ok (.domainJoin (.ofNat _ p))
  | [0, 0, 0, p] => .ok (.domainLeave (.ofNat _ p))
  | _ => .error .reserved

theorem domainFields_ok {z k r p : Nat} {i : Instr} (h : domainFields [z, k, r, p] = .ok i) :
    z = 0 ∧ r = 0 ∧ (k = 1 ∧ i = .domainJoin (.ofNat _ p) ∨ k = 0 ∧ i = .domainLeave (.ofNat _ p)) := by
  cases z with | succ => cases h | zero =>
  match k, h with
  | 0, h =>
    cases r with | succ => cases h | zero =>
    cases h
    exact ⟨rfl, rfl, .inr ⟨rfl, rfl⟩⟩
  | 1, h =>
    cases r with | succ => cases h | zero =>
    cases h
    exact ⟨rfl, rfl, .inl ⟨rfl, rfl⟩⟩
  | k + 2, h => cases h

theorem decodeCommandRaw_domain : decodeCommandRaw 11 [a, 0, 0, 0, 0] = domainFields (splitF [55, 1, 3, 5] a) := rfl

end

/-- A context id that stands alone in its word. -/
theorem splitF_context (c : BitVec 16) : splitF [48, 16] c.toNat = [0, c.toNat] :=
  splitF_of_packF (.cons (by decide) (.cons c.isLt .nil)) (by simp [packF]; omega)

theorem context_of_splitF {a q : Nat} (ha : a < 2 ^ 64) (hs : splitF [48, 16] a = [0, q]) :
    (BitVec.ofNat 16 q).toNat = a := by
  have hp := packF_of_splitF hs ha
  simpa [packF] using hp

/-- An opcode that fits its field and five words, which decode to the command. -/
structure CommandWords (i : Instr) (o : Nat) (ws : List Nat) : Prop where
  opcode : o < 2 ^ 8
  length : ws.length = 5
  decode : decodeCommandRaw o ws = .ok i

theorem commandWords_of_encodeCommand {i : Instr} {o : Nat} {ws : List Nat} (hi : wf i = true)
    (he : encodeCommand i = some (o, ws)) : CommandWords i o ws := by
  refine Or.resolve_left (a := encodeCommand i = none) ?_ (by rw [he]; exact Option.some_ne_none _)
  cases i
  case faults =>
    cases he
    exact .inr ⟨by decide, rfl, decodeCommandRaw_faults.trans (by simp)⟩
  case resync =>
    cases he
    exact .inr ⟨by decide, rfl, decodeCommandRaw_resync.trans (by simp)⟩
  case fwload =>
    cases he
    exact .inr ⟨by decide, rfl, decodeCommandRaw_fwload.trans (by simp)⟩
  case attest =>
    cases he
    exact .inr ⟨by decide, rfl, decodeCommandRaw_attest.trans (by simp)⟩
  case pcap =>
    cases he
    exact .inr ⟨by decide, rfl, decodeCommandRaw_pcap.trans (by simp)⟩
  case qset q w v m =>
    cases he
    have hs := splitF_packF (ws := [45, 3, 16]) (vs := [0, w.toNat, q.toNat])
      (.cons (by decide) (.cons w.isLt (.cons q.isLt .nil)))
    exact .inr ⟨by decide, rfl, (decodeCommandRaw_qset hs).trans (by simp)⟩
  case region n d a c =>
    cases he
    have hs := splitF_packF (ws := [40, 8, 16]) (vs := [0, d.toNat, n.toNat])
      (.cons (by decide) (.cons d.isLt (.cons n.isLt .nil)))
    exact .inr ⟨by decide, rfl, (decodeCommandRaw_region hs).trans (by simp)⟩
  case ctxset c a =>
    cases he
    exact .inr ⟨by decide, rfl, (decodeCommandRaw_ctxset (splitF_context c)).trans (by simp)⟩
  case recover c a =>
    cases he
    exact .inr ⟨by decide, rfl, (decodeCommandRaw_recover (splitF_context c)).trans (by simp)⟩
  case tier s v =>
    cases he
    -- 16 would select the migration of a tier.
    have hs : s.toNat ≤ 12 := of_decide_eq_true hi
    exact .inr ⟨by decide, rfl, (decodeCommandRaw_tier (by omega)).trans (by simp)⟩
  case tierMigration c l d t =>
    cases he
    have hs : splitF [63, 1] (b2n t) = [0, b2n t] :=
      splitF_of_packF (.cons (by decide) (.cons (b2n_lt t) .nil)) (by cases t <;> rfl)
    exact .inr ⟨by decide, rfl, (decodeCommandRaw_tierMigration hs).trans (by simp)⟩
  case retireDie d =>
    cases he
    have hs : splitF [45, 7, 3, 1, 5, 3] d.toNat = [0, 0, 0, 0, 0, d.toNat] :=
      splitF_of_packF (by simp [BitVec.isLt, -Nat.reducePow]) (by simp [packF]; omega)
    exact .inr ⟨by decide, rfl,
      decodeCommandRaw_retire.trans ((congrArg retireFields hs).trans (congrArg Except.ok (by simp)))⟩
  case retireBank d y b =>
    cases he
    have hs := splitF_packF (ws := [45, 7, 3, 1, 5, 3]) (vs := [0, b.toNat, y.toNat, 1, 0, d.toNat])
      (.cons (by decide) (.cons b.isLt (.cons y.isLt (.cons (by decide) (.cons (by decide) (.cons d.isLt .nil))))))
    exact .inr ⟨by decide, rfl,
      decodeCommandRaw_retire.trans ((congrArg retireFields hs).trans (congrArg Except.ok (by simp)))⟩
  case domainJoin p =>
    cases he
    have hs : splitF [55, 1, 3, 5] (256 + p.toNat) = [0, 1, 0, p.toNat] :=
      splitF_of_packF (by simp [BitVec.isLt, -Nat.reducePow]) (by simp [packF]; omega)
    exact .inr ⟨by decide, rfl,
      decodeCommandRaw_domain.trans ((congrArg domainFields hs).trans (congrArg Except.ok (by simp)))⟩
  case domainLeave p =>
    cases he
    have hs : splitF [55, 1, 3, 5] p.toNat = [0, 0, 0, p.toNat] :=
      splitF_of_packF (by simp [BitVec.isLt, -Nat.reducePow]) (by simp [packF]; omega)
    exact .inr ⟨by decide, rfl,
      decodeCommandRaw_domain.trans ((congrArg domainFields hs).trans (congrArg Except.ok (by simp)))⟩
  all_goals exact .inl rfl

section

variable {i : Instr} {o a b c d e : Nat}

theorem encodeCommand_of_decodeTier (ha : a < 2 ^ 64) (hb : b < 2 ^ 64) (hc : c < 2 ^ 64) (hd : d < 2 ^ 64)
    (he : e < 2 ^ 64) (h : decodeCommandRaw 4 [a, b, c, d, e] = .ok i) : encodeCommand i = some (4, [a, b, c, d, e]) := by
  by_cases h16 : a = 16
  · subst h16
    obtain ⟨z, t, hs⟩ : ∃ z t, splitF [63, 1] e = [z, t] := ⟨_, _, rfl⟩
    rw [decodeCommandRaw_tierMigration hs] at h
    obtain ⟨rfl, h⟩ := of_ite_ok h
    cases h
    have hv := fits_of_splitF hs
    simp only [List.forall₂_cons] at hv
    obtain ⟨-, ht, -⟩ := hv
    have hte : t = e := by
      have hp := packF_of_splitF hs he
      simp [packF] at hp
      omega
    show some (4, [16, (BitVec.ofNat 64 b).toNat, (BitVec.ofNat 64 c).toNat, (BitVec.ofNat 64 d).toNat,
      b2n (t == 1)]) = _
    rw [toNat_ofNat_of_lt hb, toNat_ofNat_of_lt hc, toNat_ofNat_of_lt hd, b2n_of_lt ht, hte]
  · rw [decodeCommandRaw_tier h16] at h
    obtain ⟨⟨rfl, rfl, rfl⟩, h⟩ := of_ite_ok h
    cases h
    show some (4, [(BitVec.ofNat 64 a).toNat, (BitVec.ofNat 64 b).toNat, 0, 0, 0]) = _
    rw [toNat_ofNat_of_lt ha, toNat_ofNat_of_lt hb]

theorem encodeCommand_of_retireFields (ha : a < 2 ^ 64) (h : retireFields (splitF [45, 7, 3, 1, 5, 3] a) = .ok i) :
    encodeCommand i = some (8, [a, 0, 0, 0, 0]) := by
  obtain ⟨z, b, y, k, r, d, hs⟩ : ∃ z b y k r d, splitF [45, 7, 3, 1, 5, 3] a = [z, b, y, k, r, d] :=
    ⟨_, _, _, _, _, _, rfl⟩
  have hp := packF_of_splitF hs ha
  obtain ⟨rfl, rfl, ⟨rfl, rfl⟩ | ⟨rfl, rfl, rfl, rfl⟩⟩ := retireFields_ok (hs ▸ h)
  · have hv := fits_of_splitF hs
    simp only [List.forall₂_cons] at hv
    obtain ⟨-, hb, hy, -, -, hd, -⟩ := hv
    show some (8, [packF [45, 7, 3, 1, 5, 3] [0, (BitVec.ofNat 7 b).toNat, (BitVec.ofNat 3 y).toNat, 1, 0,
      (BitVec.ofNat 3 d).toNat], 0, 0, 0, 0]) = _
    rw [toNat_ofNat_of_lt hb, toNat_ofNat_of_lt hy, toNat_ofNat_of_lt hd, hp]
  · show some (8, [(BitVec.ofNat 3 d).toNat, 0, 0, 0, 0]) = _
    simp [packF] at hp
    simp [hp]

theorem encodeCommand_of_domainFields (ha : a < 2 ^ 64) (h : domainFields (splitF [55, 1, 3, 5] a) = .ok i) :
    encodeCommand i = some (11, [a, 0, 0, 0, 0]) := by
  obtain ⟨z, k, r, p, hs⟩ : ∃ z k r p, splitF [55, 1, 3, 5] a = [z, k, r, p] := ⟨_, _, _, _, rfl⟩
  have hp := packF_of_splitF hs ha
  obtain ⟨rfl, rfl, ⟨rfl, rfl⟩ | ⟨rfl, rfl⟩⟩ := domainFields_ok (hs ▸ h)
  · show some (11, [256 + (BitVec.ofNat 5 p).toNat, 0, 0, 0, 0]) = _
    simp [packF] at hp
    simp [hp]
  · show some (11, [(BitVec.ofNat 5 p).toNat, 0, 0, 0, 0]) = _
    simp [packF] at hp
    simp [hp]

theorem encodeCommand_of_decodeCommandRaw (ha : a < 2 ^ 64) (hb : b < 2 ^ 64) (hc : c < 2 ^ 64) (hd : d < 2 ^ 64)
    (he : e < 2 ^ 64) (h : decodeCommandRaw o [a, b, c, d, e] = .ok i) : encodeCommand i = some (o, [a, b, c, d, e]) := by
  match o, h with
  | 0, h => cases h
  | 1, h =>
    obtain rfl := eq_zero_of_ok (decodeCommandRaw 1 [a, b, c, ·, e]) h fun _ => rfl
    obtain rfl := eq_zero_of_ok (decodeCommandRaw 1 [a, b, c, 0, ·]) h fun _ => rfl
    obtain ⟨z, w, q, hs⟩ : ∃ z w q, splitF [45, 3, 16] a = [z, w, q] := ⟨_, _, _, rfl⟩
    rw [decodeCommandRaw_qset hs] at h
    obtain ⟨rfl, h⟩ := of_ite_ok h
    cases h
    have hv := fits_of_splitF hs
    simp only [List.forall₂_cons] at hv
    obtain ⟨-, hw, hq, -⟩ := hv
    show some (1, [packF [45, 3, 16] [0, (BitVec.ofNat 3 w).toNat, (BitVec.ofNat 16 q).toNat], (BitVec.ofNat 64 b).toNat,
      (BitVec.ofNat 64 c).toNat, 0, 0]) = _
    rw [toNat_ofNat_of_lt hw, toNat_ofNat_of_lt hq, toNat_ofNat_of_lt hb, toNat_ofNat_of_lt hc, packF_of_splitF hs ha]
  | 2, h =>
    obtain rfl := eq_zero_of_ok (decodeCommandRaw 2 [a, b, ·, d, e]) h fun _ => rfl
    obtain rfl := eq_zero_of_ok (decodeCommandRaw 2 [a, b, 0, ·, e]) h fun _ => rfl
    obtain rfl := eq_zero_of_ok (decodeCommandRaw 2 [a, b, 0, 0, ·]) h fun _ => rfl
    obtain ⟨z, q, hs⟩ : ∃ z q, splitF [48, 16] a = [z, q] := ⟨_, _, rfl⟩
    rw [decodeCommandRaw_ctxset hs] at h
    obtain ⟨rfl, h⟩ := of_ite_ok h
    cases h
    show some (2, [(BitVec.ofNat 16 q).toNat, (BitVec.ofNat 64 b).toNat, 0, 0, 0]) = _
    rw [context_of_splitF ha hs, toNat_ofNat_of_lt hb]
  | 3, h =>
    obtain rfl := eq_zero_of_ok (decodeCommandRaw 3 [a, b, c, ·, e]) h fun _ => rfl
    obtain rfl := eq_zero_of_ok (decodeCommandRaw 3 [a, b, c, 0, ·]) h fun _ => rfl
    obtain ⟨z, x, r, hs⟩ : ∃ z x r, splitF [40, 8, 16] a = [z, x, r] := ⟨_, _, _, rfl⟩
    rw [decodeCommandRaw_region hs] at h
    obtain ⟨rfl, h⟩ := of_ite_ok h
    cases h
    have hv := fits_of_splitF hs
    simp only [List.forall₂_cons] at hv
    obtain ⟨-, hx, hr, -⟩ := hv
    show some (3, [packF [40, 8, 16] [0, (BitVec.ofNat 8 x).toNat, (BitVec.ofNat 16 r).toNat], (BitVec.ofNat 64 b).toNat,
      (BitVec.ofNat 64 c).toNat, 0, 0]) = _
    rw [toNat_ofNat_of_lt hx, toNat_ofNat_of_lt hr, toNat_ofNat_of_lt hb, toNat_ofNat_of_lt hc, packF_of_splitF hs ha]
  | 4, h =>
    exact encodeCommand_of_decodeTier ha hb hc hd he h
  | 5, h =>
    obtain rfl := eq_zero_of_ok (decodeCommandRaw 5 [a, b, ·, d, e]) h fun _ => rfl
    obtain rfl := eq_zero_of_ok (decodeCommandRaw 5 [a, b, 0, ·, e]) h fun _ => rfl
    obtain rfl := eq_zero_of_ok (decodeCommandRaw 5 [a, b, 0, 0, ·]) h fun _ => rfl
    obtain ⟨z, q, hs⟩ : ∃ z q, splitF [48, 16] a = [z, q] := ⟨_, _, rfl⟩
    rw [decodeCommandRaw_recover hs] at h
    obtain ⟨rfl, h⟩ := of_ite_ok h
    cases h
    show some (5, [(BitVec.ofNat 16 q).toNat, (BitVec.ofNat 64 b).toNat, 0, 0, 0]) = _
    rw [context_of_splitF ha hs, toNat_ofNat_of_lt hb]
  | 6, h =>
    obtain rfl := eq_zero_of_ok (decodeCommandRaw 6 [a, b, ·, d, e]) h fun _ => rfl
    obtain rfl := eq_zero_of_ok (decodeCommandRaw 6 [a, b, 0, ·, e]) h fun _ => rfl
    obtain rfl := eq_zero_of_ok (decodeCommandRaw 6 [a, b, 0, 0, ·]) h fun _ => rfl
    cases h
    show some (6, [(BitVec.ofNat 64 a).toNat, (BitVec.ofNat 64 b).toNat, 0, 0, 0]) = _
    rw [toNat_ofNat_of_lt ha, toNat_ofNat_of_lt hb]
  | 7, h =>
    obtain rfl := eq_zero_of_ok (decodeCommandRaw 7 [a, ·, c, d, e]) h fun _ => rfl
    obtain rfl := eq_zero_of_ok (decodeCommandRaw 7 [a, 0, ·, d, e]) h fun _ => rfl
    obtain rfl := eq_zero_of_ok (decodeCommandRaw 7 [a, 0, 0, ·, e]) h fun _ => rfl
    obtain rfl := eq_zero_of_ok (decodeCommandRaw 7 [a, 0, 0, 0, ·]) h fun _ => rfl
    cases h
    show some (7, [(BitVec.ofNat 64 a).toNat, 0, 0, 0, 0]) = _
    rw [toNat_ofNat_of_lt ha]
  | 8, h =>
    obtain rfl := eq_zero_of_ok (decodeCommandRaw 8 [a, ·, c, d, e]) h fun _ => rfl
    obtain rfl := eq_zero_of_ok (decodeCommandRaw 8 [a, 0, ·, d, e]) h fun _ => rfl
    obtain rfl := eq_zero_of_ok (decodeCommandRaw 8 [a, 0, 0, ·, e]) h fun _ => rfl
    obtain rfl := eq_zero_of_ok (decodeCommandRaw 8 [a, 0, 0, 0, ·]) h fun _ => rfl
    exact encodeCommand_of_retireFields ha h
  | 9, h =>
    obtain rfl := eq_zero_of_ok (decodeCommandRaw 9 [a, b, ·, d, e]) h fun _ => rfl
    obtain rfl := eq_zero_of_ok (decodeCommandRaw 9 [a, b, 0, ·, e]) h fun _ => rfl
    obtain rfl := eq_zero_of_ok (decodeCommandRaw 9 [a, b, 0, 0, ·]) h fun _ => rfl
    cases h
    show some (9, [(BitVec.ofNat 64 a).toNat, (BitVec.ofNat 64 b).toNat, 0, 0, 0]) = _
    rw [toNat_ofNat_of_lt ha, toNat_ofNat_of_lt hb]
  | 10, h =>
    cases h
    show some (10, [(BitVec.ofNat 64 a).toNat, (BitVec.ofNat 64 b).toNat, (BitVec.ofNat 64 c).toNat,
      (BitVec.ofNat 64 d).toNat, (BitVec.ofNat 64 e).toNat]) = _
    rw [toNat_ofNat_of_lt ha, toNat_ofNat_of_lt hb, toNat_ofNat_of_lt hc, toNat_ofNat_of_lt hd, toNat_ofNat_of_lt he]
  | 11, h =>
    obtain rfl := eq_zero_of_ok (decodeCommandRaw 11 [a, ·, c, d, e]) h fun _ => rfl
    obtain rfl := eq_zero_of_ok (decodeCommandRaw 11 [a, 0, ·, d, e]) h fun _ => rfl
    obtain rfl := eq_zero_of_ok (decodeCommandRaw 11 [a, 0, 0, ·, e]) h fun _ => rfl
    obtain rfl := eq_zero_of_ok (decodeCommandRaw 11 [a, 0, 0, 0, ·]) h fun _ => rfl
    exact encodeCommand_of_domainFields ha h
  | 12, h =>
    obtain rfl := eq_zero_of_ok (decodeCommandRaw 12 [a, ·, c, d, e]) h fun _ => rfl
    obtain rfl := eq_zero_of_ok (decodeCommandRaw 12 [a, 0, ·, d, e]) h fun _ => rfl
    obtain rfl := eq_zero_of_ok (decodeCommandRaw 12 [a, 0, 0, ·, e]) h fun _ => rfl
    obtain rfl := eq_zero_of_ok (decodeCommandRaw 12 [a, 0, 0, 0, ·]) h fun _ => rfl
    cases h
    show some (12, [(BitVec.ofNat 64 a).toNat, 0, 0, 0, 0]) = _
    rw [toNat_ofNat_of_lt ha]
  | _ + 13, h => cases h

end

end Sys2Proof

open Sys2Proof in
/-- Settles O57: for slot words by `decodeSlot_of_encodeGuarded` and `encodeGuarded_of_decodeSlot`, for pump words by
`pumpWords_of_encodePump` and `encodePump_of_decodePump`, for commands by `commandWords_of_encodeCommand` and
`encodeCommand_of_decodeCommandRaw`. -/
theorem decodingAndEncodingAgree : Obligations.DecodingAndEncodingAgree := by
  unfold Obligations.DecodingAndEncodingAgree
  refine ⟨fun i g neg w hi he => decodeSlot_of_encodeGuarded hi he, fun w i hw hd => encodeGuarded_of_decodeSlot hw hd,
    fun i w h hi he => ?_, fun i w h hw hh hd => encodePump_of_decodePump hw hh hd,
    fun i o tag ws hi he ht => ?_, fun i o ws ho hl hw hd => ?_⟩
  · obtain ⟨hd, hw⟩ := pumpWords_of_encodePump he
    exact ⟨decodePump_ok_iff.2 ⟨hd, hi⟩, hw⟩
  · obtain ⟨ho, hl, hd⟩ := commandWords_of_encodeCommand hi he
    exact (decodeCommand_ok_iff ho ht hl).2 ⟨hd, hi⟩
  · obtain ⟨hd, hi⟩ := (decodeCommand_ok_iff (tag := 0) ho (by decide) hl).1 hd
    match ws, hl with
    | [a, b, c, d, e], _ =>
      simp only [List.forall_mem_cons] at hw
      obtain ⟨ha, hb, hc, hd', he, -⟩ := hw
      exact ⟨hi, encodeCommand_of_decodeCommandRaw ha hb hc hd' he hd⟩

end
